-- ==== Sys2Proof/Word.lean ====
section
/-! DEFINITION. The words, counts and numbers-of-things of the part, and the lists that run through
them (00_scope.md, "Numbers and ranges" and "Fixed numbers of the part"). -/

namespace Sys2Proof

/-- A sample word: 24 bits, two's complement (00_scope.md, Units). -/
abbrev Sample := BitVec 24

/-- The house count HC, 48 bits (R1). -/
abbrev HouseCount := BitVec 48

/-- A tick position, HC × 256 plus the tick phase, 56 bits (R1). -/
abbrev TickPos := BitVec 56

/-- The frame count FC, 32 bits (R2). -/
abbrev FrameCount := BitVec 32

/-- Programme numbers P0 to P7. -/
abbrev ProgId := Fin 8
/-- Lane numbers L0 to L23. -/
abbrev LaneId := Fin 24
/-- Input port numbers IN0 to IN5. -/
abbrev PortId := Fin 6
/-- Preset numbers PS0 to PS15. -/
abbrev PresetId := Fin 16
/-- Alarm point numbers A0 to A47. -/
abbrev PointId := Fin 48
/-- Contact line numbers, G0 to G7 and Q0 to Q7. -/
abbrev LineId := Fin 8
/-- Capture slot numbers C0 and C1. -/
abbrev SlotId := Fin 2

/-- One input frame: a word for each of the eight channels of a port (02, opening). -/
abbrev Frame := Vector Sample 8

/-- Eight levels, one bit a line: bit i is line i. -/
abbrev Levels := BitVec 8

def allProgs : List ProgId := [0, 1, 2, 3, 4, 5, 6, 7]
def allLines : List LineId := [0, 1, 2, 3, 4, 5, 6, 7]
def allPorts : List PortId := [0, 1, 2, 3, 4, 5]
def allSlots : List SlotId := [0, 1]
def allPresets : List PresetId := [0, 1, 2, 3, 4, 5, 6, 7, 8, 9, 10, 11, 12, 13, 14, 15]
def allLanes : List LaneId :=
  [0, 1, 2, 3, 4, 5, 6, 7, 8, 9, 10, 11, 12, 13, 14, 15, 16, 17, 18, 19, 20, 21, 22, 23]
def allPoints : List PointId :=
  [0, 1, 2, 3, 4, 5, 6, 7, 8, 9, 10, 11, 12, 13, 14, 15, 16, 17, 18, 19, 20, 21, 22, 23,
   24, 25, 26, 27, 28, 29, 30, 31, 32, 33, 34, 35, 36, 37, 38, 39, 40, 41, 42, 43, 44, 45, 46, 47]

end Sys2Proof
end

