-- ==== Sys2Proof/Syntax.lean ====
section
/-! DEFINITION. The commands of the part: one constructor of `Instr` for each row of
spec/opcode_table.json, and the argument words of a request line (12_control_link_profile_and_restart.md). -/

namespace Sys2Proof

/-- The keywords of requests, replies and notices, spelt as the manual spells them. A request's keywords are
matched without regard to case (R187), so a word of a line is one of these or is unknown. -/
inductive Kw where
  | NONE | CLEAR | ALL | ON | OFF | YES | NO | SET | OK | FAIL | TRUE | FALSE
  | MAIN | BACKUP | MONO | PAIR | SIX | EIGHT | FULL | DELAY | BYPASS | MANUAL | AUTO | SLEW | JUMP
  | TARGET | BOOST | CUT | ATTACK | RELEASE | SILENCE | MODE | SHORT | INTEGRATED | TRIM
  | MEASURE | SUBJECT | SENSE | THRESHOLD | HYST | STRIDE | PHASE | RAISE | NOTIFY | GPO | ACTION
  | SILENT | LOUD | DRIFT | CLIP | PORTLOCK | PGMLOCK | GAINLIM | REF | WATCH | ABOVE | BELOW
  | CHANGEOVER | CAPTURE | FREEZE
  | POLARITY | DEBOUNCE | FUNCTION | LOW | HIGH | HOLD | BREAK | RESET | EVENT | MATCH
  | SINGLE | REPEAT | ALARM | GPI | REQUEST | VIDEO | RECALL | PUSH | POP | SOURCE
  | FREE | ACQUIRING | LOCKED | LOST | NO_SIGNAL | MEASURING | RELOCKING | OUT_OF_RANGE
  | K32 | K441 | K48 | K882 | K96 | CLASS
  | FADING_IN | OPEN | CLOSED | UNDEFINED | PARKED | RUNNING | WAITING | FADING_DOWN | FADING_UP
  | STILL | SLEWING | MET | FLOOR | VALID | INVALID | U | ABSENT
  | IDLE | ARMED | SEARCHING | DONE | NO_ONSET | TIMEOUT | CANCELLED | PARK | POS | NEG
  | RAISING | ACTIVE | CLEARING | FORCED | RAISED | CLEARED | EDITED
  | ASSERTED | RELEASED | EQUAL | NOT_EQUAL | POST | HELD | TAKEN | IGNORED | END
  | LATE | CLAMPED | STATE | PULSE | FLYWHEEL | TAKE | REVERT
  | POWER | PIN | PROC | SAVING | OJ_2408
  deriving DecidableEq, Repr

/-- The letters before a number in a named thing: P2, IN3, L5, PS7, A6, G2, Q4, C1. -/
inductive NameKind where
  | P | IN | L | PS | A | G | Q | C
  deriving DecidableEq, Repr

/-- One argument word of a request line (R187). -/
inductive Tok where
  /-- a decimal number, with or without a minus sign -/
  | num (n : Int)
  /-- a decimal number with a leading plus sign -/
  | plus (n : Nat)
  /-- a decimal number with a fraction, in thousandths: 29.97 is 29970 -/
  | milli (n : Nat)
  /-- items joined by commas, each a number or a named thing's number -/
  | nums (l : List Int)
  /-- a named thing, such as C1 -/
  | name (k : NameKind) (n : Int)
  /-- a source, port and channel joined by a colon -/
  | src (port chan : Int)
  /-- eight digits 0 or 1, line 0 first -/
  | digits (w : Levels)
  /-- a keyword -/
  | kw (k : Kw)
  /-- any other word: it cannot be read as any of the above -/
  | other
  deriving DecidableEq, Repr

/-- The commands, one for each row of spec/opcode_table.json. A request carries its tag and its argument
words; an event of the part carries the thing it happens to; an event at a pin carries what the pin shows. -/
inductive Instr where
  | powerOn (baudsel atnpol : Bool)
  | resetnRelease (baudsel atnpol : Bool)
  | houseSample
  | subBlockClose
  | multiplierRampEnd (p : ProgId)
  | gpiSampleInstant (levels : Levels)
  | frefPulse (phase : BitVec 8)
  | flywheelBoundary
  | missingPulseExpiry
  | frameEdge (port : PortId) (phase : BitVec 8) (words : Frame)
  | windowClose (port : PortId)
  | signalExpiry (port : PortId)
  | laneFadeInEnd (lane : LaneId)
  | changeoverSwitch (p : ProgId)
  | outputFadeUpEnd (p : ProgId)
  | slewStep (p : ProgId)
  | jumpBottom (p : ProgId)
  | jumpFadeUpEnd (p : ProgId)
  | alarmScan
  | envelopeWindow
  | probeSearchComplete
  | probeTimeout
  | captureComplete (slot : SlotId)
  | saveComplete (ok : Bool)
  | txLineSent
  | lineTooLong
  | unknownVerb (tag : Option Nat)
  | timeQuery (tag : Nat) (args : List Tok)
  | refSet (tag : Nat) (args : List Tok)
  | refQuery (tag : Nat) (args : List Tok)
  | portQuery (tag : Nat) (args : List Tok)
  | laneSet (tag : Nat) (args : List Tok)
  | laneQuery (tag : Nat) (args : List Tok)
  | pgmDefine (tag : Nat) (args : List Tok)
  | pgmRun (tag : Nat) (args : List Tok)
  | pgmPark (tag : Nat) (args : List Tok)
  | pgmDelete (tag : Nat) (args : List Tok)
  | pgmMode (tag : Nat) (args : List Tok)
  | pgmSource (tag : Nat) (args : List Tok)
  | pgmRevert (tag : Nat) (args : List Tok)
  | pgmQuery (tag : Nat) (args : List Tok)
  | dlyVideo (tag : Nat) (args : List Tok)
  | dlyTrim (tag : Nat) (args : List Tok)
  | dlyMotion (tag : Nat) (args : List Tok)
  | dlyQuery (tag : Nat) (args : List Tok)
  | mtrQuery (tag : Nat) (args : List Tok)
  | mtrBinsQuery (tag : Nat) (args : List Tok)
  | mtrReset (tag : Nat) (args : List Tok)
  | presetSet (tag : Nat) (args : List Tok)
  | presetRecall (tag : Nat) (args : List Tok)
  | presetPush (tag : Nat) (args : List Tok)
  | presetPop (tag : Nat) (args : List Tok)
  | presetQuery (tag : Nat) (args : List Tok)
  | presetPgmQuery (tag : Nat) (args : List Tok)
  | prbArm (tag : Nat) (args : List Tok)
  | prbCancel (tag : Nat) (args : List Tok)
  | prbQuery (tag : Nat) (args : List Tok)
  | almSet (tag : Nat) (args : List Tok)
  | almOff (tag : Nat) (args : List Tok)
  | almAck (tag : Nat) (args : List Tok)
  | almForceOn (tag : Nat) (args : List Tok)
  | almForceOff (tag : Nat) (args : List Tok)
  | almQuery (tag : Nat) (args : List Tok)
  | almListQuery (tag : Nat) (args : List Tok)
  | gpiSet (tag : Nat) (args : List Tok)
  | gpiQuery (tag : Nat) (args : List Tok)
  | gpiPop (tag : Nat) (args : List Tok)
  | watchSet (tag : Nat) (args : List Tok)
  | watchQuery (tag : Nat) (args : List Tok)
  | gpoSet (tag : Nat) (args : List Tok)
  | gpoPolarity (tag : Nat) (args : List Tok)
  | gpoHold (tag : Nat) (args : List Tok)
  | gpoQuery (tag : Nat) (args : List Tok)
  | capArm (tag : Nat) (args : List Tok)
  | capTrig (tag : Nat) (args : List Tok)
  | capRead (tag : Nat) (args : List Tok)
  | capRelease (tag : Nat) (args : List Tok)
  | capFree (tag : Nat) (args : List Tok)
  | capQuery (tag : Nat) (args : List Tok)
  | takAdd (tag : Nat) (args : List Tok)
  | takCancel (tag : Nat) (args : List Tok)
  | takQuery (tag : Nat) (args : List Tok)
  | takListQuery (tag : Nat) (args : List Tok)
  | helloQuery (tag : Nat) (args : List Tok)
  | gateClose (tag : Nat) (args : List Tok)
  | gateOpen (tag : Nat) (args : List Tok)
  | save (tag : Nat) (args : List Tok)
  | restartFull (tag : Nat) (args : List Tok)
  | restartProc (tag : Nat) (args : List Tok)
  | badLine (tag : Option Nat)
  | powerLoss
  deriving DecidableEq, Repr

end Sys2Proof
end

