-- ==== Sys2Proof/Config.lean ====
section
/-! DEFINITION. What the part fixes (00_scope.md, "Fixed numbers of the part", and the constants that
single rules name), and the free values: constants without a body, one for each value the spec leaves
open. -/

namespace Sys2Proof.Config

/-- A sub-block, house samples (R3). -/
def subBlock : Nat := 4800
/-- House samples between GPI sample instants (R4). -/
def gpiPeriod : Nat := 48
/-- Words of a page of delay memory (04, opening). -/
def pageWords : Nat := 1024
/-- Pages of the pool (R59). -/
def poolPages : Nat := 2048
/-- The longest delay line length (04 section 4.2). -/
def maxLine : Nat := 384000
/-- The largest total target latency (R64). -/
def maxTarget : Nat := 384120
/-- The largest trim either way (R63). -/
def maxTrim : Nat := 48000
/-- House samples of every fade (00_scope.md, Units). -/
def fadeLen : Nat := 240
/-- House samples between slew steps (R73). -/
def slewPeriod : Nat := 32
/-- The largest difference AUTO slews over (R72). -/
def autoSlewLimit : Nat := 960
/-- Frames of a measurement window (R17). -/
def windowFrames : Nat := 4096
/-- Ticks from a frame edge to the signal expiry (R16). -/
def signalTicks : Nat := 24576
/-- The ratio of a clean 48 kHz feed, and the unity multiplier: 2^20 (00_scope.md, Units). -/
def unity : Nat := 1048576
/-- Input frames at which the converter's depth is centred (02 section 2.5). -/
def centreDepth : Nat := 32
/-- Input frames over which words that repeat are seen to do so, and within which content at a free gain has a part in a word (log
entry 6). -/
def steadySpan : Nat := 512
/-- Samples of a multiplier ramp (R114). -/
def rampLen : Nat := 4800
/-- The counts that stop at 65,535. -/
def count16 : Nat := 65535
/-- The counts that stop at 2^32 − 1 (R91, and the recorded count of 10 section 10.1). -/
def count32 : Nat := 4294967295
/-- Lines at or below which a waiting request is taken (R188). -/
def takeLevel : Nat := 40
/-- Lines the held-notice list can hold (R189). -/
def heldMax : Nat := 16
/-- Characters of the receive line buffer (R186). -/
def rxMax : Nat := 160
/-- Records of the GPI event FIFO (R157). -/
def gpiFifoMax : Nat := 32
/-- Entries of the take queue (R176). -/
def takeMax : Nat := 32
/-- Words of the probe's history ring (R122). -/
def probeRing : Nat := 24000
/-- Words of an envelope window (R123). -/
def envelopeLen : Nat := 48

/-- FREE VALUE. The word that says which of the words beside its value the converter delivers outside the exact case of
R30 ("the reconstructed words are not set out in this manual"), as a function of what the rule forms it from: the nominal
ratio of the class, the tracked ratio, the fraction of the position, and the channel's words on each side of the
position, the nearest first (log entry 6). -/
opaque reconstruct (nominal tracked : Nat) (fraction : Rat) (before after : List Sample) : Sample

/-- FREE VALUE. What the converter makes of the content for which R30 states no gain, from 20 kHz up, but for what it removes, and
at half the frame rate: the weight of that content at the frame `offset` frames after the one at or before the position
(log entry 6). -/
opaque weight (nominal tracked : Nat) (fraction : Rat) (offset : Int) : Rat

/-- FREE VALUE. The words of the frames yet to come, the next first, on a channel whose words received do not repeat: R30 gives
the value of the source channel's signal between its frames, and near half the frame rate of a 32k feed that value depends on
frames which have not arrived (log entry 6). -/
opaque coming (nominal tracked : Nat) (received : List Sample) : List Sample

/-- FREE VALUE. Whether the take of a boundary is applied before the delay lines take that boundary:
R181 gives the outcome of either order and fixes neither. -/
opaque takeBeforeLines : Nat → Bool

/-- FREE VALUE. The CRC-32 of a profile image: "The value of the CRC-32 depends on the layout of the image
in the store, which is not host-visible; it is determined by the snapshot alone" (R192). -/
opaque crc32 {Image : Type} (image : Image) : BitVec 32

end Sys2Proof.Config
end

