-- ==== Sys2Proof/Machine/State.lean ====
section
/-! DEFINITION. The state of the part as plain data, block by block in the order of the chapters, and the state
after reset. A field said to be the model's own is bookkeeping that no rule names; every other field cites
the rule that names it. INVENTORY.md lists them all with their reset values. -/

namespace Sys2Proof.Machine

/-- Why the machine stops. The spec gives the part no stop: a request that cannot be taken is answered with an
error code, which is a next state, so this type has no constructor and no meaning raises a fault. -/
inductive Fault where
  deriving DecidableEq, Repr

/-- Why a command has no meaning. -/
inductive Refusal where
  /-- Raised by `exec` alone, for a row of the table that has no meaning yet. Safe: the model stops where the
  part goes on. No arm raises it at present. -/
  | notModelled (mnemonic : String)
  deriving DecidableEq, Repr

/-! ### Timebase and frame reference (01) -/

/-- The four states of the reference machine (01 section 1.3). -/
inductive RefState where
  | free | acquiring | locked | lost
  deriving DecidableEq, Repr

/-- The eight nominal rates (R5). -/
inductive FrameRate where
  | r23976 | r24 | r25 | r2997 | r30 | r50 | r5994 | r60
  deriving DecidableEq, Repr

/-- The reference machine (01 section 1.3, table). The nominal period is computed from the rate. -/
structure Ref where
  state : RefState
  rate : FrameRate
  tracked : Nat
  lastPulse : Option TickPos
  lastBoundary : TickPos
  count : Nat
  runStart : Option TickPos
  nextGen : Option TickPos
  expiry : Option TickPos
  deriving DecidableEq, Repr

/-! ### Input ports and lanes (02) -/

/-- The five rate classes (02 section 2.2). -/
inductive RateClass where
  | k32 | k441 | k48 | k882 | k96
  deriving DecidableEq, Repr

/-- The five states of a port (02 section 2.3). -/
inductive PortState where
  | noSignal | measuring | locked | relocking | outOfRange
  deriving DecidableEq, Repr

/-- A port's record (02 section 2.1, table), and its stream of input frames (02 section 2.5). -/
structure Port where
  state : PortState
  cls : Option RateClass
  ratio : Option Nat
  windowStart : Option TickPos
  inWindow : Nat
  lastMeas : Option Nat
  /-- the window history, newest first -/
  history : List Nat
  agree : Nat
  relock : Nat
  expiry : Option TickPos
  lockLoss : Nat
  /-- model's own: the last measurement may serve as predecessor (R20) -/
  hasPred : Bool
  /-- model's own: the number of the newest input frame -/
  frameNo : Nat
  /-- model's own: the words of the port's input frames, newest first (02 section 2.5; log entry 8) -/
  recent : List Frame
  deriving DecidableEq, Repr

/-- A source: (port, channel). -/
structure Source where
  port : PortId
  chan : Fin 8
  deriving DecidableEq, Repr

/-- MAIN or BACKUP. -/
inductive SrcSel where
  | main | backup
  deriving DecidableEq, Repr

/-- SILENT, FADING_IN, OPEN (02 section 2.6). -/
inductive LaneFade where
  | silent | fadingIn | opened
  deriving DecidableEq, Repr

/-- A lane's record (02 section 2.6, table). `none` as the main source is NONE. -/
structure Lane where
  main : Option Source
  backup : Option Source
  current : SrcSel
  valid : Bool
  fade : LaneFade
  /-- 0..239; 240 while the end of the fade (LANE_FADE_IN_END) is owed -/
  fadePos : Nat
  /-- the read position, a frame number with a fraction (R31) -/
  readPos : Rat
  slips : Nat
  /-- Lc_lane (R36) -/
  lc : Nat
  /-- model's own: the converter word and the validity of the house sample in progress, once they are
  fixed (log entry 3) -/
  latch : Option (Sample × Bool)
  /-- model's own: the word the output channel carries in the house sample in progress, fixed by a PGM PARK
  taken in it (R42, log entry 3) -/
  outLatch : Option Sample
  deriving DecidableEq, Repr

/-! ### Programmes (03) -/

inductive PgmState where
  | undefined | parked | running
  deriving DecidableEq, Repr

/-- The layouts of R39. -/
inductive Layout where
  | mono | pair | six | eight
  deriving DecidableEq, Repr

/-- The process modes. -/
inductive Mode where
  | full | delay | bypass
  deriving DecidableEq, Repr

/-- The cause of a source change (03 section 3.1). -/
inductive Cause where
  | request | take | alarm (point : PointId) | revert
  deriving DecidableEq, Repr

/-- A change record: two optional parts (03 section 3.1). -/
structure Change where
  source : Option (SrcSel × Cause)
  mode : Option Mode
  deriving DecidableEq, Repr

/-- SILENT, OPEN, WAITING, FADING_DOWN, FADING_UP (03 section 3.1). -/
inductive OutState where
  | silent | opened | waiting | fadingDown | fadingUp
  deriving DecidableEq, Repr

/-- A programme's record in the programme table (03 section 3.1). While the state is UNDEFINED the items marked
"defined only" are absent: they stand at the values of `Ctl.undefined`, and no rule reads them. -/
structure Ctl where
  state : PgmState
  layout : Layout
  lanes : List LaneId
  basePreset : PresetId
  mode : Mode
  active : SrcSel
  /-- the revert policy: `none` is MANUAL, `some hold` is AUTO -/
  revert : Option Nat
  revertCount : Nat
  changeovers : Nat
  lcPgm : Nat
  pads : List Nat
  out : OutState
  /-- 0..239; 240 while the end event of the fade is owed -/
  fadePos : Nat
  /-- model's own: the fade up of PGM RUN starts at the next house sample (R41) -/
  fadeHold : Bool
  /-- model's own: the fade down in progress was begun by a change that found the boundary of its house sample taken
  (R50), not by the boundary; read at fade position 0 only -/
  begunLate : Bool
  inflight : Option Change
  pending : Change
  deriving DecidableEq, Repr

/-! ### Delay memory (04) -/

/-- An entry of the owner map (04 section 4.1). -/
inductive PageOwner where
  | free | line (p : ProgId) (pos : Fin 8) | slot (c : SlotId)
  deriving DecidableEq, Repr

inductive MotionMode where
  | slew | jump | auto
  deriving DecidableEq, Repr

/-- STILL, SLEWING, FADING_DOWN, FADING_UP (04 section 4.5). -/
inductive Motion where
  | still | slewing | fadingDown | fadingUp
  deriving DecidableEq, Repr

/-- A programme's delay record (04 section 4.2). The pages held and the need are computed. -/
structure Delay where
  v : Nat
  o : Int
  t : Nat
  dReq : Nat
  floor : Bool
  motionMode : MotionMode
  dTarget : Nat
  dApp : Nat
  /-- the history H, in words (R67) -/
  hist : Nat
  motion : Motion
  /-- 0..31; 32 while SLEW_STEP is owed -/
  slewCount : Nat
  /-- 0..239; 240 while the end event of the jump fade is owed -/
  jumpPos : Nat
  pendTarget : Option Nat
  short : Bool
  /-- the words of each lane's line, newest first, in layout order (R66) -/
  lines : List (List Sample)
  /-- model's own: the pads in force in the house sample in progress (R76) -/
  padsNow : List Nat
  deriving DecidableEq, Repr

/-! ### Loudness meter (05) -/

/-- The weighting filter state of a lane: the last two inputs of section 1, its last two outputs, which are the
last two inputs of section 2, and the last two outputs of section 2 (R84). -/
structure Filter where
  x1 : Rat
  x2 : Rat
  u1 : Rat
  u2 : Rat
  y1 : Rat
  y2 : Rat
  deriving DecidableEq, Repr

/-- The correlation: absent, 0 marked undefined, or a value (R93). -/
inductive Corr where
  | absent | undefined | value (c : Int)
  deriving DecidableEq, Repr

/-- A programme's meter record (05, opening table). -/
structure Meter where
  filters : List Filter
  energies : List Rat
  /-- Σx0², Σx1², Σx0x1 over the words as integers: the factor 2^46 cancels in R93 -/
  sum00 : Int
  sum11 : Int
  sum01 : Int
  covered : Bool
  laneInvalid : Bool
  bypassSeen : Bool
  /-- the ring of energies, oldest first -/
  ring : List Rat
  lm : Option Int
  ls : Option Int
  bins : Vector Nat 300
  admitted : Nat
  li : Option Int
  corr : Corr
  clip : Nat
  lastReport : Option (Nat × Bool)
  deriving DecidableEq, Repr

/-! ### Gain correction (06) -/

/-- OFF, SHORT, INTEGRATED (R102). -/
inductive GainMode where
  | off | short | integrated
  deriving DecidableEq, Repr

/-- A preset record (R102). -/
structure Preset where
  target : Int
  boost : Int
  cut : Int
  attack : Int
  release : Int
  silence : Int
  mode : GainMode
  deriving DecidableEq, Repr

/-- The hold causes of R110. -/
inductive HoldCause where
  | nothing | absent | silence | freeze | hold | mode
  deriving DecidableEq, Repr

/-- A programme's correction record (06 section 6.3). The stack is bottom first. -/
structure Correction where
  stack : List PresetId
  overflow : Nat
  underflow : Nat
  gStar : Int
  g : Int
  mNew : Nat
  mOld : Nat
  /-- model's own: the target of the ramp in force, which a preset change leaves until the next house
  sample (R108) -/
  rampTo : Nat
  rampPos : Nat
  /-- the multiplier in use at the latest house sample (R114) -/
  multNow : Nat
  /-- model's own: a preset change restarts the ramp at the next house sample (R108) -/
  restart : Bool
  hold : HoldCause
  deriving DecidableEq, Repr

/-- A programme with its four records. -/
structure Pgm where
  ctl : Ctl
  dly : Delay
  mtr : Meter
  cor : Correction
  deriving DecidableEq, Repr

/-- A completed sub-block report (R95, R109). -/
structure Report where
  number : Nat
  valid : Bool
  lm : Option Int
  ls : Option Int
  li : Option Int
  admission : Bool
  corr : Corr
  clip : Nat
  preset : PresetId
  gStar : Int
  g : Int
  mNew : Nat
  hold : HoldCause
  deriving DecidableEq, Repr

/-! ### Offset probe (07) -/

inductive ProbeState where
  | idle | armed | searching | done | noOnset | timeout | cancelled
  deriving DecidableEq, Repr

inductive CancelCause where
  | request | park | source
  deriving DecidableEq, Repr

/-- A record of the onset list (R126). The peak is kept as its word; `left` is the model's own count of windows
of the peak span still to be examined. -/
structure Onset where
  location : Int
  peak : Sample
  left : Nat
  deriving DecidableEq, Repr

/-- The probe record (07 section 7.1). -/
structure Probe where
  state : ProbeState
  pgm : Option ProgId
  marker : Option LineId
  w : Nat
  threshold : Int
  timeout : Nat
  trim : Bool
  armAt : Option HouseCount
  expiry : Option HouseCount
  /-- the history ring, newest first -/
  ring : List Sample
  t : Option HouseCount
  region : Option HouseCount
  windows : Nat
  quiet : Nat
  onsets : List Onset
  seen : Nat
  cancel : Option CancelCause
  /-- model's own: the trim written, for the PROBE notice (R130) -/
  trimWritten : Option Int
  deriving DecidableEq, Repr

/-! ### Alarm points (08) -/

inductive Measure where
  | silent | loud | drift | clip | phase | portlock | pgmlock | short | gainlim | ref | watch
  deriving DecidableEq, Repr

inductive Subject where
  | nothing | pgm (p : ProgId) | port (i : PortId)
  deriving DecidableEq, Repr

inductive Sense where
  | above | below
  deriving DecidableEq, Repr

inductive AlarmAction where
  | nothing | changeover | capture (c : SlotId) | freeze
  deriving DecidableEq, Repr

/-- The configuration fields of a point (08 section 8.1). -/
structure PointCfg where
  enabled : Bool
  measure : Option Measure
  subject : Subject
  sense : Sense
  threshold : Int
  hyst : Int
  stride : Nat
  phase : Nat
  raise : Nat
  clear : Nat
  notify : Bool
  /-- the GPO set, ascending -/
  gpo : List LineId
  action : AlarmAction
  deriving DecidableEq, Repr

inductive PointState where
  | off | clear | raising | active | clearing | forced
  deriving DecidableEq, Repr

/-- A measured value: a number, or a truth. -/
inductive MeasVal where
  | num (n : Int) | truth (b : Bool)
  deriving DecidableEq, Repr

/-- A point: its configuration and its items of state (08 section 8.1). -/
structure Point where
  cfg : PointCfg
  state : PointState
  latched : Bool
  run : Nat
  activations : Nat
  skips : Nat
  clipReading : Option Nat
  lastValue : Option MeasVal
  lastScan : Option (BitVec 32)
  deriving DecidableEq, Repr

/-! ### Contact lines (09) -/

inductive Polarity where
  | low | high
  deriving DecidableEq, Repr

/-- The functions of an input line (R159). Sets of programmes are ascending. -/
inductive GpiFunc where
  | nothing
  | hold (ps : List ProgId)
  | brk (ps : List ProgId) (preset : PresetId)
  | reset (ps : List ProgId)
  | capture (c : SlotId)
  deriving DecidableEq, Repr

structure GpiCfg where
  polarity : Polarity
  debounce : Nat
  func : GpiFunc
  deriving DecidableEq, Repr

/-- An input line (09 section 9.1); `level` is true for ASSERTED. `rewritten` is the model's own mark that a BREAK function of
the line has been rewritten since it was last asserted, so its release makes no pop (R159). -/
structure Gpi where
  cfg : GpiCfg
  level : Bool
  run : Nat
  runStart : Option HouseCount
  rewritten : Bool
  deriving DecidableEq, Repr

/-- An event record of the GPI event FIFO (R157). -/
structure GpiEvent where
  line : LineId
  level : Bool
  stamp : HouseCount
  deriving DecidableEq, Repr

inductive WatchMode where
  | event | matching
  deriving DecidableEq, Repr

/-- The settings of the watcher (09 section 9.4); the mask is the set of lines it ignores. -/
structure WatchCfg where
  mode : WatchMode
  mask : List LineId
  compare : Levels
  deriving DecidableEq, Repr

/-- The watcher. -/
structure Watch where
  cfg : WatchCfg
  equal : Bool
  latched : Bool
  word : Option Levels
  deriving DecidableEq, Repr

structure GpoCfg where
  polarity : Polarity
  manual : Bool
  held : Bool
  deriving DecidableEq, Repr

/-- An output line (09 section 9.5); `pin` is the level its pin drives, true for high. -/
structure Gpo where
  cfg : GpoCfg
  /-- the contributing points, ascending -/
  contrib : List PointId
  pin : Bool
  deriving DecidableEq, Repr

/-! ### Capture slots (10) -/

inductive SlotState where
  | free | armed | post | held
  deriving DecidableEq, Repr

inductive SlotMode where
  | single | repeating
  deriving DecidableEq, Repr

/-- A source of triggers (R169): the mark a trigger carries, and a member of a trigger set. -/
inductive TrigSource where
  | alarm (p : PointId) | watch | gpi (l : LineId) | request
  deriving DecidableEq, Repr

/-- A slot record (10 section 10.1). The pages per lane are computed from the owner map. -/
structure Slot where
  state : SlotState
  pgm : Option ProgId
  lanes : Nat
  pre : Nat
  post : Nat
  mode : SlotMode
  trigs : List TrigSource
  armAt : Option HouseCount
  recorded : Nat
  trigAt : Option HouseCount
  trigSrc : Option TrigSource
  actualPre : Option Nat
  ignored : Nat
  cursors : List Nat
  /-- the words of each lane's ring, newest first -/
  rings : List (List Sample)
  deriving DecidableEq, Repr

/-! ### Take queue (11) -/

/-- The actions of a take entry with their arguments (R180). -/
inductive TakeAction where
  | video (p : ProgId) (v : Int)
  | trim (p : ProgId) (o : Int)
  | recall (p : ProgId) (ps : PresetId)
  | push (p : ProgId) (ps : PresetId)
  | pop (p : ProgId)
  | reset (p : ProgId)
  | source (p : ProgId) (sel : SrcSel)
  | mode (p : ProgId) (m : Mode)
  | gpo (l : LineId) (level : Bool)
  deriving DecidableEq, Repr

structure TakeEntry where
  id : BitVec 16
  named : FrameCount
  due : FrameCount
  late : Bool
  action : TakeAction
  deriving DecidableEq, Repr

/-! ### Control link, profile and start (12) -/

/-- One field of a reply or notice line (R188). -/
inductive Fld where
  | num (n : Int)
  | kw (k : Kw)
  | dash
  /-- a list of numbers joined by commas; the empty list is NONE -/
  | nums (l : List Int)
  | src (port chan : Nat)
  | name (k : NameKind) (n : Nat)
  /-- a capture word, six hexadecimal digits -/
  | hex (w : Sample)
  /-- eight digits 0 or 1, line 0 first -/
  | digits (w : Levels)
  /-- a rate in thousandths of a hertz -/
  | milli (n : Nat)
  /-- a trigger set -/
  | trigs (l : List TrigSource)
  deriving DecidableEq, Repr

/-- The flags of an OK reply (R188); the order CLAMPED, LATE, STILL is that of the constructors. -/
inductive RFlag where
  | clamped | late | still
  deriving DecidableEq, Repr

/-- The error codes of section 12.2. -/
inductive ErrCode where
  | synErr | verb | range | state | full | nosuch | conflict | busy | toolong
  deriving DecidableEq, Repr

inductive Reply where
  | ok (fields : List Fld) (flags : List RFlag)
  | er (code : ErrCode)
  deriving DecidableEq, Repr

/-- The notice kinds of section 12.2. -/
inductive NoticeKind where
  | hello | alm | port | ref | src | pages | take | probe | cap | saved | lost
  deriving DecidableEq, Repr

/-- A line the part sends: a reply with its tag (`none` is the tag "-"), or a notice (R188). -/
inductive Line where
  | reply (tag : Option Nat) (r : Reply)
  | notice (kind : NoticeKind) (fields : List Fld)
  deriving DecidableEq, Repr

/-- The receiver of the link (R186): the receive line buffer, oldest character first, the bad mark of its line, and
whether the line is too long, so that characters are discarded up to its line feed; and whether the line in progress
began before the HELLO notice, so that the rest of it is discarded with no answer (R194). -/
structure Receiver where
  chars : List Char
  bad : Bool
  tooLong : Bool
  skip : Bool
  deriving DecidableEq, Repr

/-- The control link (12 sections 12.1 to 12.3). -/
structure Link where
  rx : Receiver
  fifo : List Line
  held : List Line
  lost : Nat
  gateOpen : Bool
  badLines : Nat
  /-- the lines received that wait for room in the FIFO (R188), as the commands that carry them -/
  waiting : List Instr
  /-- the lines that left on TXD at the latest sending step -/
  txd : List Line
  /-- the link runs at 460,800 baud, not 115,200 (R186) -/
  fast : Bool
  /-- ATN is asserted high (R189) -/
  atnHigh : Bool
  deriving DecidableEq, Repr

/-- A programme as the profile stores it (R192). -/
structure PgmImage where
  layout : Layout
  lanes : List LaneId
  basePreset : PresetId
  running : Bool
  mode : Mode
  revert : Option Nat
  v : Nat
  o : Int
  motionMode : MotionMode
  deriving DecidableEq, Repr

/-- The configuration a profile image holds (R192). -/
structure Image where
  rate : FrameRate
  lanes : Vector (Option Source × Option Source) 24
  pgms : Vector (Option PgmImage) 8
  presets : Vector Preset 16
  points : Vector PointCfg 48
  gpis : Vector GpiCfg 8
  watch : WatchCfg
  gpos : Vector GpoCfg 8
  deriving DecidableEq, Repr

/-- The profile store: never written, an image with the CRC-32 that agrees with it, or an image whose CRC-32
does not agree, whose contents no rule reads (R192). -/
inductive Store where
  | never | image (img : Image) (crc : BitVec 32) | broken
  deriving DecidableEq, Repr

inductive ProfileStatus where
  | valid | invalid | none
  deriving DecidableEq, Repr

/-- The causes of a start (12 section 12.6). -/
inductive StartCause where
  | power | pin | full | proc
  deriving DecidableEq, Repr

/-- The profile store, its status and the save in progress (R192, R193). -/
structure Profile where
  store : Store
  status : ProfileStatus
  /-- `some snapshot` while SAVING -/
  saving : Option Image
  lastSave : Option Bool
  deriving DecidableEq, Repr

/-- The pins: the straps, the raw contact levels as last sampled, and the words on the output channels. -/
structure Pins where
  baudsel : Bool
  atnpol : Bool
  gpi : Levels
  out : Vector Sample 24
  deriving DecidableEq, Repr

/-- The state of the part. -/
structure State where
  /-- the supply is present -/
  powered : Bool
  cause : StartCause
  hc : HouseCount
  phase : BitVec 8
  fc : FrameCount
  /-- model's own: HC has become a multiple of 4,800 and the close has not been taken (R3) -/
  closeDue : Bool
  /-- model's own: HC has become a multiple of 48 and the sample instant has not been taken (R4) -/
  gpiDue : Bool
  /-- model's own: the controller has taken a frame boundary at this house sample (R50) -/
  boundaryHere : Bool
  ref : Ref
  ports : Vector Port 6
  lanes : Vector Lane 24
  pgms : Vector Pgm 8
  /-- the owner map of the page pool, 2,048 entries (R59) -/
  owners : List PageOwner
  presets : Vector Preset 16
  probe : Probe
  /-- the completed reports that wait for the scan (R95) -/
  reports : Vector (Option Report) 8
  /-- model's own: a scan is due -/
  scanDue : Bool
  scanNo : BitVec 32
  points : Vector Point 48
  gpis : Vector Gpi 8
  /-- model's own: the next instant sets the levels without delivering changes (R165) -/
  gpiFirst : Bool
  gpiFifo : List GpiEvent
  gpiOverflow : Bool
  watch : Watch
  gpos : Vector Gpo 8
  slots : Vector Slot 2
  takes : List TakeEntry
  nextId : BitVec 16
  link : Link
  profile : Profile
  pins : Pins
  /-- model's own: the number of the next free order of take and lines (log entry 10) -/
  freeSeed : Nat
  /-- model's own: the commands that wait, first in, first out -/
  pending : List Instr
  deriving DecidableEq, Repr

/-! ### Reset values -/

/-- R15, for the rate a start finds. The nominal period is given, since it is computed elsewhere from the rate. -/
def Ref.start (rate : FrameRate) (period : Nat) : Ref :=
  { state := .free, rate := rate, tracked := period, lastPulse := none, lastBoundary := 0, count := 0,
    runStart := none, nextGen := some (BitVec.ofNat 56 period), expiry := none }

/-- R29. -/
def Port.reset : Port :=
  { state := .noSignal, cls := none, ratio := none, windowStart := none, inWindow := 0, lastMeas := none,
    history := [], agree := 0, relock := 0, expiry := none, lockLoss := 0, hasPred := false,
    frameNo := 0, recent := [] }

/-- R38, for the sources a start finds. -/
def Lane.start (main backup : Option Source) : Lane :=
  { main := main, backup := backup, current := .main, valid := false, fade := .silent, fadePos := 0,
    readPos := 0, slips := 0, lc := 96, latch := none, outLatch := none }

def Change.empty : Change := { source := none, mode := none }

/-- The record of an UNDEFINED programme (R58). -/
def Ctl.undefined : Ctl :=
  { state := .undefined, layout := .mono, lanes := [], basePreset := 0, mode := .full, active := .main,
    revert := none, revertCount := 0, changeovers := 0, lcPgm := 96, pads := [], out := .silent,
    fadePos := 0, fadeHold := false, begunLate := false, inflight := none, pending := Change.empty }

/-- The delay record of an UNDEFINED programme: every item absent (R78). -/
def Delay.undefined : Delay :=
  { v := 0, o := 0, t := 0, dReq := 0, floor := false, motionMode := .auto, dTarget := 0, dApp := 0,
    hist := 0, motion := .still, slewCount := 0, jumpPos := 0, pendTarget := none, short := false,
    lines := [], padsNow := [] }

def Filter.zero : Filter := { x1 := 0, x2 := 0, u1 := 0, u2 := 0, y1 := 0, y2 := 0 }

/-- The meter record of R98, for a programme of `k` lanes. DESIGN CHOICE (log entry 75): the lane-invalid-seen and bypass-seen
flags, to which R98 gives no value, are no. -/
def Meter.start (k : Nat) : Meter :=
  { filters := List.replicate k Filter.zero, energies := List.replicate k 0, sum00 := 0, sum11 := 0,
    sum01 := 0, covered := false, laneInvalid := false, bypassSeen := false, ring := [], lm := none,
    ls := none, bins := Vector.replicate 300 0, admitted := 0, li := none, corr := .absent, clip := 0,
    lastReport := none }

/-- The factory preset (R102). -/
def Preset.factory : Preset :=
  { target := -2300, boost := 600, cut := 1200, attack := 300, release := 100, silence := -4500,
    mode := .off }

/-- The gain values of R118, with a stack. -/
def Correction.start (stack : List PresetId) : Correction :=
  { stack := stack, overflow := 0, underflow := 0, gStar := 0, g := 0, mNew := 1048576, mOld := 1048576,
    rampTo := 1048576, rampPos := 4800, multNow := 1048576, restart := false, hold := .nothing }

def Pgm.undefined : Pgm :=
  { ctl := Ctl.undefined, dly := Delay.undefined, mtr := Meter.start 0, cor := Correction.start [] }

/-- R120. DESIGN CHOICE (log entry 37): W, the threshold, the timeout and the trim option, to which R120 gives no value, are the
least of each range and no trim. -/
def Probe.reset : Probe :=
  { state := .idle, pgm := none, marker := none, w := 480, threshold := -6000, timeout := 1, trim := false,
    armAt := none, expiry := none, ring := [], t := none, region := none, windows := 0, quiet := 0,
    onsets := [], seen := 0, cancel := none, trimWritten := none }

/-- The factory record of a point (08 section 8.1). -/
def PointCfg.factory : PointCfg :=
  { enabled := false, measure := none, subject := .nothing, sense := .below, threshold := 0, hyst := 0,
    stride := 1, phase := 0, raise := 1, clear := 1, notify := false, gpo := [], action := .nothing }

/-- R153, for the configuration a start finds. -/
def Point.start (cfg : PointCfg) : Point :=
  { cfg := cfg, state := if cfg.enabled then .clear else .off, latched := false, run := 0, activations := 0,
    skips := 0, clipReading := some 0, lastValue := none, lastScan := none }

/-- R165: the factory settings of an input line. -/
def GpiCfg.factory : GpiCfg := { polarity := .low, debounce := 4, func := .nothing }

/-- An input line before its first instant; DESIGN CHOICE: RELEASED (log entry 13). -/
def Gpi.start (cfg : GpiCfg) : Gpi :=
  { cfg := cfg, level := false, run := 0, runStart := none, rewritten := false }

/-- R165: the factory settings of the watcher. -/
def WatchCfg.factory : WatchCfg := { mode := .event, mask := allLines, compare := 0 }

/-- R165: the factory settings of an output line. -/
def GpoCfg.factory : GpoCfg := { polarity := .high, manual := false, held := false }

/-- R163: the level a pin drives for a computed level, through a polarity. -/
def drive (pol : Polarity) (level : Bool) : Bool :=
  match pol with
  | .high => level
  | .low => !level

/-- R165: an output line with no contributing point drives its manual level. -/
def Gpo.start (cfg : GpoCfg) : Gpo := { cfg := cfg, contrib := [], pin := drive cfg.polarity cfg.manual }

/-- R166. DESIGN CHOICE (log entry 37): the lanes, pre, post, mode and trigger set, to which R166 gives no value, are 0, SINGLE and
the empty set. -/
def Slot.reset : Slot :=
  { state := .free, pgm := none, lanes := 0, pre := 0, post := 0, mode := .single, trigs := [],
    armAt := none, recorded := 0, trigAt := none, trigSrc := none, actualPre := none, ignored := 0,
    cursors := [], rings := [] }

/-- R186: an empty receive line buffer. -/
def Receiver.empty : Receiver := { chars := [], bad := false, tooLong := false, skip := false }

/-- R194: the receiver of a part that starts: of a line begun before, the rest is to be discarded. -/
def Receiver.restarted (r : Receiver) : Receiver :=
  { Receiver.empty with skip := r.skip || r.tooLong || !r.chars.isEmpty }

/-- R186, R188, R190, for the straps a start finds. -/
def Link.start (baudsel atnpol : Bool) : Link :=
  { rx := Receiver.empty, fifo := [], held := [], lost := 0, gateOpen := true, badLines := 0, waiting := [], txd := [],
    fast := baudsel, atnHigh := atnpol }

/-- R161, R165: equal when every unmasked line's level is that of the compare word. -/
def WatchCfg.agrees (c : WatchCfg) (levels : Levels) : Bool :=
  allLines.all fun l => decide (l ∈ c.mask) || levels.getLsbD l == c.compare.getLsbD l

/-- The machine right after a hardware reset with a store that was never written: every block at the values its
chapter gives, before the HELLO notice of R194 is produced (log entry 11). -/
def State.reset : State :=
  { powered := true, cause := .power, hc := 0, phase := 0, fc := 0, closeDue := false, gpiDue := true,
    boundaryHere := false, ref := Ref.start .r25 491520, ports := Vector.replicate 6 Port.reset,
    lanes := Vector.replicate 24 (Lane.start none none), pgms := Vector.replicate 8 Pgm.undefined,
    owners := List.replicate 2048 .free, presets := Vector.replicate 16 Preset.factory,
    probe := Probe.reset, reports := Vector.replicate 8 none, scanDue := false, scanNo := 0,
    points := Vector.replicate 48 (Point.start PointCfg.factory),
    gpis := Vector.replicate 8 (Gpi.start GpiCfg.factory), gpiFirst := true, gpiFifo := [],
    gpiOverflow := false,
    watch := { cfg := WatchCfg.factory, equal := WatchCfg.factory.agrees 0, latched := false, word := none },
    gpos := Vector.replicate 8 (Gpo.start GpoCfg.factory), slots := Vector.replicate 2 Slot.reset,
    takes := [], nextId := 0, link := Link.start false false,
    profile := { store := .never, status := .none, saving := none, lastSave := none },
    pins := { baudsel := false, atnpol := false, gpi := 255, out := Vector.replicate 24 0 },
    freeSeed := 0, pending := [] }

end Sys2Proof.Machine
end

