-- ==== Sys2Proof/Machine/Arith.lean ====
section
/-! DEFINITION. The arithmetic of the rules, exact: searches instead of logarithms, so that every rounded figure is
the one exact arithmetic gives (R84, R90, R92, R113, R125). A comparison with a power of ten is made on
integers, by raising both sides to the power that clears the fraction of the exponent. -/

namespace Sys2Proof.Machine

/-! ### Small helpers -/

/-- The quotient rounded up, for sizes in pages (R68). -/
def ceilDiv (a b : Nat) : Nat := (a + b - 1) / b

/-- A value clamped into a range. -/
def clampInt (lo hi x : Int) : Int := max lo (min x hi)

/-- A count that goes up by one and stops at `top`. -/
def countUp (top n : Nat) : Nat := min top (n + 1)

/-- The largest number `lo + k` with `k < 2 ^ bits` that meets `p`, for a `p` that holds at `lo` and fails from some
number on: one bit of the offset at a time, the highest first. -/
def findMax (p : Nat → Bool) (lo : Nat) : Nat → Nat
  | 0 => lo
  | bits + 1 => if p (lo + 2 ^ bits) then findMax p (lo + 2 ^ bits) bits else findMax p lo bits

/-- A sample word from an integer that lies in its range. -/
def sampleOf (x : Int) : Sample := BitVec.ofInt 24 x

/-- The magnitude of a sample word. -/
def magnitude (w : Sample) : Nat := w.toInt.natAbs

/-! ### Fades (R35, R44, R74, R75) -/

/-- A word at position `j` of a fade up: multiplied by (j + 1) / 240 and truncated toward zero. -/
def fadeUpWord (j : Nat) (w : Sample) : Sample :=
  sampleOf (Int.tdiv (w.toInt * (min j 239 + 1 : Nat)) 240)

/-- A word at position `j` of a fade down: multiplied by (239 − j) / 240 and truncated toward zero. -/
def fadeDownWord (j : Nat) (w : Sample) : Sample :=
  sampleOf (Int.tdiv (w.toInt * (239 - min j 239 : Nat)) 240)

/-! ### The gain stage (R115) -/

/-- The word times the multiplier, divided by 2^20 and rounded with exact halves toward +∞. -/
def gainProduct (m : Nat) (w : Sample) : Int := (w.toInt * m + 524288) / 1048576

/-- The saturated word, and whether it was saturated. -/
def gainWord (m : Nat) (w : Sample) : Sample × Bool :=
  let x := gainProduct m w
  if x > 8388607 then (sampleOf 8388607, true)
  else if x < -8388608 then (sampleOf (-8388608), true)
  else (sampleOf x, false)

/-- R114: the multiplier in use at ramp position `j`. -/
def rampMultiplier (mOld mNew j : Nat) : Nat :=
  if j < Config.rampLen then
    ((mOld : Int) + Int.tdiv (((mNew : Int) - mOld) * (j + 1 : Nat)) 4800).toNat
  else mNew

/-- `10 ^ g ≤ …` comparisons need both signs of the exponent: `a * 10^g ≤ b`. -/
def mulPowTenLe (a : Nat) (g : Int) (b : Nat) : Bool :=
  match g with
  | .ofNat n => decide (a * 10 ^ n ≤ b)
  | .negSucc n => decide (a ≤ b * 10 ^ (n + 1))

/-- R113: the multiplier of a gain, 10^(g/2000) × 2^20 rounded to the nearest integer with halves up: the largest
`m` with m − 1/2 at most that value. -/
def multiplierOf (g : Int) : Nat :=
  findMax (fun m => mulPowTenLe ((2 * m - 1) ^ 2000) (-g) (2 ^ 42000)) 0 (22 + g.toNat / 500)

/-! ### Reference and port arithmetic (R5, R18, R19) -/

/-- R5: the nominal period, ticks. -/
def FrameRate.period : FrameRate → Nat
  | .r23976 => 512512
  | .r24 => 512000
  | .r25 => 491520
  | .r2997 => 410010
  | .r30 => 409600
  | .r50 => 245760
  | .r5994 => 205005
  | .r60 => 204800

/-- The rate in thousandths of a hertz, as requests and replies write it. -/
def FrameRate.milli : FrameRate → Nat
  | .r23976 => 23976
  | .r24 => 24000
  | .r25 => 25000
  | .r2997 => 29970
  | .r30 => 30000
  | .r50 => 50000
  | .r5994 => 59940
  | .r60 => 60000

def allRates : List FrameRate := [.r23976, .r24, .r25, .r2997, .r30, .r50, .r5994, .r60]

/-- R5: 1.5 periods, floored. -/
def missingInterval (period : Nat) : Nat := 3 * period / 2

/-- The distance of two naturals. -/
def absDiff (a b : Nat) : Nat := (a - b) + (b - a)

/-- R5: a measured period within 0.1 % of a reference period. -/
def withinTolerance (p ref : Nat) : Bool := decide (absDiff p ref * 1000 ≤ ref)

/-- `x` moved toward `y` by an eighth of the difference, truncated toward zero (R10, R23). -/
def eighthStep (x y : Nat) : Nat := ((x : Int) + Int.tdiv ((y : Int) - x) 8).toNat

/-- The nominal ratio of a class (02 section 2.2). -/
def RateClass.ratio : RateClass → Nat
  | .k32 => 1572864
  | .k441 => 1141307
  | .k48 => 1048576
  | .k882 => 570654
  | .k96 => 524288

/-- The converter latency Lc of a class (02 section 2.2). -/
def RateClass.latency : RateClass → Nat
  | .k32 => 120
  | .k441 => 104
  | .k48 => 96
  | .k882 => 80
  | .k96 => 72

def allClasses : List RateClass := [.k32, .k441, .k48, .k882, .k96]

/-- R18: the deviation of a ratio from a class, ppm truncated. -/
def deviation (r : Nat) (c : RateClass) : Nat := absDiff r c.ratio * 1000000 / c.ratio

/-- R18: in range for some class. -/
def inRange (r : Nat) : Bool := allClasses.any fun c => decide (deviation r c ≤ 1000)

/-- R18: the class of the smallest deviation. -/
def nearestClass (r : Nat) : RateClass :=
  allClasses.foldl (fun best c => if deviation r c < deviation r best then c else best) .k32

/-- R19: a window agrees with the window before it. -/
def windowsAgree (rm prev : Nat) : Bool := decide (absDiff rm prev * 50000 ≤ prev)

/-- R19: a window departs from the tracked ratio. -/
def departs (rm rt : Nat) : Bool := decide (rt < absDiff rm rt * 5000)

/-! ### Levels (R90) -/

/-- The level of the energy num/den reaches n when rounded: 100·(−0.691 + 10·log10 E) ≥ n − 1/2, which is
E^5000 ≥ 10^(5n + 343). No rational energy meets this with equality, so halves need no rule here. -/
def levelReaches (num den : Nat) (n : Int) : Bool :=
  mulPowTenLe (den ^ 5000) (5 * n + 343) (num ^ 5000)

/-- R90: the level of an energy, centi-dB, −12000 for 0 and for every level below −120.00 dB. -/
def levelOf (e : Rat) : Int :=
  if e ≤ 0 then -12000
  else
    let num := e.num.toNat
    (findMax (fun m => levelReaches num e.den ((m : Int) - 12000)) 0
      (Nat.log2 (302 * (Nat.log2 num + 1) + 12000) + 1) : Int) - 12000

/-! ### The histogram and the integrated level (R91, R92) -/

/-- R91: the bin of an admitted level. -/
def binOf (lm : Int) : Nat := min 299 ((lm + 7000) / 25).toNat

/-- R92 in exact arithmetic. With q = 10^(1/40) the energy of bin i is e_0·q^i, so a weighted sum over bins is e_0
times Σ c_k q^k over k < 40, with integer c_k: bin i contributes n_i·10^(i/40) to c_(i mod 40). -/
def binSum (bins : List (Nat × Nat)) : List Nat :=
  (List.range 40).map fun k =>
    (bins.filter fun b => b.1 % 40 == k).foldl (fun acc b => acc + b.2 * 10 ^ (b.1 / 40)) 0

/-- floor of 10^(k/40) × 2^prec. -/
def rootFloor (prec k : Nat) : Nat :=
  findMax (fun x => decide (x ^ 40 ≤ 10 ^ k * 2 ^ (40 * prec))) 0 (prec + 4)

/-- Bounds below and above on Σ c_k q^k × 2^prec. -/
def binBounds (prec : Nat) (c : List Nat) : Nat × Nat :=
  (c.zipIdx).foldl
    (fun b ck => if ck.1 = 0 then b
      else (b.1 + ck.1 * rootFloor prec ck.2, b.2 + ck.1 * (rootFloor prec ck.2 + 1))) (0, 0)

/-- The single term of a sum that has one: (k, c_k). -/
def soleTerm (c : List Nat) : Option (Nat × Nat) :=
  match (c.zipIdx).filter fun ck => ck.1 ≠ 0 with
  | [ck] => some (ck.2, ck.1)
  | _ => none

/-- The precisions tried in turn. A sum that is no single term is never equal to a power of q or of 10^(1/1000), and
the last precision lies beyond the separation of any two unequal ones for counts below 2^32 (log
entry 28). -/
def precisions : List Nat := [64, 256, 1024, 4096, 16384, 65536, 262144]

/-- R92, the gate: the centre of bin i is at the unrounded level of A/n less 1000 centi-dB or above, that is
10·n·q^i ≥ A, for A = Σ c_k q^k. -/
def passesGate (c : List Nat) (n i : Nat) : Bool :=
  let l := 10 * n * 10 ^ (i / 40)
  let k := i % 40
  if soleTerm c = some (k, l) then true
  else
    (precisions.findSome? fun prec =>
      let b := binBounds prec c
      if b.2 ≤ l * rootFloor prec k then some true
      else if l * (rootFloor prec k + 1) ≤ b.1 then some false
      else none).getD false

/-- (A/n)^1000 against 10^m, for A = Σ c_k q^k: at least it, or above it when `strict`. -/
def ratioReaches (c : List Nat) (n m : Nat) (strict : Bool) : Bool :=
  match soleTerm c with
  | some (k, ck) =>
    let a := ck ^ 1000 * 10 ^ (25 * k)
    let b := 10 ^ m * n ^ 1000
    decide (b < a) || (!strict && decide (a = b))
  | none =>
    (precisions.findSome? fun prec =>
      let x := binBounds prec c
      let b := 10 ^ m * n ^ 1000 * 2 ^ (1000 * prec)
      if b ≤ x.1 ^ 1000 then some true
      else if x.2 ^ 1000 ≤ b then some false
      else none).getD false

/-- R90 applied to e_0·A/n, with halves away from zero. The level reaches N when (A/n)^1000 reaches 10^(N + 6987), since
the level of e_0 is −6987.5 centi-dB; below 0 the half itself rounds away, so the comparison is strict there. -/
def binLevel (c : List Nat) (n : Nat) : Int :=
  (findMax (fun j => ratioReaches c n (j - 1) (decide (j ≤ 6988))) 0 13 : Int) - 6988

/-- R92: the integrated level of a histogram, absent when every count is 0. -/
def integratedLevel (bins : List Nat) : Option Int :=
  let occupied := ((bins.zipIdx).filter fun b => b.1 ≠ 0).map fun b => (b.2, b.1)
  let total := fun (l : List (Nat × Nat)) => l.foldl (fun acc b => acc + b.2) 0
  if occupied = [] then none
  else
    let c := binSum occupied
    let n := total occupied
    let gated := occupied.filter fun b => passesGate c n b.1
    some (binLevel (binSum gated) (total gated))

/-! ### Correlation (R93) -/

/-- R93 for a valid sub-block: Σx0x1 / √(Σx0²·Σx1²) × 100, truncated toward zero. -/
def correlation (s00 s11 s01 : Int) : Corr :=
  if s00 = 0 ∨ s11 = 0 then .undefined
  else
    let c := findMax (fun c => decide (c ^ 2 * (s00.natAbs * s11.natAbs) ≤ 10000 * s01.natAbs ^ 2)) 0 7
    .value (if s01 < 0 then -(c : Int) else c)

/-! ### The weighting filter (R84, R85) -/

/-- A section's output from its present and two previous inputs and its two previous outputs. -/
def biquad (b0 b1 b2 a1 a2 x x1 x2 y1 y2 : Rat) : Rat := b0 * x + b1 * x1 + b2 * x2 - a1 * y1 - a2 * y2

/-- The two sections of R84 on one value: the new filter state and the weighted value y. -/
def Filter.run (f : Filter) (x : Rat) : Filter × Rat :=
  let u := biquad (153512485958697 / 100000000000000) (-269169618940638 / 100000000000000)
    (119839281085285 / 100000000000000) (-169065929318241 / 100000000000000)
    (73248077421585 / 100000000000000) x f.x1 f.x2 f.u1 f.u2
  let y := biquad 1 (-2) 1 (-199004745483398 / 100000000000000) (99007225036621 / 100000000000000)
    u f.u1 f.u2 f.y1 f.y2
  ({ x1 := x, x2 := f.x1, u1 := u, u2 := f.u1, y1 := y, y2 := f.y1 }, y)

/-- R83: a word as a real value. -/
def realOf (w : Sample) : Rat := (w.toInt : Rat) / 8388608

/-- R85: the weight of a position of a layout. -/
def channelWeight (l : Layout) (pos : Nat) : Rat :=
  match l with
  | .mono | .pair => 1
  | .six | .eight => if pos ≤ 2 then 1 else if pos = 3 then 0 else 141 / 100

/-! ### The probe's envelope (R121, R125, R126) -/

/-- R125: the mean square of 48 words, given the sum of their squares, is at or above A², where A is
2^23 × 10^(threshold/2000). -/
def isLoud (sumSquares : Nat) (threshold : Int) : Bool :=
  mulPowTenLe (48 ^ 1000 * 2 ^ 46000) threshold (sumSquares ^ 1000)

/-- R126: a word's magnitude is at or above A. -/
def reachesThreshold (w : Sample) (threshold : Int) : Bool :=
  mulPowTenLe (2 ^ 46000) threshold (magnitude w ^ 2000)

/-- R126: 20·log10(|word| / 2^23) in centi-dBFS, rounded to the nearest (no word's level is an exact half). -/
def peakLevel (w : Sample) : Int :=
  (findMax (fun j => mulPowTenLe (2 ^ 92000) (2 * ((j : Int) - 16384) - 1) (magnitude w ^ 4000)) 0 15 : Int)
    - 16384

end Sys2Proof.Machine
end

