-- ==== Sys2Proof/Machine/Ops.lean ====
section
/-! DEFINITION. The named operations every block uses: updates of one record, positions in time, notices and replies
(R188, R189), and the taking of a line of the link (R186 to R188). -/

namespace Sys2Proof.Machine

/-! ### Updates of one record -/

def State.updPort (s : State) (i : PortId) (f : Port → Port) : State :=
  { s with ports := s.ports.set i (f s.ports[i]) }

def State.updLane (s : State) (k : LaneId) (f : Lane → Lane) : State :=
  { s with lanes := s.lanes.set k (f s.lanes[k]) }

def State.updPgm (s : State) (p : ProgId) (f : Pgm → Pgm) : State :=
  { s with pgms := s.pgms.set p (f s.pgms[p]) }

def State.updCtl (s : State) (p : ProgId) (f : Ctl → Ctl) : State :=
  s.updPgm p fun g => { g with ctl := f g.ctl }

def State.updDly (s : State) (p : ProgId) (f : Delay → Delay) : State :=
  s.updPgm p fun g => { g with dly := f g.dly }

def State.updMtr (s : State) (p : ProgId) (f : Meter → Meter) : State :=
  s.updPgm p fun g => { g with mtr := f g.mtr }

def State.updCor (s : State) (p : ProgId) (f : Correction → Correction) : State :=
  s.updPgm p fun g => { g with cor := f g.cor }

def State.updPreset (s : State) (n : PresetId) (f : Preset → Preset) : State :=
  { s with presets := s.presets.set n (f s.presets[n]) }

def State.updPoint (s : State) (n : PointId) (f : Point → Point) : State :=
  { s with points := s.points.set n (f s.points[n]) }

def State.updGpi (s : State) (l : LineId) (f : Gpi → Gpi) : State :=
  { s with gpis := s.gpis.set l (f s.gpis[l]) }

def State.updGpo (s : State) (l : LineId) (f : Gpo → Gpo) : State :=
  { s with gpos := s.gpos.set l (f s.gpos[l]) }

def State.updSlot (s : State) (c : SlotId) (f : Slot → Slot) : State :=
  { s with slots := s.slots.set c (f s.slots[c]) }

def State.setReport (s : State) (p : ProgId) (r : Option Report) : State :=
  { s with reports := s.reports.set p r }

def State.updRef (s : State) (f : Ref → Ref) : State := { s with ref := f s.ref }

def State.updProbe (s : State) (f : Probe → Probe) : State := { s with probe := f s.probe }

def State.updLink (s : State) (f : Link → Link) : State := { s with link := f s.link }

def State.updProfile (s : State) (f : Profile → Profile) : State := { s with profile := f s.profile }

def State.updWatch (s : State) (f : Watch → Watch) : State := { s with watch := f s.watch }

def State.updPins (s : State) (f : Pins → Pins) : State := { s with pins := f s.pins }

def State.setOwners (s : State) (o : List PageOwner) : State := { s with owners := o }

def State.setTakes (s : State) (t : List TakeEntry) : State := { s with takes := t }

/-! ### Positions in time (R1) -/

/-- R1: HC × 256 plus the tick phase. -/
def tickAt (hc : HouseCount) (phase : BitVec 8) : TickPos := hc ++ phase

/-- The present tick position. -/
def State.now (s : State) : TickPos := tickAt s.hc s.phase

/-- The last tick of the present house sample. -/
def State.sampleEnd (s : State) : TickPos := tickAt s.hc 255

/-- R1: the ticks from `a` to `b`, modulo 2^56. -/
def ticksFrom (a b : TickPos) : Nat := (b - a).toNat

/-- `b` is at `a` or after it, taking the nearer way round the wrap. -/
def notBefore (a b : TickPos) : Bool := decide (ticksFrom a b < 2 ^ 55)

/-- A position `n` ticks after `a`. -/
def later (a : TickPos) (n : Nat) : TickPos := a + BitVec.ofNat 56 n

/-- House samples from `a` to `b`, modulo 2^48. -/
def samplesFrom (a b : HouseCount) : Nat := (b - a).toNat

/-- `b` is at `a` or after it, taking the nearer way round the wrap. -/
def hcNotBefore (a b : HouseCount) : Bool := decide (samplesFrom a b < 2 ^ 47)

/-- A house sample `n` after `a`. -/
def hcLater (a : HouseCount) (n : Nat) : HouseCount := a + BitVec.ofNat 48 n

/-- An instant due in this house sample or owed from an earlier one. -/
def State.reached (s : State) (x : TickPos) : Bool := notBefore x s.sampleEnd

/-! ### Fields of lines (R188) -/

def optFld (f : α → Fld) : Option α → Fld
  | some x => f x
  | none => .dash

def natFld (n : Nat) : Fld := .num n
def optNat (o : Option Nat) : Fld := optFld natFld o
def optInt (o : Option Int) : Fld := optFld .num o
def finFld {n : Nat} (i : Fin n) : Fld := .num i.val
def finsFld {n : Nat} (l : List (Fin n)) : Fld := .nums (l.map fun i => (i.val : Int))
def bvFld {n : Nat} (b : BitVec n) : Fld := .num b.toNat
def optBv {n : Nat} (o : Option (BitVec n)) : Fld := optFld bvFld o
def boolFld (yes no : Kw) (b : Bool) : Fld := .kw (if b then yes else no)

def RefState.kw : RefState → Kw
  | .free => .FREE | .acquiring => .ACQUIRING | .locked => .LOCKED | .lost => .LOST

def PortState.kw : PortState → Kw
  | .noSignal => .NO_SIGNAL | .measuring => .MEASURING | .locked => .LOCKED | .relocking => .RELOCKING
  | .outOfRange => .OUT_OF_RANGE

def RateClass.kw : RateClass → Kw
  | .k32 => .K32 | .k441 => .K441 | .k48 => .K48 | .k882 => .K882 | .k96 => .K96

def SrcSel.kw : SrcSel → Kw
  | .main => .MAIN | .backup => .BACKUP

def LaneFade.kw : LaneFade → Kw
  | .silent => .SILENT | .fadingIn => .FADING_IN | .opened => .OPEN

def PgmState.kw : PgmState → Kw
  | .undefined => .UNDEFINED | .parked => .PARKED | .running => .RUNNING

def Layout.kw : Layout → Kw
  | .mono => .MONO | .pair => .PAIR | .six => .SIX | .eight => .EIGHT

/-- R39: the lane count of a layout. -/
def Layout.count : Layout → Nat
  | .mono => 1 | .pair => 2 | .six => 6 | .eight => 8

def Mode.kw : Mode → Kw
  | .full => .FULL | .delay => .DELAY | .bypass => .BYPASS

def OutState.kw : OutState → Kw
  | .silent => .SILENT | .opened => .OPEN | .waiting => .WAITING | .fadingDown => .FADING_DOWN
  | .fadingUp => .FADING_UP

def MotionMode.kw : MotionMode → Kw
  | .slew => .SLEW | .jump => .JUMP | .auto => .AUTO

def Motion.kw : Motion → Kw
  | .still => .STILL | .slewing => .SLEWING | .fadingDown => .FADING_DOWN | .fadingUp => .FADING_UP

def GainMode.kw : GainMode → Kw
  | .off => .OFF | .short => .SHORT | .integrated => .INTEGRATED

def HoldCause.kw : HoldCause → Kw
  | .nothing => .NONE | .absent => .ABSENT | .silence => .SILENCE | .freeze => .FREEZE | .hold => .HOLD
  | .mode => .MODE

def ProbeState.kw : ProbeState → Kw
  | .idle => .IDLE | .armed => .ARMED | .searching => .SEARCHING | .done => .DONE | .noOnset => .NO_ONSET
  | .timeout => .TIMEOUT | .cancelled => .CANCELLED

def CancelCause.kw : CancelCause → Kw
  | .request => .REQUEST | .park => .PARK | .source => .SOURCE

def Measure.kw : Measure → Kw
  | .silent => .SILENT | .loud => .LOUD | .drift => .DRIFT | .clip => .CLIP | .phase => .PHASE
  | .portlock => .PORTLOCK | .pgmlock => .PGMLOCK | .short => .SHORT | .gainlim => .GAINLIM | .ref => .REF
  | .watch => .WATCH

/-- A subject as ALM? and the ALM notices write it. DESIGN CHOICE (log entries 81 and 82): with its letters, and NONE for none. -/
def Subject.fld : Subject → Fld
  | .nothing => .kw .NONE
  | .pgm p => .name .P p.val
  | .port i => .name .IN i.val

def Sense.kw : Sense → Kw
  | .above => .ABOVE | .below => .BELOW

def PointState.kw : PointState → Kw
  | .off => .OFF | .clear => .CLEAR | .raising => .RAISING | .active => .ACTIVE | .clearing => .CLEARING
  | .forced => .FORCED

def Polarity.kw : Polarity → Kw
  | .low => .LOW | .high => .HIGH

def WatchMode.kw : WatchMode → Kw
  | .event => .EVENT | .matching => .MATCH

def SlotState.kw : SlotState → Kw
  | .free => .FREE | .armed => .ARMED | .post => .POST | .held => .HELD

def SlotMode.kw : SlotMode → Kw
  | .single => .SINGLE | .repeating => .REPEAT

def ProfileStatus.kw : ProfileStatus → Kw
  | .valid => .VALID | .invalid => .INVALID | .none => .NONE

def StartCause.kw : StartCause → Kw
  | .power => .POWER | .pin => .PIN | .full => .FULL | .proc => .PROC

/-- A cause as the SRC notice carries it: ALARM with the point number (R56). -/
def Cause.flds : Cause → List Fld
  | .request => [.kw .REQUEST]
  | .take => [.kw .TAKE]
  | .alarm n => [.kw .ALARM, finFld n]
  | .revert => [.kw .REVERT]

def TrigSource.flds : TrigSource → List Fld
  | .alarm n => [.kw .ALARM, finFld n]
  | .watch => [.kw .WATCH]
  | .gpi l => [.kw .GPI, finFld l]
  | .request => [.kw .REQUEST]

def optFlds (f : α → List Fld) : Option α → List Fld
  | some x => f x
  | none => [.dash]

def Source.fld (x : Source) : Fld := .src x.port.val x.chan.val

/-! ### Notices and replies (R188, R189) -/

/-- R189: a line joins the held-notice list as its newest; a full list loses its oldest line, which is counted. -/
def Link.hold (l : Link) (x : Line) : Link :=
  if l.held.length < Config.heldMax then { l with held := l.held ++ [x] }
  else { l with held := l.held.drop 1 ++ [x], lost := countUp Config.count16 l.lost }

/-- R189: a notice goes to the transmit FIFO while the gate is OPEN and the FIFO holds fewer than 40 lines, and to
the held-notice list otherwise. -/
def Link.notice (l : Link) (x : Line) : Link :=
  if l.gateOpen && decide (l.fifo.length < Config.takeLevel) then { l with fifo := l.fifo ++ [x] }
  else l.hold x

def State.notify (s : State) (k : NoticeKind) (fields : List Fld) : State :=
  s.updLink fun l => l.notice (.notice k fields)

/-- R188: a reply is placed in the transmit FIFO. R186: a reply with the tag "-" is counted. -/
def Link.reply (l : Link) (tag : Option Nat) (r : Reply) : Link :=
  { l with fifo := l.fifo ++ [.reply tag r],
           badLines := if tag.isNone then countUp Config.count16 l.badLines else l.badLines }

def State.sendReply (s : State) (tag : Option Nat) (r : Reply) : State :=
  s.updLink fun l => l.reply tag r

/-- R189: ATN is asserted while the held-notice list is not empty; `true` is a high pin. -/
def State.atnPin (s : State) : Bool := (s.link.held ≠ []) == s.link.atnHigh

/-- What a request makes: its reply and the state it leaves. -/
abbrev Answer := Reply × State

def okReply (fields : List Fld) (s : State) : Answer := (.ok fields [], s)
def refuse (e : ErrCode) (s : State) : Answer := (.er e, s)

/-- R187: a request's block takes it and the link then produces its reply; a line whose first word is not a number
0 to 9999 is answered SYNTAX with the tag "-". -/
def State.answer (s : State) (tag : Nat) (f : State → Answer) : State :=
  if tag ≤ 9999 then (f s).2.sendReply (some tag) (f s).1 else s.sendReply none (.er .synErr)

/-- R188: a line is taken while the FIFO holds 40 lines or fewer and no line waits before it; until then it waits.
A part without supply takes none (log entry 18). -/
def receive (i : Instr) (run : State → State) (s : State) : Host.Outcome State Fault Refusal :=
  if s.powered = false then .next s
  else if s.link.fifo.length ≤ Config.takeLevel ∧ s.link.waiting = [] then .next (run s)
  else .next (s.updLink fun l => { l with waiting := l.waiting ++ [i] })

/-- An event of the part or at a pin: it acts while the supply is present (log entry 18). -/
def event (f : State → State) (s : State) : Host.Outcome State Fault Refusal :=
  if s.powered = false then .next s else .next (f s)

end Sys2Proof.Machine
end

