-- ==== Sys2Proof/Machine/Converter.lean ====
section
/-! DEFINITION. The converter's word (R30): the position a lane delivers, the exact case of a 48k feed, the unity gain
below 20 kHz and the removal of what a high-rate feed carries above 24 kHz, for signals that repeat and for all others,
and what R30 leaves open. -/

namespace Sys2Proof.Machine

/-! ### The position and the words around it -/

/-- The frames between the read position and the position whose signal a lane of a class delivers: what is left of Lc,
measured in input frames at the nominal ratio, once the centre depth is taken off (R30; DEDUCED, log entry 7).
It is 64 for 48k. -/
def RateClass.carry (c : RateClass) : Rat := ((c.latency * Config.unity : Nat) : Rat) / c.ratio - Config.centreDepth

/-- A channel's words in a port's stream, the newest first. -/
def Port.wordsOf (p : Port) (chan : Fin 8) : List Sample := p.recent.map fun f => f[chan]

/-- A channel's words on each side of a position in a port's stream, the nearest first: those of the frames at it and
before it, and those of the frames after it. -/
def Port.wordsAround (p : Port) (chan : Fin 8) (x : Rat) : List Sample × List Sample :=
  let age := ((p.frameNo : Int) - x.floor).toNat
  ((p.wordsOf chan).drop age, ((p.wordsOf chan).take age).reverse)

/-! ### Numbers -/

/-- A number cut to 30 places. -/
def cutTo30 (x : Rat) : Rat := (x * 10 ^ 30).floor / 10 ^ 30

/-- π, to 39 places. -/
def piRat : Rat := 3141592653589793238462643383279502884197 / 10 ^ 39

/-- The cosine of `t` turns, to 27 places: `1 − x²/(1·2) (1 − x²/(3·4) (…))` for the angle `x` within half a turn. -/
def cosTurns (t : Rat) : Rat :=
  let u := t - t.floor
  let v := if 1 / 2 < u then 1 - u else u
  let y := cutTo30 (4 * v * v * piRat * piRat)
  (List.range 20).foldr (fun n acc => cutTo30 (1 - y / ((2 * n + 1) * (2 * n + 2) : Nat) * acc)) 1

/-- The sine of `t` turns. -/
def sinTurns (t : Rat) : Rat := cosTurns (t - 1 / 4)

/-- A number cut to a whole one, toward 0. -/
def wholePart (x : Rat) : Int := if 0 ≤ x then x.floor else x.ceil

/-! ### What R30 leaves open -/

/-- R30: what the converter makes of content for which the rule states no gain, given at frames of which the newest is `first`
frames before the newest of the stream, `age` frames before that newest: each frame's content at a weight that is free. What
is less than one unit of a word at a frame counts as none there (log entry 6). -/
def freePart (c : RateClass) (ratio : Nat) (age : Rat) (first : Nat) (content : List Rat) : Rat :=
  ((content.map wholePart).zipIdx.map fun b =>
    if b.1 = 0 then 0
    else b.1 * Config.weight c.ratio ratio (age.ceil - age) (age.ceil - (first + b.2 : Nat))).sum

/-- The saturated word at a value: one of the two beside it, or as many further off as `slack` says, chosen by a free word
(R30; log entry 6). -/
def wordNear (value : Rat) (slack : Nat) (free : Sample) : Sample :=
  let lo := value.floor - slack
  let hi := value.ceil + slack
  sampleOf (clampInt (-8388608) 8388607 (if lo = hi then lo else clampInt lo hi free.toInt))

/-! ### The content of a signal that repeats (R30; DEDUCED, log entry 6) -/

/-- The frames after which the newest words repeat, the fewest that do: seen twice over, and in 512 frames or more where the
stream has them. -/
def periodOf (words : List Sample) : Option Nat :=
  if words.isEmpty then none
  else
    ((List.range (max 1 (words.length / 2))).map (· + 1)).find? fun n =>
      let newest := words.take (max (2 * n) Config.steadySpan)
      decide (newest.drop n = newest.take (newest.length - n))

/-- What the converter makes of the content at one frequency. -/
inductive Band where
  /-- below 20 kHz: delivered with unity gain -/
  | kept
  /-- above 24 kHz, of a high-rate feed: removed -/
  | removed
  /-- R30 states no gain -/
  | unstated
  deriving DecidableEq, Repr

/-- R30: the band of `k` cycles in `n` frames, for a port of a class at a tracked ratio: the frequency is
k / n × 48,000 × 2^20 / r_t Hz. Content at half the frame rate has no value between two frames but where it is removed. -/
def bandOf (c : RateClass) (ratio k n : Nat) : Band :=
  if (c = .k882 ∨ c = .k96) ∧ 24 * n * ratio < k * 48 * Config.unity then .removed
  else if k * 48 * Config.unity < 20 * n * ratio ∧ 2 * k < n ∨ k = 0 then .kept
  else .unstated

/-- The content at `k` cycles in `n` frames of words that repeat after `n`, the newest first, `age` frames before the
newest. -/
def contentAt (words : List Sample) (k n : Nat) (age : Rat) : Rat :=
  let part := fun (w : Sample × Nat) => (w.1.toInt : Rat) * cosTurns ((k : Rat) * (age - w.2) / n)
  (if k = 0 ∨ 2 * k = n then 1 else 2) / (n : Rat) * (((words.take n).zipIdx.map part).sum)

/-- The content in a band of words that repeat after `n`, `age` frames before the newest. -/
def bandContent (b : Band) (c : RateClass) (ratio n : Nat) (words : List Sample) (age : Rat) : Rat :=
  (((List.range (n / 2 + 1)).filter fun k => decide (bandOf c ratio k n = b)).map fun k => contentAt words k n age).sum

/-- R30: the converter's signal `age` frames before the newest, for words that repeat after `n` frames, and how far its word
may lie beyond the two beside that: the content below 20 kHz as it stands, none of what is removed, and the rest at weights
that are free. -/
def repeatingSignal (c : RateClass) (ratio n : Nat) (words : List Sample) (age : Rat) : Rat × Nat :=
  let rest := (List.range n).map fun j => bandContent .unstated c ratio n words j
  (bandContent .kept c ratio n words age + freePart c ratio age 0 rest,
   if rest.all fun x => decide (|x| < 1 / 10 ^ 20) then 0 else 1)

/-! ### The content of any other signal (R30; DEDUCED, log entry 6) -/

/-- The frames on each side of a position whose words are weighed. The stream holds them: the depth is 16 or more (R31), and
the position lies `RateClass.carry` frames further back. -/
def RateClass.reach : RateClass → Nat
  | .k882 | .k96 => 128
  | _ => 64

/-- The edge of what the weighed words deliver, in cycles in a frame: midway between the 20 kHz that are kept and the 24 kHz from
which a high-rate feed is cut, and half the frame rate of any other, which carries nothing beyond it. -/
def cutEdge (c : RateClass) (ratio : Nat) : Rat :=
  if c = .k882 ∨ c = .k96 then (22 * ratio : Nat) / (48 * Config.unity : Nat) else 1 / 2

/-- `Σ (68 y)^k / (k!)²`, which is the modified Bessel function of order 0 at `2 √(68 y)`. -/
def besselSum (y : Rat) : Rat :=
  (List.range 48).foldr (fun k acc => cutTo30 (1 + 68 * y / ((k + 1) ^ 2 : Nat) * acc)) 1

/-- Kaiser's taper, from 1 at 0 to 0 at 1 and beyond: with it the weighed words deliver every frequency that lies more than 2.63
cycles in `RateClass.reach` frames from their edge with its gain true to 3 parts in 10^8. -/
def taper (t : Rat) : Rat := if 1 ≤ t * t then 0 else cutTo30 (besselSum (1 - t * t) / besselSum 1)

/-- The content below `edge` cycles in a frame of a stream whose one word is 1, `u` frames from that word:
`sin (2π·edge·u) / (π·u)`. -/
def contentBelow (edge u : Rat) : Rat :=
  if u = 0 then 2 * edge else cutTo30 (sinTurns (edge * u) / (piRat * u))

/-- The content below `cutEdge` at `age` frames before the newest, of the words within `RateClass.reach` of it. -/
def contentNear (c : RateClass) (ratio : Nat) (words : List Sample) (age : Rat) : Rat :=
  let first := (age - c.reach).ceil.toNat
  (((words.drop first).take (2 * c.reach + 1)).zipIdx.map fun w =>
    let u := age - (first + w.2 : Nat)
    (w.1.toInt : Rat) * (contentBelow (cutEdge c ratio) u * taper (u / c.reach))).sum

/-- The content about `cutEdge`, between 20 kHz and what is removed, at the newest `frames` frames with words on both sides; the
newest of these is `RateClass.reach` frames before the newest of the stream. DESIGN CHOICE (log entry 6): content to which R30
states no gain counts to this only within 2.63 cycles in `RateClass.reach` frames of the edge. From 20 kHz up to there it is
delivered with unity gain as what lies below is: up to 22.0 kHz of a 48k feed, 20.2 kHz of a 44.1k or 88.2k one, and 20.03 kHz
of a 96k one; and what an 88.2k feed holds from 23.8 kHz up to 24 kHz, and a 96k feed from 23.97 kHz, is removed as what lies
above is. -/
def contentAtEdge (c : RateClass) (ratio frames : Nat) (words : List Sample) : List Rat :=
  let weights := (List.range (2 * c.reach + 1)).map fun i =>
    let u : Rat := (i : Rat) - c.reach
    taper (u / c.reach) * cosTurns (cutEdge c ratio * u) / (2 * c.reach : Nat)
  (List.range (min frames (words.length - 2 * c.reach))).map fun j =>
    (List.zipWith (fun (k : Rat) (w : Sample) => k * w.toInt) weights (words.drop j)).sum

/-- R30 with unity gain at every frequency below half the frame rate, exactly: the value `age` frames before the newest of the
signal that holds nothing beyond and goes through the words received and, behind them, the words yet to come. -/
def unityValue (received coming : List Sample) (age : Rat) : Rat :=
  (received.zipIdx.map fun w => (w.1.toInt : Rat) * contentBelow (1 / 2) (age - w.2)).sum +
    (coming.zipIdx.map fun w => (w.1.toInt : Rat) * contentBelow (1 / 2) (age + (w.2 + 1 : Nat))).sum

/-- How far the words yet to come can take the value of unity gain of a 32k feed from that of the words received: it is nothing
at a frame, and between two frames as much as the feed holds close to half its frame rate (DEDUCED, log entry 6). `atEdge` is
that content at every frame, the newest first; what is less than one unit counts as none. A tone close to half the frame rate
beats against it, so what a frame `n` frames back shows counts as far as the newest 512 frames leave room for the tone: their
greatest content, grown by as much again for each 256 frames. -/
def openToCome (age : Rat) (atEdge : List Rat) : Rat :=
  let sizes := atEdge.map fun x => if wholePart x = 0 then 0 else |x|
  let newest := (sizes.take Config.steadySpan).foldl max 0
  4 * |sinTurns (age / 2)| * ((sizes.zipIdx.map fun b => min b.1 (newest * (1 + (b.2 : Rat) / 256))).foldl max 0)

/-- R30: the converter's signal `age` frames before the newest, and how far its word may lie beyond the two beside that: the
content of the words around the position up to 20 kHz as it stands, none of what is removed, and the content between at
weights that are free, from the newest 512 frames (DESIGN CHOICE, log entry 6).
All a 32k feed holds lies below 20 kHz and is delivered with unity gain: its value is that of `unityValue`. The words around
the position fix that value, but for what the words yet to come make of content close to half the frame rate: those the state
does not hold, and they are a free value, `Config.coming`. Up to 14.6 kHz they change nothing, and `openToCome` bounds what they
change between there and 16 kHz; the value of unity gain of every steady tone that the words received show is within the
bounds (DEDUCED, log entry 6). -/
def changingSignal (c : RateClass) (ratio : Nat) (words : List Sample) (age : Rat) : Rat × Nat :=
  let here := contentNear c ratio words age
  if c = .k32 then
    let room := openToCome age (contentAtEdge c ratio words.length words)
    (max (here - room) (min (unityValue words (Config.coming c.ratio ratio words) age) (here + room)), 1)
  else (here + freePart c ratio age c.reach (contentAtEdge c ratio Config.steadySpan words), 1)

/-! ### The word -/

/-- R30: the converter's word at a position, read `l.readPos` less the carry of the class. For a 48k port at a tracked ratio
of exactly 1,048,576 it is an input word unchanged. Any other word is one beside the value of the signal: that of
`repeatingSignal` where the newest words repeat, and else that of `changingSignal` (DEDUCED, log entry 6). -/
def converterWord (p : Port) (chan : Fin 8) (l : Lane) : Sample :=
  let c := p.cls.getD .k48
  let ratio := p.ratio.getD Config.unity
  let x := l.readPos - c.carry
  let words := p.wordsOf chan
  let near := p.wordsAround chan x
  let free := Config.reconstruct c.ratio ratio (x - x.floor) near.1 near.2
  let age := p.frameNo - x
  let signal := match periodOf words with
    | none => changingSignal c ratio words age
    | some n => repeatingSignal c ratio n words age
  let formed := wordNear signal.1 signal.2 free
  if c = .k48 ∧ ratio = Config.unity then near.1.headD formed else formed

end Sys2Proof.Machine
end

