-- ==== Sys2Proof/Machine/Operands.lean ====
section
/-! DEFINITION. The argument words of requests (R187): which words can be read as a number, a keyword, a source or a
set, and the two failures of a number: it cannot be read (SYNTAX), or it is out of range (RANGE). -/

namespace Sys2Proof.Machine

/-- A number, with no plus sign. -/
def Tok.int? : Tok → Option Int
  | .num n => some n
  | _ => none

/-- A signed number, which may carry a leading plus or minus sign (R187). -/
def Tok.signed? : Tok → Option Int
  | .num n => some n
  | .plus n => some n
  | _ => none

/-- The number of a thing: plain, or with its letters, as C1. -/
def Tok.index? (k : NameKind) : Tok → Option Int
  | .num n => some n
  | .name k' n => if k' = k then some n else none
  | _ => none

/-- A number that lies in 0..n − 1. -/
def asFin (n : Nat) (x : Int) : Option (Fin n) :=
  if h : 0 ≤ x ∧ x.toNat < n then some ⟨x.toNat, h.2⟩ else none

/-- The items of a set or list: numbers joined by commas, one number, or NONE. -/
def Tok.items? (k : NameKind) : Tok → Option (List Int)
  | .nums l => some l
  | .num n => some [n]
  | .name k' n => if k' = k then some [n] else none
  | .kw .NONE => some []
  | _ => none

/-- Every item in 0..n − 1. -/
def asFins (n : Nat) (l : List Int) : Option (List (Fin n)) := l.mapM (asFin n)

/-- A set of lines or programmes, ascending and without repeats. -/
def asSet8 (l : List (Fin 8)) : List (Fin 8) := allLines.filter fun x => decide (x ∈ l)

/-- One thing of a kind, named by the argument `t`: SYNTAX when it cannot be read, RANGE outside 0..n − 1. -/
def withIndex (k : NameKind) (n : Nat) (t : Tok) (s : State) (f : Fin n → Answer) : Answer :=
  match Tok.index? k t with
  | none => refuse .synErr s
  | some x =>
    match asFin n x with
    | none => refuse .range s
    | some i => f i

/-- A request that names one programme. -/
def withProg (t : Tok) (s : State) (f : ProgId → Answer) : Answer := withIndex .P 8 t s f

def Tok.sel? : Tok → Option SrcSel
  | .kw .MAIN => some .main
  | .kw .BACKUP => some .backup
  | _ => none

def Tok.mode? : Tok → Option Mode
  | .kw .FULL => some .full
  | .kw .DELAY => some .delay
  | .kw .BYPASS => some .bypass
  | _ => none

def Tok.layout? : Tok → Option Layout
  | .kw .MONO => some .mono
  | .kw .PAIR => some .pair
  | .kw .SIX => some .six
  | .kw .EIGHT => some .eight
  | _ => none

def Tok.motion? : Tok → Option MotionMode
  | .kw .SLEW => some .slew
  | .kw .JUMP => some .jump
  | .kw .AUTO => some .auto
  | _ => none

def Tok.polarity? : Tok → Option Polarity
  | .kw .LOW => some .low
  | .kw .HIGH => some .high
  | _ => none

/-- R5: one of the eight rates. -/
def Tok.rate? : Tok → Option FrameRate
  | .num n => allRates.find? fun r => (r.milli : Int) == n * 1000
  | .milli n => allRates.find? fun r => r.milli == n
  | _ => none

/-- A level, 0 or 1. -/
def Tok.bit? : Tok → Option Bool
  | .num 0 => some false
  | .num 1 => some true
  | _ => none

def Tok.gainMode? : Tok → Option GainMode
  | .kw .OFF => some .off
  | .kw .SHORT => some .short
  | .kw .INTEGRATED => some .integrated
  | _ => none

/-- An argument that reads as a thing's number and lies outside 0..n − 1. -/
def outside (k : NameKind) (n : Nat) (t : Option Tok) : Bool :=
  match t.bind (Tok.index? k) with
  | some x => (asFin n x).isNone
  | none => false

/-- A request with a missing or surplus argument: SYNTAX, behind RANGE where a number it names is out of range and its rule
checks that first (log entry 33). -/
def misshapen (rangeBad : Bool) (s : State) : Answer := refuse (if rangeBad then .range else .synErr) s

/-- An argument that reads as a thing's number in 0..n − 1. -/
def Tok.fin? (k : NameKind) (n : Nat) (t : Tok) : Option (Fin n) := (Tok.index? k t).bind (asFin n)

/-- The requests whose rule checks every RANGE failure before every SYNTAX failure (R40, R121, R132, R159, R167,
R177): the arguments as read, `none` where one cannot be. -/
def withArgs (rangeBad : Bool) (v : Option α) (s : State) (f : α → Answer) : Answer :=
  if rangeBad then refuse .range s
  else
    match v with
    | none => refuse .synErr s
    | some a => f a

end Sys2Proof.Machine
end

