-- ==== Sys2Proof/Machine/Flags.lean ====
section
/-! DEFINITION. The flags of an OK reply, CLAMPED, LATE and STILL (R188), and the clamps that set the first. -/

namespace Sys2Proof.Machine

/-- A flag that is present when its owning rule calls for it. -/
def flagIf (b : Bool) (f : RFlag) : List RFlag := if b then [f] else []

/-- An OK reply that carries CLAMPED when a value was clamped. -/
def okClamped (fields : List Fld) (clamped : Bool) (s : State) : Answer :=
  (.ok fields (flagIf clamped .clamped), s)

/-- A value clamped into a range, and whether the clamp changed it. -/
def clampNote (lo hi x : Int) : Int × Bool := (clampInt lo hi x, decide (clampInt lo hi x ≠ x))

end Sys2Proof.Machine
end

