-- ==== Sys2Proof/Machine/Pool.lean ====
section
/-! DEFINITION. The page pool (04 section 4.1): attaching and releasing pages, counts, and the figures computed from the
owner map. -/

namespace Sys2Proof.Machine

/-- R59: the first `n` FREE entries of the owner map become `o`'s. Which free pages are taken is not observable; the
model takes the lowest numbered (log entry 21). -/
def attachPages (o : PageOwner) : Nat → List PageOwner → List PageOwner
  | _, [] => []
  | 0, l => l
  | n + 1, x :: l => if x = .free then o :: attachPages o n l else x :: attachPages o (n + 1) l

/-- R59: `n` entries of `o` become FREE. -/
def releasePages (o : PageOwner) : Nat → List PageOwner → List PageOwner
  | _, [] => []
  | 0, l => l
  | n + 1, x :: l => if x = o then .free :: releasePages o n l else x :: releasePages o (n + 1) l

/-- R59: every page of `o` becomes FREE. -/
def releaseAll (o : PageOwner) (l : List PageOwner) : List PageOwner :=
  l.map fun x => if x = o then .free else x

/-- The free count (04 section 4.1). -/
def State.freePages (s : State) : Nat := s.owners.count .free

/-- The pages each lane of a programme holds, p of R77; every lane holds the same number (R60). -/
def State.pagesHeld (s : State) (p : ProgId) : Nat := s.owners.count (.line p 0)

/-- The pages a capture slot holds. -/
def State.slotPages (s : State) (c : SlotId) : Nat := s.owners.count (.slot c)

/-- The slot's pages per lane (10 section 10.1). -/
def State.slotPagesPerLane (s : State) (c : SlotId) : Nat := s.slotPages c / s.slots[c].lanes

/-- The lane positions of a programme of `k` lanes. -/
def positions (k : Nat) : List (Fin 8) := allLines.take k

/-- R60: `a` pages for each of `k` lanes. -/
def attachLanes (p : ProgId) (k a : Nat) (l : List PageOwner) : List PageOwner :=
  (positions k).foldl (fun l pos => attachPages (.line p pos) a l) l

/-- R59: `n` pages of each of `k` lanes are released. -/
def releaseLanes (p : ProgId) (k n : Nat) (l : List PageOwner) : List PageOwner :=
  (positions k).foldl (fun l pos => releasePages (.line p pos) n l) l

/-- R78: every page of a programme's lines. -/
def isLineOf (p : ProgId) : PageOwner → Bool
  | .line q _ => decide (q = p)
  | _ => false

def releasePgm (p : ProgId) (l : List PageOwner) : List PageOwner :=
  l.map fun x => if isLineOf p x then .free else x

/-- R60: the grant per lane to a programme of `k` lanes that asks for `a`: whole sets of one page a lane. -/
def State.grantFor (s : State) (k a : Nat) : Nat := min a (s.freePages / k)

/-- R82: the pages held by delay lines. -/
def State.linePages (s : State) : Nat :=
  s.owners.countP fun x => match x with
    | .line _ _ => true
    | _ => false

/-- R82: the pages held by capture slots. -/
def State.capturePages (s : State) : Nat :=
  s.owners.countP fun x => match x with
    | .slot _ => true
    | _ => false

/-- The waiting list, in programme-number order: the programmes whose SHORT flag is set (R68, R70; log entry 22). -/
def State.waitingList (s : State) : List ProgId := allProgs.filter fun p => s.pgms[p].dly.short

end Sys2Proof.Machine
end

