-- ==== Sys2Proof/Machine/Delay.lean ====
section
/-! DEFINITION. The delay lines (04): required length, pages for a running line, motion, the arbiter of the pool, and
the requests DLY VIDEO, DLY TRIM, DLY MOTION and DLY?. -/

namespace Sys2Proof.Machine

/-- The largest pad of a programme. -/
def maxPad (pads : List Nat) : Nat := pads.foldl max 0

/-- R68, R69: the pages for a length and a pad: at least 1. -/
def pagesFor (length pad : Nat) : Nat := max 1 (ceilDiv (length + pad) Config.pageWords)

/-- R67: the cap on the history, and the longest length `pages` pages allow. -/
def capacity (pages pad : Nat) : Nat := pages * Config.pageWords - pad

/-- The lane count of a programme. -/
def State.laneCount (s : State) (p : ProgId) : Nat := s.pgms[p].ctl.lanes.length

/-- The largest pad of a programme as the controller holds it. -/
def State.padMax (s : State) (p : ProgId) : Nat := maxPad s.pgms[p].ctl.pads

/-- R68: the need of a line as it stands. DEDUCED (log entry 71): it follows D_app through a slew. -/
def State.need (s : State) (p : ProgId) : Nat :=
  pagesFor (max s.pgms[p].dly.dApp s.pgms[p].dly.dReq) (s.padMax p)

/-- R64: T and D_req from V, O and Lc_pgm, with FLOOR. -/
def Delay.form (d : Delay) (lc : Nat) : Delay :=
  let t := (clampInt 0 Config.maxTarget (d.v + d.o)).toNat
  { d with t := t, dReq := min (t - lc) Config.maxLine, floor := decide (t < lc) }

/-- R64. -/
def formLength (p : ProgId) (s : State) : State :=
  s.updDly p fun d => d.form s.pgms[p].ctl.lcPgm

/-- R81: the need as it is shown: 0 for a programme that has no line. -/
def State.needShown (s : State) (p : ProgId) : Nat :=
  if s.pgms[p].ctl.state = .running then s.need p else 0

/-- R80: a PAGES notice, with every figure as it stands after the event (log entries 23 and 43). -/
def pagesNotice (p : ProgId) (cut : Bool) (s : State) : State :=
  s.notify .pages
    ([finFld p, natFld (s.pagesHeld p), natFld (s.needShown p), natFld s.pgms[p].dly.dTarget,
      boolFld .SHORT .MET s.pgms[p].dly.short, natFld s.freePages] ++ (if cut then [.kw .CUT] else []))

/-! ### Motion (04 section 4.5) -/

/-- R71: the line's record after a new target, by its motion state. DESIGN CHOICE (log entry 74): a slew that a target equal to
D_app ends leaves the slew count 0. -/
def Delay.place (d : Delay) (target : Nat) : Delay :=
  match d.motion with
  | .still => { d with dTarget := target }
  | .slewing =>
    if target = d.dApp then { d with dTarget := target, motion := .still, slewCount := 0 }
    else { d with dTarget := target }
  | .fadingDown => { d with dTarget := target }
  | .fadingUp => { d with pendTarget := some target }

/-- R72: the start of a motion toward D_target, chosen by the motion mode. -/
def Delay.start (d : Delay) : Delay :=
  let slew := { d with motion := .slewing, slewCount := 0 }
  let jump := { d with motion := .fadingDown, jumpPos := 0 }
  match d.motionMode with
  | .slew => slew
  | .jump => jump
  | .auto => if absDiff d.dTarget d.dApp ≤ Config.autoSlewLimit then slew else jump

/-- R67: the history reduced to a cap that has fallen, and the lines cut at the oldest end to the pages held (R66).
DEDUCED (log entry 47): words that the length of the house sample in progress still reaches, at the pads R76
keeps for that sample, stay until its word is stored. -/
def Delay.trim (d : Delay) (pages pad : Nat) : Delay :=
  { d with hist := min d.hist (capacity pages pad),
           lines := d.lines.map fun l => l.take (max (pages * Config.pageWords) (d.dApp + maxPad d.padsNow)) }

/-- R59: pages attached to a line of `held` pages read 0 until they are written: what a release of this house sample left
beyond the pages held (log entry 47) does not come back with them. -/
def Delay.attach (d : Delay) (held : Nat) : Delay :=
  { d with lines := d.lines.map fun l => l.take (held * Config.pageWords) }

/-- R61, R70: the arbiter serves one programme of the waiting list. A line that is given its need has nothing to
release, so the target is placed without R69 (log entry 24). -/
def serve (s : State) (p : ProgId) : State :=
  let d := s.pgms[p].dly
  if d.short = false then s
  else
    let held := s.pagesHeld p
    let need := s.need p
    let grant := s.grantFor (s.laneCount p) (need - held)
    let s1 := s.setOwners (attachLanes p (s.laneCount p) grant s.owners)
    if need ≤ held + grant then
      pagesNotice p false
        (s1.updDly p fun d => ({ (if 0 < grant then d.attach held else d) with short := false } : Delay).place d.dReq)
    else if grant = 0 then s
    else
      pagesNotice p false
        (s1.updDly p fun d => (d.attach held).place (min d.dReq (capacity (held + grant) (s.padMax p))))

/-- R61: after a release the arbiter serves the waiting list in programme-number order. -/
def arbiter (s : State) : State := allProgs.foldl serve s

/-- R69: pages beyond what the line keeps and needs are released from every lane, and the arbiter serves the waiting
list. -/
def releaseExcess (p : ProgId) (s : State) : State :=
  let d := s.pgms[p].dly
  let keep := max (pagesFor (max d.dApp (d.pendTarget.getD 0)) (s.padMax p)) (s.need p)
  let held := s.pagesHeld p
  if held ≤ keep then s
  else
    arbiter ((s.setOwners (releaseLanes p (s.laneCount p) (held - keep) s.owners)).updDly p
      fun d => d.trim keep (s.padMax p))

/-- R71: a line takes a new target, `report` sends the PAGES notice of R80 where one is due, and a line left STILL at the
target releases pages under R69. DESIGN CHOICE (log entry 70): the notice shows the figures before that release. -/
def takeTarget (p : ProgId) (target : Nat) (report : State → State) (s : State) : State :=
  let d := s.pgms[p].dly
  let s1 := report (s.updDly p fun d => d.place target)
  if (d.motion = .still ∨ d.motion = .slewing) ∧ target = d.dApp then releaseExcess p s1 else s1

/-- R68: a running line takes its D_req and pads: it asks for the pages it needs, is cut where a grown pad leaves less
than D_app, and takes the target its pages allow. -/
def retarget (p : ProgId) (s : State) : State :=
  let d := s.pgms[p].dly
  let held := s.pagesHeld p
  let need := s.need p
  let grant := s.grantFor (s.laneCount p) (need - held)
  let s1 := (s.setOwners (attachLanes p (s.laneCount p) grant s.owners)).updDly p
    fun d => if 0 < grant then d.attach held else d
  let cap := capacity (held + grant) (s.padMax p)
  if need ≤ held + grant then
    let s2 := s1.updDly p fun d => { d with short := false, hist := min d.hist cap }
    takeTarget p d.dReq (fun s => if 0 < grant ∨ d.short = true then pagesNotice p false s else s) s2
  else
    let s2 := s1.updDly p fun d =>
      { d with short := true, dApp := min d.dApp cap, hist := min d.hist cap,
               dTarget := if d.motion = .fadingUp then min d.dTarget cap else d.dTarget }
    takeTarget p (min d.dReq cap) (pagesNotice p (decide (cap < d.dApp))) s2

/-- R64, R68: a programme whose V, O, Lc_pgm or pads were written forms T and D_req afresh, and a running line takes
them. DEDUCED (log entry 63): each write is taken so, one that leaves D_req and the pads as they were included. -/
def handOver (p : ProgId) (s : State) : State :=
  let s1 := formLength p s
  if s.pgms[p].ctl.state = .running then retarget p s1 else s1

/-- R72: each line of a RUNNING programme that is STILL away from its target starts its motion at a frame boundary. -/
def lineBoundary (s : State) : State :=
  allProgs.foldl
    (fun s p =>
      let g := s.pgms[p]
      if g.ctl.state = .running ∧ g.dly.motion = .still ∧ g.dly.dTarget ≠ g.dly.dApp then
        s.updDly p Delay.start
      else s) s

/-- R73: the step of a slew whose count has reached 32. -/
def slewStep (p : ProgId) (s : State) : State :=
  let d := s.pgms[p].dly
  if s.pgms[p].ctl.state = .running ∧ d.motion = .slewing ∧ Config.slewPeriod ≤ d.slewCount then
    let app := if d.dApp < d.dTarget then d.dApp + 1 else if d.dTarget < d.dApp then d.dApp - 1 else d.dApp
    let s1 := s.updDly p fun d => { d with slewCount := 0, dApp := app }
    if app = d.dTarget then releaseExcess p (s1.updDly p fun d => { d with motion := .still }) else s1
  else s

/-- R75: the bottom of a jump. -/
def jumpBottom (p : ProgId) (s : State) : State :=
  let d := s.pgms[p].dly
  if s.pgms[p].ctl.state = .running ∧ d.motion = .fadingDown ∧ Config.fadeLen ≤ d.jumpPos then
    (releaseExcess p (s.updDly p fun d => { d with dApp := d.dTarget })).updDly p
      fun d => { d with motion := .fadingUp, jumpPos := 0 }
  else s

/-- R75: the end of a jump's fade up. DESIGN CHOICE (log entry 80): the fade position of a line that is STILL again is 0. -/
def jumpFadeUpEnd (p : ProgId) (s : State) : State :=
  let d := s.pgms[p].dly
  if s.pgms[p].ctl.state = .running ∧ d.motion = .fadingUp ∧ Config.fadeLen ≤ d.jumpPos then
    match d.pendTarget with
    | none => s.updDly p fun d => { d with motion := .still, jumpPos := 0 }
    | some t =>
      let s1 := s.updDly p fun d =>
        { d with motion := .still, jumpPos := 0, dTarget := t, pendTarget := none }
      if t = d.dApp then releaseExcess p s1 else s1.updDly p Delay.start
  else s

/-! ### Latency of lanes and programmes (R36, R45, R46) -/

/-- The source a lane's current source names. -/
def Lane.source (l : Lane) : Option Source :=
  match l.current with
  | .main => l.main
  | .backup => l.backup

/-- R36: the Lc of the class of the port the lane's current source names; 96 without a class or a source. -/
def State.lcFor (s : State) (l : Lane) : Nat :=
  match l.source with
  | none => 96
  | some x =>
    match s.ports[x.port].cls with
    | none => 96
    | some c => c.latency

/-- R45: the largest Lc_lane of a list of lanes. -/
def State.lcOf (s : State) (lanes : List LaneId) : Nat := maxPad (lanes.map fun k => s.lanes[k].lc)

/-- R45: the pads of a list of lanes, in layout order. -/
def State.padsOf (s : State) (lanes : List LaneId) : List Nat :=
  lanes.map fun k => s.lcOf lanes - s.lanes[k].lc

/-- R46: a defined programme recomputes Lc_pgm and its pads; figures that did not change are not handed on. -/
def recompute (p : ProgId) (s : State) : State :=
  let c := s.pgms[p].ctl
  let lc := s.lcOf c.lanes
  let pads := s.padsOf c.lanes
  if c.state = .undefined ∨ (lc = c.lcPgm ∧ pads = c.pads) then s
  else handOver p (s.updCtl p fun c => { c with lcPgm := lc, pads := pads })

/-- R46, R60: every programme, in programme-number order. -/
def recomputeAll (s : State) : State := allProgs.foldl (fun s p => recompute p s) s

/-! ### Requests -/

/-- The fields of a reply to DLY VIDEO and DLY TRIM: T, D_req, and FLOOR when set (R63). -/
def targetFlds (d : Delay) : List Fld :=
  [natFld d.t, natFld d.dReq] ++ (if d.floor then [.kw .FLOOR] else [])

/-- Whether T was clamped (R63, R64). -/
def targetClamped (v : Nat) (o : Int) : Bool := (clampNote 0 Config.maxTarget (v + o)).2

/-- R63: a write of V to a defined programme; whether V or T was clamped. -/
def writeVideo (p : ProgId) (v : Int) (s : State) : State × Bool :=
  let x := clampNote 0 Config.maxLine v
  (handOver p (s.updDly p fun d => { d with v := x.1.toNat }),
   x.2 || targetClamped x.1.toNat s.pgms[p].dly.o)

/-- R63: a write of O to a defined programme; whether O or T was clamped. -/
def writeTrim (p : ProgId) (o : Int) (s : State) : State × Bool :=
  let x := clampNote (-Config.maxTrim) Config.maxTrim o
  (handOver p (s.updDly p fun d => { d with o := x.1 }), x.2 || targetClamped s.pgms[p].dly.v x.1)

/-- DLY VIDEO (R63). -/
def reqDlyVideo (args : List Tok) (s : State) : Answer :=
  match args with
  | [t, v] =>
    match Tok.int? v with
    | none => refuse .synErr s
    | some v =>
      withProg t s fun p =>
        if s.pgms[p].ctl.state = .undefined then refuse .state s
        else
          let w := writeVideo p v s
          okClamped (targetFlds w.1.pgms[p].dly) w.2 w.1
  | _ => refuse .synErr s

/-- DLY TRIM (R63). -/
def reqDlyTrim (args : List Tok) (s : State) : Answer :=
  match args with
  | [t, o] =>
    match Tok.signed? o with
    | none => refuse .synErr s
    | some o =>
      withProg t s fun p =>
        if s.pgms[p].ctl.state = .undefined then refuse .state s
        else
          let w := writeTrim p o s
          okClamped (targetFlds w.1.pgms[p].dly) w.2 w.1
  | _ => refuse .synErr s

/-- DLY MOTION (R65): RANGE, then STATE, then SYNTAX; a missing or surplus word is SYNTAX behind RANGE (log entry 33). -/
def reqDlyMotion (args : List Tok) (s : State) : Answer :=
  match args with
  | [t, m] =>
    withProg t s fun p =>
      if s.pgms[p].ctl.state = .undefined then refuse .state s
      else
        match Tok.motion? m with
        | none => refuse .synErr s
        | some m => okReply [] (s.updDly p fun d => { d with motionMode := m })
  | _ => misshapen (outside .P 8 args[0]?) s

/-- R81: the fields of a programme's delay record; dashes while UNDEFINED, and p, need, H, D_target and D_app as 0 while
PARKED. -/
def delayFlds (s : State) (p : ProgId) : List Fld :=
  let g := s.pgms[p]
  let d := g.dly
  match g.ctl.state with
  | .undefined => List.replicate 15 .dash
  | st =>
    let run := fun (n : Nat) => if st = .running then natFld n else natFld 0
    [natFld d.v, .num d.o, natFld d.t, natFld g.ctl.lcPgm, natFld d.dReq, run d.dTarget, run d.dApp,
     run (s.pagesHeld p), natFld (s.needShown p), run d.hist, .kw d.motionMode.kw, .kw d.motion.kw,
     optNat d.pendTarget, boolFld .SET .CLEAR d.short, boolFld .SET .CLEAR d.floor]

/-- R82: the fields of the pool. -/
def poolFlds (s : State) : List Fld :=
  [natFld s.freePages, natFld s.linePages, natFld s.capturePages,
   if s.waitingList = [] then .dash else finsFld s.waitingList]

/-- DLY? (R81, R82). -/
def reqDlyQuery (args : List Tok) (s : State) : Answer :=
  match args with
  | [] => okReply (poolFlds s) s
  | [t] => withProg t s fun p => okReply (delayFlds s p) s
  | _ => refuse .synErr s

end Sys2Proof.Machine
end

