-- ==== Sys2Proof/Machine/Lanes.lean ====
section
/-! DEFINITION. Input ports, rate conversion and the lane map (02): the port events FRAME_EDGE, WINDOW_CLOSE and
SIGNAL_EXPIRY, the converter of a lane, LANE_FADE_IN_END, and the requests PORT?, LANE SET and LANE?. -/

namespace Sys2Proof.Machine

/-- A port whose lanes are valid: LOCKED or RELOCKING (R34). -/
def PortState.good : PortState → Bool
  | .locked | .relocking => true
  | _ => false

/-- R34: a lane is valid while its current source names a port that is LOCKED or RELOCKING. -/
def State.sourceGood (s : State) (l : Lane) : Bool :=
  match l.source with
  | none => false
  | some x => s.ports[x.port].state.good

/-- A lane whose current source is on port `i`. -/
def Lane.onPort (l : Lane) (i : PortId) : Bool :=
  match l.source with
  | none => false
  | some x => decide (x.port = i)

/-! ### The converter (R30, R31, R35) -/

/-- The depth of a lane: input frames from the read position to the newest frame (02 section 2.5). -/
def Lane.depth (l : Lane) (p : Port) : Rat := p.frameNo - l.readPos

/-- R31: the read position at the centre, reckoned from the newest frame as it stands. -/
def Lane.centred (l : Lane) (p : Port) : Lane :=
  { l with readPos := (p.frameNo : Rat) - Config.centreDepth }

/-- R31: a slip, when the depth exceeds 48 or is below 16: a whole number of frames that brings the depth into
32 to just under 33. -/
def Lane.slip (l : Lane) (p : Port) : Lane :=
  let d := l.depth p
  if 48 < d ∨ d < 16 then
    { l with readPos := (p.frameNo : Rat) - (Config.centreDepth + (d - d.floor)),
             slips := countUp Config.count16 l.slips }
  else l

/-- R35: the lane's own fade on a converter word, and the lane after it. -/
def Lane.fadeWord (l : Lane) (w : Sample) : Lane × Sample :=
  match l.fade with
  | .fadingIn => ({ l with fadePos := min Config.fadeLen (l.fadePos + 1) }, fadeUpWord l.fadePos w)
  | _ => (l, w)

/-- A valid lane's word for one house sample, and the lane after it (R30, R31, R35). -/
def Lane.convert (l : Lane) (p : Port) (chan : Fin 8) : Lane :=
  let l1 := l.slip p
  let fw := l1.fadeWord (converterWord p chan l1)
  { fw.1 with readPos := fw.1.readPos + (Config.unity : Rat) / (p.ratio.getD Config.unity : Nat),
              latch := some (fw.2, true) }

/-- A lane with its word of the house sample in progress, for the ports as they stand: one that is fixed already stays, and an
invalid lane delivers 0 (R34). -/
def Lane.form (ports : Vector Port 6) (l : Lane) : Lane :=
  if l.latch.isSome then l
  else
    match l.valid, l.source with
    | true, some x => l.convert ports[x.port] x.chan
    | _, _ => { l with latch := some (0, false) }

/-- The lane's word of the house sample in progress is fixed: once, either at HOUSE_SAMPLE, or before a change that
takes effect "from the house sample after" (R22, R23, R34; log entry 3). -/
def formLane (s : State) (k : LaneId) : State := s.updLane k (Lane.form s.ports)

/-- The words of the house sample in progress of every lane on a port. -/
def formLanesOn (i : PortId) (s : State) : State :=
  allLanes.foldl (fun s k => if s.lanes[k].onPort i then formLane s k else s) s

/-- The word of a lane for the house sample in progress (after `formLane`). -/
def State.laneWord (s : State) (k : LaneId) : Sample :=
  match s.lanes[k].latch with
  | some w => w.1
  | none => 0

/-- Whether a lane is valid at the house sample in progress (R34, R86). -/
def State.laneValidNow (s : State) (k : LaneId) : Bool :=
  match s.lanes[k].latch with
  | some w => w.2
  | none => s.lanes[k].valid

/-! ### Validity and switches (R33, R34, R35) -/

/-- R31, R34, R35: a lane whose validity is formed afresh: it fades in from position 0 when it becomes valid, and is SILENT
from when it becomes invalid. DESIGN CHOICE (log entry 61): its read position is centred on the newest frame at the
event that makes it valid, so a frame that comes before its first word stands beyond the 32. DESIGN CHOICE (log entry 80): the
fade position of a SILENT lane is 0. -/
def Lane.settle (l : Lane) (good : Bool) (p : Option Port) : Lane :=
  if good then
    if l.valid then l
    else
      let l1 := match p with
        | some p => l.centred p
        | none => l
      { l1 with valid := true, fade := .fadingIn, fadePos := 0 }
  else { l with valid := false, fade := .silent, fadePos := 0 }

/-- The port a lane's current source names. -/
def State.portOf (s : State) (l : Lane) : Option Port := l.source.map fun x => s.ports[x.port]

/-- R34 for every lane on a port. -/
def settleLanesOn (i : PortId) (s : State) : State :=
  allLanes.foldl
    (fun s k =>
      let l := s.lanes[k]
      if l.onPort i then s.updLane k fun l => l.settle (s.sourceGood l) (s.portOf l) else s) s

/-- R36 for every lane on a port, then R46 for every programme. -/
def relatencyOn (i : PortId) (s : State) : State :=
  recomputeAll
    (allLanes.foldl
      (fun s k =>
        if s.lanes[k].onPort i then s.updLane k fun l => { l with lc := s.lcFor l } else s) s)

/-- R33: a lane is switched to a source and re-evaluated: OPEN at once on a good port, SILENT on any other. Its Lc_lane is
recomputed under R36. DESIGN CHOICE (log entry 80): its fade position is 0. -/
def switchLane (sel : SrcSel) (s : State) (k : LaneId) : State :=
  s.updLane k fun l =>
    let l0 := { l with current := sel }
    let good := s.sourceGood l0
    let l1 := match s.portOf l0 with
      | some p => if good then l0.centred p else l0
      | none => l0
    { l1 with valid := good, fade := if good then .opened else .silent, fadePos := 0, lc := s.lcFor l0 }

/-- R33 for a lane whose current source is set: a lane already on the source is left (log entry 31). The change takes
effect from the house sample after (R34). -/
def setLaneSource (sel : SrcSel) (s : State) (k : LaneId) : State :=
  if s.lanes[k].current = sel then s else switchLane sel (formLane s k) k

/-! ### Port events -/

/-- R27: a PORT notice. -/
def portNotice (i : PortId) (classChanged : Bool) (s : State) : State :=
  let p := s.ports[i]
  s.notify .port
    ([finFld i, .kw p.state.kw, optFld (fun c => .kw (RateClass.kw c)) p.cls, optNat p.ratio,
      natFld p.lockLoss] ++ (if classChanged then [.kw .CLASS] else []))

/-- R26: a departure from lock is counted. -/
def Port.lose (p : Port) : Port :=
  if p.state.good then { p with lockLoss := countUp Config.count16 p.lockLoss } else p

/-- FRAME_EDGE (R16, R17, R20): the edge sets the signal expiry, its frame joins the stream, and it is counted in the
window or, in NO_SIGNAL, opens one. -/
def Port.edge (p : Port) (pos : TickPos) (words : Frame) : Port :=
  let p1 := { p with expiry := some (later pos Config.signalTicks), frameNo := p.frameNo + 1,
                     recent := words :: p.recent }
  match p.state with
  | .noSignal =>
    { p1 with state := .measuring, windowStart := some pos, inWindow := 0, agree := 0, history := [],
              hasPred := false }
  | _ => { p1 with inWindow := min Config.windowFrames (p.inWindow + 1) }

def frameEdge (i : PortId) (phase : BitVec 8) (words : Frame) (s : State) : State :=
  let s1 := { s with phase := phase }
  let s2 := s1.updPort i fun p => p.edge s1.now words
  if s.ports[i].state = .noSignal then portNotice i false s2 else s2

/-- R16: the record of a port at its signal expiry. -/
def Port.expire (p : Port) : Port :=
  { p.lose with state := .noSignal, expiry := none, windowStart := none, inWindow := 0, history := [],
                agree := 0, relock := 0, hasPred := false }

/-- The tick phase once an instant `x` of this house sample has come. -/
def State.atInstant (s : State) (x : TickPos) : State :=
  if ticksFrom (tickAt s.hc 0) x < 256 then { s with phase := x.setWidth 8 } else s

/-- SIGNAL_EXPIRY (R16), when the expiry has been reached. -/
def signalExpiry (i : PortId) (s : State) : State :=
  match s.ports[i].expiry with
  | none => s
  | some x =>
    if s.reached x then
      let s1 := formLanesOn i (s.atInstant x)
      portNotice i false (settleLanesOn i (s1.updPort i Port.expire))
    else s

/-- R17: the figures of a window close: the measured ratio, and the record after the measurement is stored. -/
def Port.measure (p : Port) : Option (Nat × Port) :=
  match p.windowStart, p.expiry with
  | some w, some e =>
    let edge := e - BitVec.ofNat 56 Config.signalTicks
    let rm := ticksFrom w edge
    some (rm, { p with history := match p.lastMeas with
                         | some m => (m :: p.history).take 2
                         | none => p.history
                       lastMeas := some rm, windowStart := some edge, inWindow := 0, hasPred := true })
  | _, _ => none

/-- R22: entry to LOCKED at a ratio. -/
def Port.lock (p : Port) (ratio : Nat) : Port :=
  { p with state := .locked, ratio := some ratio, cls := some (nearestClass ratio), agree := 0, relock := 0 }

/-- R25: entry to OUT_OF_RANGE. -/
def Port.leaveRange (p : Port) : Port := { p.lose with state := .outOfRange, agree := 0, relock := 0 }

/-- R21, R23, R24, R25: the record of a port after a window close of measured ratio `rm`. `p` holds the window already;
`old` is the record before it. DESIGN CHOICE (log entry 48): R24 zeroes the agreement count alone at the fall from
RELOCKING to MEASURING, so the relock count stays at 4 there. -/
def Port.closeWindow (old p : Port) (rm : Nat) : Port :=
  match old.state with
  | .noSignal => p
  | .measuring =>
    if !inRange rm then p.leaveRange
    else
      match (if old.hasPred then old.lastMeas else none) with
      | none => p
      | some prev =>
        if windowsAgree rm prev then
          if old.agree + 1 < 3 then { p with agree := old.agree + 1 }
          else p.lock ((rm + p.history.foldl (· + ·) 0) / 3)
        else { p with agree := 0 }
  | .locked =>
    let rt := old.ratio.getD Config.unity
    if !inRange rm then p.leaveRange
    else if departs rm rt then { p with state := .relocking, relock := 0 }
    else { p with ratio := some (eighthStep rt rm) }
  | .relocking =>
    let p1 := { p with relock := old.relock + 1 }
    if !inRange rm then p1.leaveRange
    else
      let prev := old.lastMeas.getD 0
      if windowsAgree rm prev then p1.lock ((rm + prev) / 2)
      else if 4 ≤ old.relock + 1 then { p1.lose with state := .measuring, agree := 0 }
      else p1
  | .outOfRange => if inRange rm then { p with state := .measuring, agree := 0 } else p

/-- WINDOW_CLOSE (R17, R21 to R27, R34, R36), when the 4,096th edge of a window has come. Its effects on the lanes hold
from the house sample after. -/
def windowClose (i : PortId) (s : State) : State :=
  let old := s.ports[i]
  if old.state = .noSignal ∨ old.inWindow < Config.windowFrames then s
  else
    match old.measure with
    | none => s
    | some (rm, p) =>
      let new := old.closeWindow p rm
      let s1 := (formLanesOn i s).updPort i fun _ => new
      let s2 := if new.cls = old.cls then s1 else relatencyOn i s1
      let s3 := settleLanesOn i s2
      if new.state = old.state then s3 else portNotice i (decide (new.cls ≠ old.cls)) s3

/-- LANE_FADE_IN_END (R35): after the word at fade position 239 the lane is OPEN; its fade position is 0 (DESIGN CHOICE, log entry
80). -/
def laneFadeInEnd (k : LaneId) (s : State) : State :=
  let l := s.lanes[k]
  if l.fade = .fadingIn ∧ Config.fadeLen ≤ l.fadePos then
    s.updLane k fun l => { l with fade := .opened, fadePos := 0 }
  else s

/-! ### Requests -/

/-- R28: the deviation of the last measurement from its nearest class, ppm. -/
def deviationFld (o : Option Nat) : Fld :=
  match o with
  | none => .dash
  | some r => if inRange r then natFld (deviation r (nearestClass r)) else .dash

def classFld (o : Option RateClass) : Fld := optFld (fun c => .kw (RateClass.kw c)) o

/-- R28: the fields of one port. -/
def portFlds (p : Port) : List Fld :=
  [.kw p.state.kw, classFld p.cls, optNat p.ratio, optNat p.lastMeas, deviationFld p.lastMeas,
   natFld p.agree, natFld p.relock, natFld p.lockLoss]

/-- PORT? (R28). -/
def reqPortQuery (args : List Tok) (s : State) : Answer :=
  match args with
  | [] => okReply (allPorts.flatMap fun i => [.kw s.ports[i].state.kw, classFld s.ports[i].cls]) s
  | [t] => withIndex .IN 6 t s fun i => okReply (portFlds s.ports[i]) s
  | [t, .kw .CLEAR] =>
    withIndex .IN 6 t s fun i =>
      okReply (portFlds s.ports[i]) (s.updPort i fun p => { p with lockLoss := 0 })
  | _ => refuse .synErr s

/-- The defined programme whose list holds a lane. -/
def State.ownerOf (s : State) (k : LaneId) : Option ProgId :=
  allProgs.find? fun p => decide (s.pgms[p].ctl.state ≠ .undefined ∧ k ∈ s.pgms[p].ctl.lanes)

/-- A source argument: unreadable, out of range, or a source with `none` for NONE. -/
def readSource (t : Tok) : Option (Option (Option Source)) :=
  match t with
  | .kw .NONE => some (some none)
  | .src p c =>
    match asFin 6 p, asFin 8 c with
    | some p, some c => some (some (some { port := p, chan := c }))
    | _, _ => some none
  | _ => none

/-- R32: a lane re-evaluated against the port its current source now names. -/
def reevaluate (k : LaneId) (s : State) : State :=
  let s1 := s.updLane k fun l =>
    let good := s.sourceGood l
    let l1 := match s.portOf l with
      | some p => if good then l.centred p else l
      | none => l
    { (l1.settle good none) with lc := s.lcFor l }
  recomputeAll s1

/-- LANE SET (R32). -/
def setLane (k : LaneId) (main backup : Option Source) (s : State) : Answer :=
  let running : Bool := match s.ownerOf k with
    | some p => decide (s.pgms[p].ctl.state = .running)
    | none => false
  if running = true ∨ (s.lanes[k].current = .backup ∧ backup = none) then refuse .state s
  else
    okReply []
      (reevaluate k ((formLane s k).updLane k fun l => { l with main := main, backup := backup }))

def reqLaneSet (args : List Tok) (s : State) : Answer :=
  let go := fun (t m b : Tok) =>
    match readSource m, readSource b with
    | some m, some b =>
      withIndex .L 24 t s fun k =>
        match m, b with
        | some m, some b => setLane k m b s
        | _, _ => refuse .range s
    | _, _ => refuse .synErr s
  match args with
  | [t, m] => go t m (.kw .NONE)
  | [t, m, b] => go t m b
  | _ => refuse .synErr s

/-- R37: the fields of one lane. -/
def laneFlds (l : Lane) : List Fld :=
  [match l.main with
    | some x => x.fld
    | none => .kw .NONE,
   optFld Source.fld l.backup, .kw l.current.kw, boolFld .YES .NO l.valid, .kw l.fade.kw, natFld l.lc,
   natFld l.slips]

/-- LANE? (R37). -/
def reqLaneQuery (args : List Tok) (s : State) : Answer :=
  match args with
  | [] =>
    okReply (allLanes.flatMap fun k => [.kw s.lanes[k].current.kw, boolFld .YES .NO s.lanes[k].valid]) s
  | [t] => withIndex .L 24 t s fun k => okReply (laneFlds s.lanes[k]) s
  | [t, .kw .CLEAR] =>
    withIndex .L 24 t s fun k =>
      okReply (laneFlds s.lanes[k]) (s.updLane k fun l => { l with slips := 0 })
  | _ => refuse .synErr s

end Sys2Proof.Machine
end

