-- ==== Sys2Proof/Machine/Meter.lean ====
section
/-! DEFINITION. The loudness meter (05): the words it takes, the close of a sub-block, integration resets, and the requests
MTR?, MTR? BINS and MTR RESET. -/

namespace Sys2Proof.Machine

/-! ### The words of one house sample (R83 to R87) -/

/-- R84: one word through every lane's filter, and y² added to its accumulator (R86). -/
def Meter.filterWords (m : Meter) (words : List Sample) : Meter :=
  let runs := List.zipWith (fun f w => Filter.run f (realOf w)) m.filters words
  { m with filters := runs.map (·.1),
           energies := List.zipWith (fun e (r : Filter × Rat) => e + r.2 ^ 2) m.energies runs }

/-- R86: the correlation sums, for a programme of two or more lanes. -/
def Meter.correlate (m : Meter) (words : List Sample) : Meter :=
  match words with
  | a :: b :: _ =>
    { m with sum00 := m.sum00 + a.toInt ^ 2, sum11 := m.sum11 + b.toInt ^ 2,
             sum01 := m.sum01 + a.toInt * b.toInt }
  | _ => m

/-- R83, R86, R87: what the meter takes at a house sample: the lanes' words in layout order, whether a lane is invalid,
and whether the mode is BYPASS. -/
def Meter.take (m : Meter) (words : List Sample) (anyInvalid bypass : Bool) : Meter :=
  let m1 := (m.filterWords words).correlate words
  { m1 with laneInvalid := m.laneInvalid || anyInvalid, bypassSeen := m.bypassSeen || bypass }

/-! ### The close (R87 to R93) -/

/-- R87, for a RUNNING programme. -/
def Meter.isValid (m : Meter) (short : Bool) : Bool :=
  m.covered && !m.laneInvalid && !m.bypassSeen && !short

/-- R85, R88: the energy of a sub-block. -/
def subBlockEnergy (l : Layout) (energies : List Rat) : Rat :=
  ((energies.zipIdx).foldl (fun acc e => acc + channelWeight l e.2 * e.1) 0) / 4800

/-- R89: an energy joins the ring as its newest entry. -/
def pushRing (ring : List Rat) (e : Rat) : List Rat :=
  if ring.length < 30 then ring ++ [e] else ring.drop 1 ++ [e]

/-- R89: the mean of the newest `n` entries, once the ring holds `n`. -/
def ringMean (ring : List Rat) (n : Nat) : Option Rat :=
  if ring.length < n then none
  else some ((ring.drop (ring.length - n)).foldl (· + ·) 0 / n)

/-- R91: whether a level is admitted. -/
def isAdmitted (lm : Option Int) : Bool :=
  match lm with
  | some x => decide (-7000 ≤ x)
  | none => false

/-- R91, R92: a present level is offered for admission, and an admission forms L_i afresh. -/
def Meter.enterBin (m : Meter) : Meter :=
  match m.lm with
  | none => m
  | some x =>
    if x < -7000 then m
    else
      let bins := m.bins.setIfInBounds (binOf x) (countUp Config.count32 (m.bins.getD (binOf x) 0))
      { m with bins := bins, admitted := countUp Config.count32 m.admitted,
               li := integratedLevel bins.toList }

/-- R88 steps 2 to 4. -/
def Meter.measure (m : Meter) (l : Layout) (valid : Bool) : Meter :=
  if valid then
    let ring := pushRing m.ring (subBlockEnergy l m.energies)
    { m with ring := ring, lm := (ringMean ring 4).map levelOf,
             ls := (ringMean ring 30).map levelOf }.enterBin
  else { m with lm := none, ls := none }

/-- R93. -/
def Meter.correlationNow (m : Meter) (valid : Bool) : Corr :=
  if valid = true ∧ 2 ≤ m.energies.length then correlation m.sum00 m.sum11 m.sum01 else .absent

/-- R86: the accumulators and flags for the next sub-block. -/
def Meter.startSubBlock (m : Meter) (anyInvalid bypass : Bool) : Meter :=
  { m with energies := m.energies.map fun _ => 0, sum00 := 0, sum11 := 0, sum01 := 0, covered := true,
           laneInvalid := anyInvalid, bypassSeen := bypass }

/-- R88: a close of one RUNNING programme: the record after it, and the report with the gain figures still to be filled
in (R95, R109). -/
def Meter.close (m : Meter) (l : Layout) (number : Nat) (short anyInvalid bypass : Bool) : Meter × Report :=
  let valid := m.isValid short
  let m1 := m.measure l valid
  let corr := m.correlationNow valid
  let m2 := { m1.startSubBlock anyInvalid bypass with corr := corr, lastReport := some (number, valid) }
  (m2, { number := number, valid := valid, lm := m2.lm, ls := m2.ls, li := m2.li,
         admission := valid && isAdmitted m2.lm, corr := corr, clip := m.clip,
         preset := 0, gStar := 0, g := 0, mNew := Config.unity, hold := .nothing })

/-- R96: an integration reset. -/
def Meter.integrationReset (m : Meter) : Meter :=
  { m with bins := Vector.replicate 300 0, admitted := 0, li := none }

/-- R96 for a programme: it reaches the meter of a RUNNING programme only. -/
def integrationReset (p : ProgId) (s : State) : State :=
  if s.pgms[p].ctl.state = .running then s.updMtr p Meter.integrationReset else s

/-- R94: the clip count after `n` saturated words. -/
def Meter.clipped (m : Meter) (n : Nat) : Meter := { m with clip := min Config.count16 (m.clip + n) }

/-- R3: what a sub-block close carries: its number and the count of its samples. -/
structure Close where
  number : Nat
  samples : Nat
  deriving DecidableEq, Repr

/-- R3: the close in this house sample: 4,800 samples, but at the wrap of HC what is left of 2^48 (log entry 45). -/
def State.closeNow (s : State) : Close :=
  if s.hc.toNat < Config.subBlock then
    { number := 2 ^ 48 / Config.subBlock + 1, samples := 2 ^ 48 % Config.subBlock }
  else { number := s.hc.toNat / Config.subBlock, samples := Config.subBlock }

/-- R3: a close of fewer samples than a sub-block holds is short. -/
def Close.isShort (c : Close) : Bool := decide (c.samples < Config.subBlock)

/-- Whether a lane of the programme is invalid at the house sample in progress. -/
def State.anyLaneInvalid (s : State) (p : ProgId) : Bool :=
  s.pgms[p].ctl.lanes.any fun k => !s.laneValidNow k

/-! ### Requests -/

def corrFlds : Corr → List Fld
  | .absent => [.dash]
  | .undefined => [.num 0, .kw .U]
  | .value c => [.num c]

/-- R99. -/
def meterFlds (g : Pgm) : List Fld :=
  let m := g.mtr
  [.kw g.ctl.state.kw, optInt m.lm, optInt m.ls, optInt m.li, natFld m.admitted, natFld m.ring.length]
    ++ (match m.lastReport with
        | some r => [natFld r.1, boolFld .VALID .INVALID r.2]
        | none => [.dash, .dash])
    ++ corrFlds m.corr ++ [natFld m.clip]

/-- MTR? (R99). -/
def reqMtrQuery (args : List Tok) (s : State) : Answer :=
  match args with
  | [t] => withProg t s fun p => okReply (meterFlds s.pgms[p]) s
  | _ => refuse .synErr s

/-- R100: the counts from a first bin. -/
def binFlds (m : Meter) (first : Nat) : List Fld :=
  natFld first :: ((m.bins.toList.drop first).take 10).map natFld

/-- MTR? BINS (R100). -/
def reqMtrBinsQuery (args : List Tok) (s : State) : Answer :=
  match args with
  | [t, b] =>
    match Tok.int? b with
    | none => refuse .synErr s
    | some b =>
      let x := clampNote 0 299 b
      withProg t s fun p => okClamped (binFlds s.pgms[p].mtr x.1.toNat) x.2 s
  | _ => refuse .synErr s

/-- MTR RESET (R96). -/
def reqMtrReset (args : List Tok) (s : State) : Answer :=
  match args with
  | [t] =>
    withProg t s fun p =>
      if s.pgms[p].ctl.state = .undefined then refuse .state s
      else okReply [] (integrationReset p s)
  | _ => refuse .synErr s

end Sys2Proof.Machine
end

