-- ==== Sys2Proof/Machine/Gain.lean ====
section
/-! DEFINITION. Presets and gain correction (06): the preset table, the preset stacks, the gain at a close, the multiplier
ramp, the mode switches, SUB_BLOCK_CLOSE and MULTIPLIER_RAMP_END, and the PRESET requests. -/

namespace Sys2Proof.Machine

/-! ### The stack and the preset in force (R105 to R107) -/

/-- The preset at the top of a stack. -/
def Correction.top (c : Correction) : PresetId := c.stack.getLastD 0

/-- The record in force for a programme. -/
def State.presetOf (s : State) (p : ProgId) : Preset := s.presets[s.pgms[p].cor.top]

/-- R106: a recall. -/
def Correction.recall (c : Correction) (n : PresetId) : Correction := { c with stack := c.stack.dropLast ++ [n] }

/-- R106: a push. -/
def Correction.push (c : Correction) (n : PresetId) : Correction :=
  if c.stack.length < 4 then { c with stack := c.stack ++ [n] }
  else { c with stack := c.stack.drop 1 ++ [n], overflow := countUp Config.count16 c.overflow }

/-- R107: a pop at depth 2 or more. -/
def Correction.pop (c : Correction) : Correction := { c with stack := c.stack.dropLast }

/-- A gain clamped into the range of a preset, −C..+B. -/
def Preset.clampGain (r : Preset) (g : Int) : Int := clampInt (-r.cut) r.boost g

/-! ### Preset changes (R108) -/

/-- R113: the applied gain takes a value, and m_new becomes its multiplier. -/
def Correction.setGain (c : Correction) (g : Int) : Correction :=
  if g = c.g then c else { c with g := g, mNew := multiplierOf g }

/-- R108: both gains are clamped into a preset's range. -/
def Correction.clampTo (c : Correction) (r : Preset) : Correction :=
  let c1 := c.setGain (r.clampGain c.g)
  { c1 with gStar := r.clampGain c.gStar }

/-- R108 after the clamp, by the state and mode of the programme: a RUNNING programme in FULL restarts its ramp at the
next house sample; in BYPASS the multiplier in use is m_new (log entry 35). -/
def Correction.follow (c : Correction) (st : PgmState) (m : Mode) : Correction :=
  match st, m with
  | .running, .full => { c with restart := true }
  | .running, .bypass => { c with multNow := c.mNew }
  | _, _ => c

/-- R108: a preset change of a programme. -/
def presetChange (p : ProgId) (s : State) : State :=
  let g := s.pgms[p]
  s.updCor p fun c => (c.clampTo (s.presetOf p)).follow g.ctl.state g.ctl.mode

def recallOn (p : ProgId) (n : PresetId) (s : State) : State :=
  presetChange p (s.updCor p fun c => c.recall n)

def pushOn (p : ProgId) (n : PresetId) (s : State) : State :=
  presetChange p (s.updCor p fun c => c.push n)

def popOn (p : ProgId) (s : State) : State := presetChange p (s.updCor p Correction.pop)

/-- R107: a pop from a take entry or a BREAK release, and whether it was applied. -/
def popOrCount (p : ProgId) (s : State) : State × Bool :=
  if 2 ≤ s.pgms[p].cor.stack.length then (popOn p s, true)
  else (s.updCor p fun c => { c with underflow := countUp Config.count16 c.underflow }, false)

/-! ### The gain at a close (R109 to R112) -/

/-- R110, FREEZE. -/
def State.frozen (s : State) (p : ProgId) : Bool :=
  allPoints.any fun n =>
    let x := s.points[n]
    decide (x.cfg.action = .freeze ∧ x.cfg.subject = .pgm p ∧ (x.state = .active ∨ x.state = .forced))

/-- R110, HOLD. -/
def State.heldByLine (s : State) (p : ProgId) : Bool :=
  allLines.any fun l =>
    match s.gpis[l].cfg.func with
    | .hold ps => decide (p ∈ ps) && s.gpis[l].level
    | _ => false

/-- R110: a level is absent for the mode of a preset. -/
def Report.lacksLevel (r : Report) (m : GainMode) : Bool :=
  match m with
  | .off => false
  | .short => r.ls.isNone
  | .integrated => r.li.isNone

/-- R110: L_m is absent or below the silence threshold. -/
def Report.isSilent (r : Report) (threshold : Int) : Bool :=
  match r.lm with
  | none => true
  | some x => decide (x < threshold)

/-- R110: the hold cause of a programme in FULL, the first that is true. -/
def holdCause (r : Report) (pre : Preset) (frozen held : Bool) : HoldCause :=
  if r.lacksLevel pre.mode then .absent
  else if r.isSilent pre.silence then .silence
  else if frozen then .freeze
  else if held then .hold
  else .nothing

/-- R111: the desired gain. -/
def desiredGain (r : Report) (pre : Preset) : Int :=
  pre.clampGain
    (match pre.mode with
      | .off => 0
      | .short => pre.target - r.ls.getD 0
      | .integrated => pre.target - r.li.getD 0)

/-- R112: the applied gain after one step. -/
def stepGain (pre : Preset) (gStar g : Int) : Int :=
  if gStar < g then max gStar (g - pre.attack / 10)
  else if g < gStar then min gStar (g + pre.release / 10)
  else g

/-- R114: the ramp restarted at once, from the multiplier in use. -/
def Correction.restartRamp (c : Correction) : Correction :=
  { c with mOld := c.multNow, rampTo := c.mNew, rampPos := 0, restart := false }

/-- R109: the correction record at a report. -/
def Correction.atReport (c : Correction) (r : Report) (pre : Preset) (mode : Mode) (frozen held : Bool) :
    Correction :=
  match mode with
  | .full =>
    let cause := holdCause r pre frozen held
    if cause = .nothing then
      let gStar := desiredGain r pre
      ({ c with gStar := gStar, hold := cause }.setGain (stepGain pre gStar c.g)).restartRamp
    else { c with hold := cause }
  | _ => { c with hold := .mode }

/-- R109: the gain figures added to a report. -/
def Report.complete (r : Report) (c : Correction) : Report :=
  { r with preset := c.top, gStar := c.gStar, g := c.g, mNew := c.mNew, hold := c.hold }

/-- R88, R109 for one programme at a close. -/
def closePgm (c : Close) (s : State) (p : ProgId) : State :=
  let g := s.pgms[p]
  if g.ctl.state = .running then
    let mr := g.mtr.close g.ctl.layout c.number c.isShort (s.anyLaneInvalid p) (decide (g.ctl.mode = .bypass))
    let cor := g.cor.atReport mr.2 (s.presetOf p) g.ctl.mode (s.frozen p) (s.heldByLine p)
    (s.updPgm p fun g => { g with mtr := mr.1, cor := cor }).setReport p (some (mr.2.complete cor))
  else s.setReport p none

/-- SUB_BLOCK_CLOSE (R3, R88, R109): the reports of every RUNNING programme are formed and completed, and the scan of this
close is due (R95). -/
def subBlockClose (s : State) : State :=
  if s.closeDue then
    let s1 := allProgs.foldl (closePgm s.closeNow) s
    { s1 with closeDue := false, scanDue := true }
  else s

/-! ### The ramp (R114) and the mode switches (R116) -/

/-- R114: the multiplier in use at the house sample in progress. -/
def Correction.multiplier (c : Correction) : Nat := rampMultiplier c.mOld c.rampTo c.rampPos

/-- R114: the record after a house sample of a RUNNING programme in FULL. A preset change taken at that sample restarts
the ramp for the next. -/
def Correction.tick (c : Correction) : Correction :=
  let c1 := { c with multNow := c.multiplier, rampPos := min Config.rampLen (c.rampPos + 1) }
  if c1.restart then c1.restartRamp else c1

/-- R116: the record at a mode switch. -/
def Correction.enterMode (c : Correction) (m : Mode) : Correction :=
  match m with
  | .delay => { c with multNow := Config.unity, rampPos := Config.rampLen, restart := false }
  | .bypass => { c with multNow := c.mNew, rampPos := Config.rampLen, restart := false }
  | .full => { c with mOld := c.mNew, rampTo := c.mNew, multNow := c.mNew, rampPos := Config.rampLen,
                      restart := false }

/-- MULTIPLIER_RAMP_END (R114): after ramp position 4,799 the multiplier in use is that of the ramp's end. -/
def multiplierRampEnd (p : ProgId) (s : State) : State :=
  let g := s.pgms[p]
  if g.ctl.state = .running ∧ g.ctl.mode = .full ∧ Config.rampLen ≤ g.cor.rampPos then
    s.updCor p fun c => { c with multNow := c.rampTo }
  else s

/-! ### Requests -/

/-- A record under edit by PRESET SET, and whether a value was changed by clamping or cutting (R103). -/
structure PresetEdit where
  preset : Preset
  clamped : Bool

/-- R103: a value clamped into a field's range and written. -/
def PresetEdit.write (e : PresetEdit) (lo hi x : Int) (f : Int → Preset → Preset) : PresetEdit :=
  { preset := f (clampInt lo hi x) e.preset, clamped := e.clamped || decide (clampInt lo hi x ≠ x) }

/-- R103: a rate is clamped and cut down to a multiple of 10. -/
def cutRate (x : Int) : Int := clampInt 10 3000 x / 10 * 10

def PresetEdit.writeRate (e : PresetEdit) (x : Int) (f : Int → Preset → Preset) : PresetEdit :=
  { preset := f (cutRate x) e.preset, clamped := e.clamped || decide (cutRate x ≠ x) }

/-- R103: one field keyword and its value; `none` where either cannot be read. DESIGN CHOICE (log entry 72): each number may
carry a plus sign. -/
def PresetEdit.field (e : PresetEdit) (k v : Tok) : Option PresetEdit :=
  match k with
  | .kw .MODE => (Tok.gainMode? v).map fun m => { e with preset := { e.preset with mode := m } }
  | .kw .TARGET => (Tok.signed? v).map fun x => e.write (-4000) (-500) x fun x r => { r with target := x }
  | .kw .BOOST => (Tok.signed? v).map fun x => e.write 0 1200 x fun x r => { r with boost := x }
  | .kw .CUT => (Tok.signed? v).map fun x => e.write 0 3000 x fun x r => { r with cut := x }
  | .kw .ATTACK => (Tok.signed? v).map fun x => e.writeRate x fun x r => { r with attack := x }
  | .kw .RELEASE => (Tok.signed? v).map fun x => e.writeRate x fun x r => { r with release := x }
  | .kw .SILENCE =>
    (Tok.signed? v).map fun x => e.write (-7000) (-2000) x fun x r => { r with silence := x }
  | _ => none

/-- R103: the field keywords of a request, each followed by its value. DESIGN CHOICE (log entry 50): of a keyword named
twice the later value stands, and a clamp of either value is answered CLAMPED. -/
def PresetEdit.fields (e : PresetEdit) : List Tok → Option PresetEdit
  | [] => some e
  | k :: v :: rest =>
    match e.field k v with
    | some e1 => e1.fields rest
    | none => none
  | _ => none

/-- R104: the seven fields of a record. -/
def presetFlds (r : Preset) : List Fld :=
  [.num r.target, .num r.boost, .num r.cut, .num r.attack, .num r.release, .num r.silence, .kw r.mode.kw]

/-- R103: a record written, and a preset change for every defined programme that has it at the top. -/
def writePreset (n : PresetId) (r : Preset) (s : State) : State :=
  allProgs.foldl
    (fun s p =>
      if s.pgms[p].ctl.state ≠ .undefined ∧ s.pgms[p].cor.top = n then presetChange p s else s)
    (s.updPreset n fun _ => r)

/-- PRESET SET (R103): RANGE, then SYNTAX, also where no field is named (log entry 33). -/
def reqPresetSet (args : List Tok) (s : State) : Answer :=
  match args with
  | t :: k :: rest =>
    withIndex .PS 16 t s fun n =>
      match ({ preset := s.presets[n], clamped := false } : PresetEdit).fields (k :: rest) with
      | none => refuse .synErr s
      | some e => okClamped (presetFlds e.preset) e.clamped (writePreset n e.preset s)
  | [t] => withIndex .PS 16 t s fun _ => refuse .synErr s
  | [] => refuse .synErr s

/-- R105: a request that names a programme and a preset. -/
def withPreset (t u : Tok) (s : State) (f : ProgId → PresetId → Answer) : Answer :=
  match Tok.index? .PS u with
  | none => refuse .synErr s
  | some x =>
    withProg t s fun p =>
      match asFin 16 x with
      | none => refuse .range s
      | some n => if s.pgms[p].ctl.state = .undefined then refuse .state s else f p n

/-- The depth of a programme's stack. -/
def State.depth (s : State) (p : ProgId) : Nat := s.pgms[p].cor.stack.length

/-- PRESET RECALL (R106). -/
def reqPresetRecall (args : List Tok) (s : State) : Answer :=
  match args with
  | [t, u] => withPreset t u s fun p n => okReply [natFld ((recallOn p n s).depth p)] (recallOn p n s)
  | _ => refuse .synErr s

/-- PRESET PUSH (R106). -/
def reqPresetPush (args : List Tok) (s : State) : Answer :=
  match args with
  | [t, u] => withPreset t u s fun p n => okReply [natFld ((pushOn p n s).depth p)] (pushOn p n s)
  | _ => refuse .synErr s

/-- PRESET POP (R107). -/
def reqPresetPop (args : List Tok) (s : State) : Answer :=
  match args with
  | [t] =>
    withProg t s fun p =>
      if s.pgms[p].ctl.state = .undefined ∨ s.depth p < 2 then refuse .state s
      else okReply [natFld ((popOn p s).depth p)] (popOn p s)
  | _ => refuse .synErr s

/-- PRESET? with a preset number (R104). -/
def reqPresetQuery (args : List Tok) (s : State) : Answer :=
  match args with
  | [t] => withIndex .PS 16 t s fun n => okReply (presetFlds s.presets[n]) s
  | _ => refuse .synErr s

/-- R104: the correction record of a programme. -/
def correctionFlds (g : Pgm) : List Fld :=
  if g.ctl.state = .undefined then List.replicate 8 .dash
  else
    [finsFld g.cor.stack, natFld g.cor.overflow, natFld g.cor.underflow, .num g.cor.gStar, .num g.cor.g,
     natFld g.cor.multNow, natFld g.cor.mNew, .kw g.cor.hold.kw]

/-- PRESET? PGM (R104). -/
def reqPresetPgmQuery (args : List Tok) (s : State) : Answer :=
  match args with
  | [t] => withProg t s fun p => okReply (correctionFlds s.pgms[p]) s
  | [t, .kw .CLEAR] =>
    withProg t s fun p =>
      okReply (correctionFlds s.pgms[p]) (s.updCor p fun c => { c with overflow := 0, underflow := 0 })
  | _ => refuse .synErr s

end Sys2Proof.Machine
end

