-- ==== Sys2Proof/Machine/Probe.lean ====
section
/-! DEFINITION. The offset probe (07): arming, the marker, the search for onsets, its ends, and the requests PRB ARM,
PRB CANCEL and PRB?. -/

namespace Sys2Proof.Machine

/-- The probe records: ARMED or SEARCHING. -/
def ProbeState.isBusy : ProbeState → Bool
  | .armed | .searching => true
  | _ => false

/-! ### Envelope windows and onsets (R125, R126) -/

/-- The word of greatest magnitude, the first of several. -/
def greatest (w : Sample) (words : List Sample) : Sample :=
  words.foldl (fun best x => if magnitude best < magnitude x then x else best) w

/-- The sum of the squares of a window's words. -/
def sumSquares (words : List Sample) : Nat := words.foldl (fun acc w => acc + magnitude w ^ 2) 0

/-- R126: one more window of an onset's peak span. -/
def Onset.extend (o : Onset) (words : List Sample) : Onset :=
  if o.left = 0 then o else { o with peak := greatest o.peak words, left := o.left - 1 }

/-- R126: the record of an onset window whose first word lies `loc` samples after the marker. -/
def onsetAt (words : List Sample) (threshold loc : Int) : Onset :=
  { location := loc + words.findIdx fun w => reachesThreshold w threshold,
    peak := greatest (words.headD 0) words, left := 4 }

/-- R125, R126: one whole window, its words oldest first. -/
def Probe.examine (p : Probe) (words : List Sample) (loc : Int) : Probe :=
  let loud := isLoud (sumSquares words) p.threshold
  let p1 := { p with onsets := p.onsets.map fun o => o.extend words, windows := p.windows + 1,
                     quiet := if loud then 0 else p.quiet + 1 }
  if loud ∧ 10 ≤ p.quiet then
    { p1 with seen := p.seen + 1,
              onsets := if p.onsets.length < 4 then p1.onsets ++ [onsetAt words p.threshold loc]
                        else p1.onsets }
  else p1

/-- R123: the words of the region, from its start to t + W inclusive. -/
def Probe.regionLength (p : Probe) : Nat :=
  match p.region, p.t with
  | some r, some t => samplesFrom r (hcLater t p.w) + 1
  | _, _ => 0

/-- The words of the region taken by house sample `h`. -/
def Probe.taken (p : Probe) (h : HouseCount) : Nat :=
  match p.region with
  | some r => min (samplesFrom r h) p.regionLength
  | none => 0

/-- R123, R126: the next whole window, when its 48 words have been taken. `newer` is the number of words the ring holds
that were recorded after the region. -/
def Probe.examineNext (h : HouseCount) (p : Probe) (newer : Nat := 0) : Probe :=
  let stop := Config.envelopeLen * (p.windows + 1)
  match p.region, p.t with
  | some r, some t =>
    if stop ≤ p.taken h then
      p.examine ((p.ring.drop (newer + (p.taken h - stop))).take Config.envelopeLen).reverse
        ((r - t).toInt + Config.envelopeLen * p.windows)
    else p
  | _, _ => p

/-- Up to `n` windows in order. -/
def Probe.examineMany (h : HouseCount) (newer : Nat) : Nat → Probe → Probe
  | 0, p => p
  | n + 1, p => Probe.examineMany h newer n (p.examineNext h newer)

/-- Every whole window of the region the ring holds. -/
def Probe.examineHeld (h : HouseCount) (p : Probe) (newer : Nat := 0) : Probe :=
  p.examineMany h newer (p.taken h / Config.envelopeLen - p.windows)

/-- R123: the record at the marker `t`, delivered at house sample `d`, before any window is examined. -/
def Probe.mark (t d : HouseCount) (p : Probe) : Probe :=
  let back := min (min (samplesFrom t d + p.w) (samplesFrom (p.armAt.getD d) d)) Config.probeRing
  { p with state := .searching, t := some t, region := some (d - BitVec.ofNat 48 back), expiry := none }

/-- R123: the region start lies after t + W. -/
def Probe.noRegion (t d : HouseCount) (p : Probe) : Bool :=
  decide (samplesFrom (p.armAt.getD d) d + p.w < samplesFrom t d ∨
    Config.probeRing + p.w < samplesFrom t d)

/-! ### Outcomes (R127 to R130) -/

/-- R126: the fields of an onset record: location, peak, polarity. -/
def Onset.flds (o : Onset) : List Fld :=
  [.num o.location, .num (peakLevel o.peak), boolFld .POS .NEG (decide (0 < o.peak.toInt))]

/-- R130: a PROBE notice. DESIGN CHOICE (log entry 81): the programme is written as its number alone. -/
def probeNotice (s : State) : State :=
  let p := s.probe
  s.notify .probe
    ([.kw p.state.kw, optFld finFld p.pgm, optBv p.t,
      (match p.region, p.t with
        | some r, some t => .num (r - t).toInt
        | _, _ => .dash),
      natFld p.seen]
      ++ (match p.onsets with
          | o :: _ => o.flds
          | [] => [.dash, .dash, .dash])
      ++ [optInt p.trimWritten, optFld (fun c => .kw (CancelCause.kw c)) p.cancel])

/-- R128: the trim is written as −m. -/
def probeTrim (m : Int) (s : State) : State :=
  match s.probe.pgm with
  | some p =>
    let s1 := (writeTrim p (-m) s).1
    s1.updProbe fun r => { r with trimWritten := some s1.pgms[p].dly.o }
  | none => s

/-- R127: the outcome of a search whose windows have all been examined. -/
def probeOutcome (s : State) : State :=
  match s.probe.onsets with
  | [] => probeNotice (s.updProbe fun p => { p with state := .noOnset })
  | o :: _ =>
    let s1 := s.updProbe fun p => { p with state := .done }
    probeNotice (if s.probe.trim then probeTrim o.location s1 else s1)

/-- R123: the words of the ring recorded after t + W, where that lies before the house sample `d` of the delivery. -/
def Probe.newerThanRegion (t d : HouseCount) (p : Probe) : Nat := samplesFrom t d - (p.w + 1)

/-- R123: a change of a line to asserted, with its timestamp, reaches the probe. -/
def probeMarker (l : LineId) (t : HouseCount) (s : State) : State :=
  let d := s.hc
  if s.probe.state = .armed ∧ s.probe.marker = some l then
    if s.probe.noRegion t d then probeOutcome (s.updProbe fun p => p.mark t d)
    else
      let s1 := s.updProbe fun p => (p.mark t d).examineHeld d (p.newerThanRegion t d)
      if s.probe.w < samplesFrom t d then probeOutcome s1 else s1
  else s

/-- R122, R127: the word of lane 0 joins the ring while the probe records, up to the word of t + W. -/
def Probe.record (h : HouseCount) (w : Sample) (p : Probe) : Probe :=
  match p.state with
  | .armed => { p with ring := (w :: p.ring).take Config.probeRing }
  | .searching =>
    if samplesFrom (p.t.getD h) h ≤ p.w then { p with ring := (w :: p.ring).take Config.probeRing } else p
  | _ => p

/-- R129: a measurement on a programme is cancelled. -/
def cancelProbe (p : ProgId) (cause : CancelCause) (s : State) : State :=
  if s.probe.state.isBusy = true ∧ s.probe.pgm = some p then
    probeNotice (s.updProbe fun r => { r with state := .cancelled, expiry := none, cancel := some cause })
  else s

/-- ENVELOPE_WINDOW (R125, R126), when the 48th word of a window has been taken. -/
def envelopeWindow (s : State) : State :=
  if s.probe.state = .searching then s.updProbe fun p => p.examineNext s.hc else s

/-- PROBE_SEARCH_COMPLETE (R127), when the word of t + W has been taken. -/
def probeSearchComplete (s : State) : State :=
  if s.probe.state = .searching ∧ s.probe.w < samplesFrom (s.probe.t.getD s.hc) s.hc then
    probeOutcome (s.updProbe fun p => p.examineHeld s.hc)
  else s

/-- PROBE_TIMEOUT (R124), when the timeout expiry has been reached. -/
def probeTimeout (s : State) : State :=
  match s.probe.expiry with
  | some e =>
    if s.probe.state = .armed ∧ hcNotBefore e s.hc = true then
      probeNotice (s.updProbe fun p => { p with state := .timeout, expiry := none })
    else s
  | none => s

/-! ### Requests -/

/-- The settings PRB ARM names (R121). -/
structure ProbeSettings where
  pgm : ProgId
  marker : LineId
  w : Int
  threshold : Int
  timeout : Int
  trim : Bool

/-- R121: the arguments of PRB ARM as read. DESIGN CHOICE (log entry 85): W and the timeout, which are not signed, are read with a
minus sign too, and such a number is clamped. -/
def readProbe (args : List Tok) : Option ProbeSettings :=
  let go := fun (p l w th tm : Tok) (trim : Bool) =>
    match Tok.fin? .P 8 p, Tok.fin? .G 8 l, Tok.int? w, Tok.signed? th, Tok.int? tm with
    | some p, some l, some w, some th, some tm =>
      some { pgm := p, marker := l, w := w, threshold := th, timeout := tm, trim := trim }
    | _, _, _, _, _ => none
  match args with
  | [p, l, w, th, tm] => go p l w th tm false
  | [p, l, w, th, tm, .kw .TRIM] => go p l w th tm true
  | _ => none

/-- R121: the probe's record after an arm at house sample `a`. -/
def armedProbe (x : ProbeSettings) (a : HouseCount) : Probe :=
  let timeout := (clampInt 1 600 x.timeout).toNat
  { state := .armed, pgm := some x.pgm, marker := some x.marker, w := (clampInt 480 24000 x.w).toNat,
    threshold := clampInt (-6000) (-1000) x.threshold, timeout := timeout, trim := x.trim,
    armAt := some a, expiry := some (hcLater a (48000 * timeout)), ring := [], t := none, region := none,
    windows := 0, quiet := 0, onsets := [], seen := 0, cancel := none, trimWritten := none }

/-- PRB ARM (R121). -/
def reqPrbArm (args : List Tok) (s : State) : Answer :=
  withArgs (outside .P 8 args[0]? || outside .G 8 args[1]?) (readProbe args) s fun x =>
    if s.probe.state.isBusy then refuse .busy s
    else if s.pgms[x.pgm].ctl.state ≠ .running then refuse .state s
    else
      let p := armedProbe x s.hc
      okClamped [natFld p.w, .num p.threshold, natFld p.timeout]
        (decide ((p.w : Int) ≠ x.w ∨ p.threshold ≠ x.threshold ∨ (p.timeout : Int) ≠ x.timeout))
        (s.updProbe fun _ => p)

/-- PRB CANCEL (R129). -/
def reqPrbCancel (args : List Tok) (s : State) : Answer :=
  match args with
  | [] =>
    if s.probe.state.isBusy then
      match s.probe.pgm with
      | some p => okReply [] (cancelProbe p .request s)
      | none => refuse .state s
    else refuse .state s
  | _ => refuse .synErr s

/-- R131: the fields of the probe record. DESIGN CHOICE (log entry 51): an empty onset list gives no field, in IDLE as in
every other state. DESIGN CHOICE (log entry 64): without TRIM the trim option shows as a dash. DESIGN CHOICE (log entry 81): the
programme and the marker line are written as their numbers alone. -/
def probeFlds (p : Probe) : List Fld :=
  if p.state = .idle then .kw p.state.kw :: List.replicate 14 .dash
  else
    [.kw p.state.kw, optFld finFld p.pgm, optFld finFld p.marker, natFld p.w, .num p.threshold,
     natFld p.timeout, if p.trim then .kw .TRIM else .dash, optBv p.armAt, optBv p.expiry,
     natFld p.ring.length, optBv p.t, optBv p.region, natFld p.windows, natFld p.seen]
      ++ p.onsets.flatMap Onset.flds ++ [optFld (fun c => .kw (CancelCause.kw c)) p.cancel]

/-- PRB? (R131). -/
def reqPrbQuery (args : List Tok) (s : State) : Answer :=
  match args with
  | [] => okReply (probeFlds s.probe) s
  | _ => refuse .synErr s

end Sys2Proof.Machine
end

