-- ==== Sys2Proof/Machine/Capture.lean ====
section
/-! DEFINITION. Capture slots (10): recording, triggers, completion, freeing, and the CAP requests. -/

namespace Sys2Proof.Machine

/-! ### Recording and triggers -/

/-- R168: the words of a house sample join the rings; a ring of `room` words loses its oldest. -/
def Slot.record (h : HouseCount) (room : Nat) (words : List Sample) (x : Slot) : Slot :=
  let go := { x with rings := List.zipWith (fun ring w => (w :: ring).take room) x.rings words,
                     recorded := countUp Config.count32 x.recorded }
  match x.state with
  | .armed => go
  | .post => if samplesFrom (x.trigAt.getD h) h < x.post then go else x
  | _ => x

/-- R169, R170: a trigger taken at house sample `h`. -/
def Slot.take (h : HouseCount) (src : TrigSource) (x : Slot) : Slot :=
  { x with state := .post, trigAt := some h, trigSrc := some src, actualPre := some (min x.pre x.recorded) }

/-- R169: whether a slot takes a trigger. -/
def Slot.takes (src : TrigSource) (x : Slot) : Bool := decide (x.state = .armed ∧ src ∈ x.trigs)

/-- R169: a trigger reaches a slot. -/
def trigger (c : SlotId) (src : TrigSource) (s : State) : State :=
  s.updSlot c fun x =>
    if x.takes src then x.take s.hc src else { x with ignored := countUp Config.count16 x.ignored }

/-- R175: a CAP notice. -/
def capNotice (c : SlotId) (reason : Kw) (s : State) : State :=
  let x := s.slots[c]
  s.notify .cap
    ([finFld c, .kw reason, optFld finFld x.pgm, optBv x.trigAt] ++ optFlds TrigSource.flds x.trigSrc
      ++ [optNat x.actualPre, natFld x.post, natFld x.ignored, natFld s.freePages])

/-- CAPTURE_COMPLETE (R171), when the word of trigger HC + post − 1 has been recorded. -/
def captureComplete (c : SlotId) (s : State) : State :=
  let x := s.slots[c]
  if x.state = .post ∧ x.post ≤ samplesFrom (x.trigAt.getD s.hc) s.hc then
    capNotice c .HELD
      (s.updSlot c fun x => { x with state := .held, cursors := x.cursors.map fun _ => 0 })
  else s

/-- R173: what a slot that enters FREE keeps. DESIGN CHOICE (log entry 77): the arm sample and the recorded count, which the
rule's list does not name, are kept too. -/
def Slot.freed (x : Slot) : Slot :=
  { x with state := .free, cursors := x.cursors.map fun _ => 0, rings := [] }

/-- R173, R174: a slot enters FREE, its pages are released and the arbiter serves the waiting list. -/
def freeSlot (c : SlotId) (s : State) : State :=
  arbiter ((s.updSlot c Slot.freed).setOwners (releaseAll (.slot c) s.owners))

/-- R174: the slots of a programme at a park. DESIGN CHOICE (log entry 57): C0 before C1, and the PAGES notices of the
arbiter's service before the CAP notice of the slot. -/
def parkSlots (p : ProgId) (s : State) : State :=
  allSlots.foldl
    (fun s c =>
      if s.slots[c].pgm = some p ∧ s.slots[c].state ≠ .free then capNotice c .PARKED (freeSlot c s) else s) s

/-! ### Requests -/

/-- R167: the words of a trigger set: each source, `none` where its number is out of range. DESIGN CHOICE (log entry 67): the
sources stand as words of their own at the end of the request, ALARM and GPI with their number behind them. -/
def readTrigs : List Tok → Option (List (Option TrigSource))
  | [] => some []
  | .kw .WATCH :: rest => (readTrigs rest).map (some .watch :: ·)
  | .kw .REQUEST :: rest => (readTrigs rest).map (some .request :: ·)
  | .kw .ALARM :: t :: rest =>
    match Tok.index? .A t with
    | some x => (readTrigs rest).map ((asFin 48 x).map .alarm :: ·)
    | none => none
  | .kw .GPI :: t :: rest =>
    match Tok.index? .G t with
    | some x => (readTrigs rest).map ((asFin 8 x).map .gpi :: ·)
    | none => none
  | _ => none

/-- R167: a point or line out of range anywhere in the words of a trigger set. -/
def trigsOutside : List Tok → Bool
  | .kw .ALARM :: t :: rest => outside .A 48 (some t) || trigsOutside rest
  | .kw .GPI :: t :: rest => outside .G 8 (some t) || trigsOutside rest
  | _ :: rest => trigsOutside rest
  | [] => false

/-- R167: a source counts once. DESIGN CHOICE (log entry 56): the set is kept in the order in which its sources are first
named, which is the order CAP? shows. -/
def distinctTrigs (l : List TrigSource) : List TrigSource :=
  l.foldl (fun acc x => if x ∈ acc then acc else acc ++ [x]) []

/-- The settings CAP ARM names. -/
structure CaptureSettings where
  slot : SlotId
  pgm : ProgId
  pre : Int
  post : Int
  mode : SlotMode
  trigs : List TrigSource

def Tok.slotMode? : Tok → Option SlotMode
  | .kw .SINGLE => some .single
  | .kw .REPEAT => some .repeating
  | _ => none

/-- R167: the arguments of CAP ARM as read. -/
def readCapture (args : List Tok) : Option CaptureSettings :=
  match args with
  | c :: p :: pre :: post :: m :: t :: rest =>
    match Tok.fin? .C 2 c, Tok.fin? .P 8 p, Tok.int? pre, Tok.int? post, Tok.slotMode? m,
      (readTrigs (t :: rest)).bind (·.mapM id) with
    | some c, some p, some pre, some post, some m, some trigs =>
      some { slot := c, pgm := p, pre := pre, post := post, mode := m, trigs := distinctTrigs trigs }
    | _, _, _, _, _, _ => none
  | _ => none

/-- R167: the slot's record after an arm at house sample `a` for a programme of `k` lanes. -/
def armedSlot (x : CaptureSettings) (k : Nat) (a : HouseCount) : Slot :=
  { state := .armed, pgm := some x.pgm, lanes := k, pre := (clampInt 0 240000 x.pre).toNat,
    post := (clampInt 4800 480000 x.post).toNat, mode := x.mode, trigs := x.trigs, armAt := some a,
    recorded := 0, trigAt := none, trigSrc := none, actualPre := none, ignored := 0,
    cursors := List.replicate k 0, rings := List.replicate k [] }

/-- CAP ARM (R167). DESIGN CHOICE (log entry 73): the words are told apart by their places, also where one is missing. -/
def reqCapArm (args : List Tok) (s : State) : Answer :=
  withArgs (outside .C 2 args[0]? || outside .P 8 args[1]? || trigsOutside (args.drop 5))
    (readCapture args) s fun x =>
      if s.slots[x.slot].state ≠ .free ∨ s.pgms[x.pgm].ctl.state ≠ .running then refuse .state s
      else
        let r := armedSlot x (s.laneCount x.pgm) s.hc
        let perLane := ceilDiv (r.pre + r.post) Config.pageWords
        let n := perLane * s.laneCount x.pgm
        if s.freePages < n ∨ s.waitingList ≠ [] then refuse .full s
        else
          let s1 := (s.updSlot x.slot fun _ => r).setOwners (attachPages (.slot x.slot) n s.owners)
          okClamped [natFld r.pre, natFld r.post, natFld perLane, natFld s1.freePages]
            (decide ((r.pre : Int) ≠ x.pre ∨ (r.post : Int) ≠ x.post)) s1

/-- A request that names one slot. -/
def withSlot (t : Tok) (s : State) (f : SlotId → Answer) : Answer := withIndex .C 2 t s f

/-- CAP TRIG (R169). -/
def reqCapTrig (args : List Tok) (s : State) : Answer :=
  match args with
  | [t] =>
    withSlot t s fun c =>
      let s1 := trigger c .request s
      okReply [boolFld .TAKEN .IGNORED (s.slots[c].takes .request), .kw s1.slots[c].state.kw] s1
  | _ => refuse .synErr s

/-- R172: the words of a lane of a HELD capture from position `start`, up to `n`. -/
def Slot.words (x : Slot) (lane start n : Nat) : List Sample :=
  let len := x.actualPre.getD 0 + x.post
  let ring := x.rings.getD lane []
  ((List.range n).filter fun i => decide (start + i < len)).map fun i => ring.getD (len - 1 - (start + i)) 0

/-- CAP READ (R172). DEDUCED (log entry 58): a named offset becomes the cursor as it is named, also beyond the end. -/
def readSlot (c : SlotId) (lane : Int) (offset : Option Int) (count : Int) (s : State) : Answer :=
  let x := s.slots[c]
  let lanes := if x.pgm.isNone then 8 else x.lanes
  if lane < 0 ∨ (lanes : Int) ≤ lane ∨ offset.getD 0 < 0 then refuse .range s
  else if x.state ≠ .held then refuse .state s
  else
    let k := lane.toNat
    let n := clampNote 1 24 count
    let start := (offset.map Int.toNat).getD (x.cursors.getD k 0)
    let words := x.words k start n.1.toNat
    let last := decide (x.actualPre.getD 0 + x.post ≤ start + words.length)
    okClamped
      ([finFld c, natFld k, natFld start] ++ words.map Fld.hex ++ (if last then [.kw .END] else [])) n.2
      (s.updSlot c fun x => { x with cursors := x.cursors.set k (start + words.length) })

def reqCapRead (args : List Tok) (s : State) : Answer :=
  match args with
  | [t, lane, n] =>
    match Tok.int? lane, Tok.int? n with
    | some lane, some n => withSlot t s fun c => readSlot c lane none n s
    | _, _ => refuse .synErr s
  | [t, lane, o, n] =>
    match Tok.int? lane, Tok.int? o, Tok.int? n with
    | some lane, some o, some n => withSlot t s fun c => readSlot c lane (some o) n s
    | _, _, _ => refuse .synErr s
  | _ => refuse .synErr s

/-- R173: a HELD slot in REPEAT mode re-enters ARMED at house sample `a`. -/
def Slot.rearm (a : HouseCount) (x : Slot) : Slot :=
  { x with state := .armed, armAt := some a, recorded := 0, cursors := x.cursors.map fun _ => 0,
           trigAt := none, trigSrc := none, actualPre := none }

/-- CAP RELEASE (R173). -/
def reqCapRelease (args : List Tok) (s : State) : Answer :=
  match args with
  | [t] =>
    withSlot t s fun c =>
      if s.slots[c].state ≠ .held then refuse .state s
      else
        let s1 := match s.slots[c].mode with
          | .single => freeSlot c s
          | .repeating => s.updSlot c fun x => x.rearm s.hc
        okReply [.kw s1.slots[c].state.kw, natFld s1.freePages] s1
  | _ => refuse .synErr s

/-- CAP FREE (R174). -/
def reqCapFree (args : List Tok) (s : State) : Answer :=
  match args with
  | [t] =>
    withSlot t s fun c =>
      let s1 := if s.slots[c].state = .free then s else freeSlot c s
      okReply [natFld (s.slotPages c), natFld s1.freePages] s1
  | _ => refuse .synErr s

/-- R175: the fields of a slot; the items an arm writes are absent until the first arm. DESIGN CHOICE (log entry 87): the read cursors
are one field, a list in lane order. -/
def slotFlds (s : State) (c : SlotId) : List Fld :=
  let x := s.slots[c]
  let armed := fun (f : Fld) => if x.pgm.isNone then .dash else f
  [.kw x.state.kw, optFld finFld x.pgm, armed (natFld x.lanes), armed (natFld x.pre),
   armed (natFld x.post), armed (.kw x.mode.kw), armed (.trigs x.trigs), natFld (s.slotPagesPerLane c),
   optBv x.armAt, natFld x.recorded, optBv x.trigAt] ++ optFlds TrigSource.flds x.trigSrc
    ++ [optNat x.actualPre, natFld x.ignored,
        if x.cursors = [] then .num 0 else .nums (x.cursors.map fun n => (n : Int))]

/-- CAP? (R175). -/
def reqCapQuery (args : List Tok) (s : State) : Answer :=
  match args with
  | [] =>
    okReply
      (allSlots.flatMap fun c =>
        [.kw s.slots[c].state.kw, optFld finFld s.slots[c].pgm, natFld (s.slotPagesPerLane c)]) s
  | [t] => withSlot t s fun c => okReply (slotFlds s c) s
  | _ => refuse .synErr s

end Sys2Proof.Machine
end

