-- ==== Sys2Proof/Machine/Path.lean ====
section
/-! DEFINITION. The audio path of one house sample: what the delay line delivers and stores (R66, R67, R73 to R76), the gain
stage (R115), the output fade (R44), and the records of a programme after the sample. -/

namespace Sys2Proof.Machine

/-! ### The delay line -/

/-- R66: the word a lane's line delivers, given the converter word of the house sample. -/
def Delay.deliver (d : Delay) (pos : Nat) (present : Sample) : Sample :=
  match d.dApp + d.padsNow.getD pos 0 with
  | 0 => present
  | n + 1 => if d.dApp ≤ d.hist then (d.lines.getD pos []).getD n 0 else 0

/-- R74, R75: a delivered word through the line's jump fade. -/
def Delay.jumpFade (d : Delay) (w : Sample) : Sample :=
  match d.motion with
  | .fadingDown => fadeDownWord d.jumpPos w
  | .fadingUp => fadeUpWord d.jumpPos w
  | _ => w

/-- R66, R67: the converter words of the house sample are stored, in lines of `pages` pages. -/
def Delay.store (d : Delay) (pages pad : Nat) (words : List Sample) : Delay :=
  { d with lines := List.zipWith (fun l w => (w :: l).take (pages * Config.pageWords)) d.lines words,
           hist := if d.hist < capacity pages pad then d.hist + 1 else d.hist }

/-- R73 to R75: the counts of a motion after a house sample; each stops where its end event is owed. -/
def Delay.tick (d : Delay) : Delay :=
  match d.motion with
  | .slewing => { d with slewCount := min Config.slewPeriod (d.slewCount + 1) }
  | .fadingDown | .fadingUp => { d with jumpPos := min Config.fadeLen (d.jumpPos + 1) }
  | .still => d

/-! ### The words of a programme at the house sample in progress -/

/-- The converter words of the programme's lanes, in layout order (R83). -/
def State.laneWords (s : State) (p : ProgId) : List Sample := s.pgms[p].ctl.lanes.map s.laneWord

/-- R115: a word through the gain stage, by the process mode; whether it was saturated. `conv` is the converter word. -/
def gainStage (g : Pgm) (pos : Nat) (conv : Sample) : Sample × Bool :=
  match g.ctl.mode with
  | .full => gainWord g.cor.multiplier (g.dly.jumpFade (g.dly.deliver pos conv))
  | .delay => (g.dly.jumpFade (g.dly.deliver pos conv), false)
  | .bypass => (conv, false)

/-- R115: the words before the output fade, in layout order, each with its saturation. -/
def gainWords (g : Pgm) (conv : List Sample) : List (Sample × Bool) :=
  (conv.zipIdx).map fun w => gainStage g w.2 w.1

/-- R44: the programme's output fade. The house sample in which PGM RUN is taken carries 0 (R41). -/
def Ctl.fadeWord (c : Ctl) (w : Sample) : Sample :=
  if c.fadeHold then 0
  else
    match c.out with
    | .opened | .waiting => w
    | .fadingUp => fadeUpWord c.fadePos w
    | .fadingDown => fadeDownWord c.fadePos w
    | .silent => 0

/-- R44: the words on the output channels of a RUNNING programme, in layout order. -/
def channelWords (g : Pgm) (conv : List Sample) : List Sample :=
  (gainWords g conv).map fun w => g.ctl.fadeWord w.1

/-- R44: the output fade after a house sample. -/
def Ctl.tick (c : Ctl) : Ctl :=
  if c.fadeHold then { c with fadeHold := false }
  else
    match c.out with
    | .fadingUp | .fadingDown => { c with fadePos := min Config.fadeLen (c.fadePos + 1) }
    | _ => c

/-- A RUNNING programme after a house sample: the meter takes its words, the line stores them, the gain stage counts
saturated words, and the counts of fades, ramps and motions go on. `pages` is p of R77. -/
def Pgm.tick (g : Pgm) (conv : List Sample) (anyInvalid : Bool) (pages : Nat) : Pgm :=
  { ctl := g.ctl.tick,
    dly := { (g.dly.store pages (maxPad g.ctl.pads) conv).tick with padsNow := g.ctl.pads },
    mtr := (g.mtr.take conv anyInvalid (decide (g.ctl.mode = .bypass))).clipped
             ((gainWords g conv).countP fun w => w.2),
    cor := if g.ctl.mode = .full then g.cor.tick else g.cor }

/-- The words of the house sample in progress are fixed for every lane of a programme. -/
def formLanesOf (lanes : List LaneId) (s : State) : State := lanes.foldl formLane s

/-- R42: the words the programme's channels carry in the house sample in which it is parked. -/
def latchOutput (p : ProgId) (s : State) : State :=
  let s1 := formLanesOf s.pgms[p].ctl.lanes s
  ((s1.pgms[p].ctl.lanes).zip (channelWords s1.pgms[p] (s1.laneWords p))).foldl
    (fun s kw =>
      s.updLane kw.1 fun l => { l with outLatch := some (l.outLatch.getD kw.2) }) s1

end Sys2Proof.Machine
end

