-- ==== Sys2Proof/Machine/Programmes.lean ====
section
/-! DEFINITION. The programme controller (03): definition, run, park and delete, changes of source and process mode behind
fades, revert, and the PGM requests. -/

namespace Sys2Proof.Machine

/-- R56: an SRC notice. -/
def srcNotice (p : ProgId) (cause : Cause) (s : State) : State :=
  let c := s.pgms[p].ctl
  s.notify .src ([finFld p, .kw c.active.kw] ++ cause.flds ++ [natFld c.changeovers, natFld c.lcPgm])

/-! ### Definition and deletion (R40, R43) -/

/-- R33: lanes whose current source becomes MAIN. -/
def lanesToMain (lanes : List LaneId) (s : State) : State := lanes.foldl (setLaneSource .main) s

/-- The record of a programme just defined (R40), with Lc_pgm and pads to be computed; its fade position is 0 (DESIGN CHOICE, log
entry 80). -/
def Ctl.define (l : Layout) (lanes : List LaneId) (base : PresetId) : Ctl :=
  { state := .parked, layout := l, lanes := lanes, basePreset := base, mode := .full, active := .main,
    revert := none, revertCount := 0, changeovers := 0, lcPgm := 96, pads := [], out := .silent,
    fadePos := 0, fadeHold := false, begunLate := false, inflight := none, pending := Change.empty }

/-- R45, R46: Lc_pgm and the pads of a programme that is not RUNNING, computed afresh, with T and D_req. -/
def computeLatency (p : ProgId) (s : State) : State :=
  let lanes := s.pgms[p].ctl.lanes
  formLength p (s.updCtl p fun c => { c with lcPgm := s.lcOf lanes, pads := s.padsOf lanes })

/-- R40, R78, R118: a definition. A redefinition of a PARKED programme keeps V, O and the motion mode. -/
def definePgm (p : ProgId) (l : Layout) (lanes : List LaneId) (base : PresetId) (s : State) : State :=
  let old := s.pgms[p]
  let s1 := lanesToMain (old.ctl.lanes.filter fun k => decide (k ∉ lanes)) (lanesToMain lanes s)
  computeLatency p
    (s1.updPgm p fun g =>
      { ctl := Ctl.define l lanes base,
        dly := if old.ctl.state = .undefined then Delay.undefined else g.dly,
        mtr := Meter.start lanes.length,
        cor := Correction.start [base] })

/-- R40, check 4: a lane named twice, or held by another defined programme. -/
def State.laneConflict (s : State) (p : ProgId) (lanes : List LaneId) : Bool :=
  decide (¬ lanes.Nodup) ||
    lanes.any fun k =>
      match s.ownerOf k with
      | some q => decide (q ≠ p)
      | none => false

/-- A list argument with an item out of range. -/
def itemsOutside (k : NameKind) (n : Nat) (t : Option Tok) : Bool :=
  match t.bind (Tok.items? k) with
  | some l => (asFins n l).isNone
  | none => false

/-- R40: the arguments of PGM DEFINE as read. -/
def readDefine (args : List Tok) : Option (ProgId × Layout × List LaneId × PresetId) :=
  match args with
  | [p, l, ks, b] =>
    match Tok.fin? .P 8 p, Tok.layout? l, (Tok.items? .L ks).bind (asFins 24), Tok.fin? .PS 16 b with
    | some p, some l, some ks, some b => if ks.length = l.count then some (p, l, ks, b) else none
    | _, _, _, _ => none
  | _ => none

/-- PGM DEFINE (R40). -/
def reqPgmDefine (args : List Tok) (s : State) : Answer :=
  withArgs (outside .P 8 args[0]? || itemsOutside .L 24 args[2]? || outside .PS 16 args[3]?)
    (readDefine args) s fun x =>
      if s.pgms[x.1].ctl.state = .running then refuse .state s
      else if s.laneConflict x.1 x.2.2.1 then refuse .conflict s
      else
        let s1 := definePgm x.1 x.2.1 x.2.2.1 x.2.2.2 s
        okReply [natFld s1.pgms[x.1].ctl.lcPgm] s1

/-- PGM DELETE (R43). -/
def reqPgmDelete (args : List Tok) (s : State) : Answer :=
  match args with
  | [t] =>
    withProg t s fun p =>
      if s.pgms[p].ctl.state ≠ .parked then refuse .state s
      else okReply [] ((lanesToMain s.pgms[p].ctl.lanes s).updPgm p fun _ => Pgm.undefined)
  | _ => refuse .synErr s

/-! ### Run and park (R41, R42, R77, R78) -/

/-- The correction values of a run or a park: the stack and its counts are kept (R118). -/
def Correction.atRest (c : Correction) : Correction :=
  { Correction.start c.stack with overflow := c.overflow, underflow := c.underflow }

/-- R77: the delay record of a line formed with `p` pages per lane of the `need`. -/
def Delay.formLine (d : Delay) (k p need : Nat) (pads : List Nat) : Delay :=
  let len := min d.dReq (capacity p (maxPad pads))
  { d with dTarget := len, dApp := len, hist := 0, motion := .still, slewCount := 0, jumpPos := 0,
           pendTarget := none, short := decide (p < need), lines := List.replicate k [], padsNow := pads }

/-- R41: the controller's record on entry to RUNNING. -/
def Ctl.run (c : Ctl) : Ctl :=
  { c with state := .running, revertCount := 0, out := .fadingUp, fadePos := 0, fadeHold := true,
           inflight := none }

/-- R41, R77: a PARKED programme is run, or `none` when the pool cannot give one page for each lane. -/
def runProgramme (p : ProgId) (s : State) : Option State :=
  let s1 := formLength p s
  let c := s1.pgms[p].ctl
  let need := pagesFor s1.pgms[p].dly.dReq (maxPad c.pads)
  let grant := s1.grantFor c.lanes.length need
  if grant = 0 then none
  else
    let s2 := (s1.setOwners (attachLanes p c.lanes.length grant s1.owners)).updPgm p fun g =>
      { ctl := g.ctl.run, dly := g.dly.formLine c.lanes.length grant need c.pads,
        mtr := Meter.start c.lanes.length, cor := g.cor.atRest }
    some (if grant < need then pagesNotice p false s2 else s2)

/-- PGM RUN (R41). -/
def reqPgmRun (args : List Tok) (s : State) : Answer :=
  match args with
  | [t] =>
    withProg t s fun p =>
      if s.pgms[p].ctl.state ≠ .parked then refuse .state s
      else
        match runProgramme p s with
        | none => refuse .full s
        | some s1 =>
          okReply (natFld (s1.pagesHeld p) :: (if s1.pgms[p].dly.short then [.kw .SHORT] else [])) s1
  | _ => refuse .synErr s

/-- R42: the controller's record after a park; its fade position is 0 (DESIGN CHOICE, log entry 80). -/
def Ctl.park (c : Ctl) : Ctl :=
  { c with state := .parked, out := .silent, fadePos := 0, fadeHold := false, inflight := none,
           pending := Change.empty, revertCount := 0 }

/-- R78: the delay record after a park; its slew count and fade position are 0 (DESIGN CHOICE, log entry 80). -/
def Delay.park (d : Delay) : Delay :=
  { d with dTarget := 0, dApp := 0, hist := 0, motion := .still, slewCount := 0, jumpPos := 0,
           pendTarget := none, short := false, lines := [], padsNow := [] }

/-- R78: the pages of a programme's lines are returned, SHORT where it was set is cleared with its PAGES notice (R80, log
entry 23), and the arbiter serves the waiting list. -/
def returnPages (p : ProgId) (short : Bool) (s : State) : State :=
  let s1 := s.setOwners (releasePgm p s.owners)
  arbiter (if short then pagesNotice p false s1 else s1)

/-- R42 in the order of its list: silence, pages, meter, correction, probe, capture slots; and the report that waits for
the scan (R98). -/
def parkPgm (p : ProgId) (s : State) : State :=
  let s1 := (latchOutput p s).updPgm p fun g => { g with ctl := g.ctl.park, dly := g.dly.park }
  let s2 := returnPages p s.pgms[p].dly.short s1
  let s3 := s2.updPgm p fun g =>
    { g with mtr := Meter.start g.ctl.lanes.length, cor := g.cor.atRest }
  (parkSlots p (cancelProbe p .park s3)).setReport p none

/-- PGM PARK (R42). -/
def reqPgmPark (args : List Tok) (s : State) : Answer :=
  match args with
  | [t] =>
    withProg t s fun p =>
      if s.pgms[p].ctl.state ≠ .running then refuse .state s else okReply [] (parkPgm p s)
  | _ => refuse .synErr s

/-! ### Changes of source and mode (R47 to R52) -/

/-- R47: the parts of a change that are real changes. -/
def Ctl.realParts (c : Ctl) (x : Change) : Change :=
  { source := match x.source with
      | some y => if y.1 = c.active then none else some y
      | none => none,
    mode := match x.mode with
      | some m => if m = c.mode then none else some m
      | none => none }

/-- R50: what a frame boundary does to a WAITING programme. -/
def Ctl.atBoundary (c : Ctl) : Ctl :=
  let x := c.realParts c.pending
  if x = Change.empty then { c with out := .opened, pending := Change.empty }
  else { c with out := .fadingDown, fadePos := 0, begunLate := false, inflight := some x, pending := Change.empty }

/-- R50: a change that finds the boundary of this house sample taken acts as if it had been taken before it. -/
def Ctl.beginLate (c : Ctl) : Ctl :=
  let d := { c with out := .waiting }.atBoundary
  if d.out = .fadingDown then { d with begunLate := true } else d

/-- R50: the fade down that a change of this house sample has begun behind its boundary, taken back to WAITING with that
change: what was written since replaces its parts. -/
def Ctl.backToWaiting (c : Ctl) : Ctl :=
  let x := c.inflight.getD Change.empty
  { c with out := .waiting, inflight := none,
           pending := { source := c.pending.source.or x.source, mode := c.pending.mode.or x.mode } }

/-- R47, R48, R50: after a write into the pending change, an OPEN programme with a real change waits for the boundary. Where
the boundary of this house sample found it OPEN, the change acts as if it had been taken before that boundary: the
fade begins at once, and a change written after one that has begun it so stands in its place (R139; DEDUCED, log
entry 49). A fade that the boundary itself began leaves the change pending. DESIGN CHOICE (log entry 49): a boundary that
found the programme FADING_UP counts as one that found it OPEN, once OUTPUT_FADE_UP_END has made it OPEN in the same house
sample. -/
def Ctl.settle (c : Ctl) (boundaryHere : Bool) : Ctl :=
  if boundaryHere ∧ c.begunLate ∧ c.out = .fadingDown ∧ c.fadePos = 0 then c.backToWaiting.beginLate
  else if c.out = .opened ∧ c.realParts c.pending ≠ Change.empty then
    if boundaryHere then c.beginLate else { c with out := .waiting }
  else c

/-- R50: the controller takes a frame boundary. -/
def controllerBoundary (s : State) : State :=
  allProgs.foldl
    (fun s p =>
      if s.pgms[p].ctl.state = .running ∧ s.pgms[p].ctl.out = .waiting then s.updCtl p Ctl.atBoundary
      else s) s

/-- R49, R51: a change of active source: the source is set, the count goes up. -/
def Ctl.changeSource (c : Ctl) (sel : SrcSel) : Ctl :=
  { c with active := sel, changeovers := countUp Config.count16 c.changeovers }

/-- R49: a source change of a PARKED programme. -/
def applyParked (p : ProgId) (sel : SrcSel) (cause : Cause) (s : State) : State :=
  if s.pgms[p].ctl.active = sel then s
  else
    let s1 := s.pgms[p].ctl.lanes.foldl (setLaneSource sel) s
    srcNotice p cause (recompute p (s1.updCtl p fun c => c.changeSource sel))

/-- R47: whether a source change is refused. -/
def State.sourceRefused (s : State) (p : ProgId) (sel : SrcSel) : Bool :=
  decide (s.pgms[p].ctl.state = .undefined) ||
    (decide (sel = .backup) && s.pgms[p].ctl.lanes.any fun k => s.lanes[k].backup.isNone)

/-- R47: a source change, `none` when it is refused. -/
def requestSource (p : ProgId) (sel : SrcSel) (cause : Cause) (s : State) : Option State :=
  if s.sourceRefused p sel then none
  else
    match s.pgms[p].ctl.state with
    | .running =>
      some (s.updCtl p fun c =>
        { c with pending := { c.pending with source := some (sel, cause) } }.settle s.boundaryHere)
    | _ => some (applyParked p sel cause s)

/-- R48: a process mode change, `none` when it is refused. -/
def requestMode (p : ProgId) (m : Mode) (s : State) : Option State :=
  match s.pgms[p].ctl.state with
  | .undefined => none
  | .parked => some (s.updCtl p fun c => { c with mode := m })
  | .running =>
    some (s.updCtl p fun c => { c with pending := { c.pending with mode := some m } }.settle s.boundaryHere)

/-- R51, mode part. -/
def switchMode (p : ProgId) (m : Mode) (s : State) : State :=
  s.updPgm p fun g => { g with ctl := { g.ctl with mode := m }, cor := g.cor.enterMode m }

/-- R33, R51: a lane switched before the word of the house sample in progress is formed. -/
def switchLaneNow (sel : SrcSel) (s : State) (k : LaneId) : State :=
  (switchLane sel s k).updLane k fun l => { l with latch := none }

/-- R51, source part: the lanes, the count, the revert counter, the latency, the probe and the SRC notice. -/
def switchSource (p : ProgId) (sel : SrcSel) (cause : Cause) (s : State) : State :=
  let s1 := s.pgms[p].ctl.lanes.foldl (switchLaneNow sel) s
  let s2 := recompute p (s1.updCtl p fun c => { c.changeSource sel with revertCount := 0 })
  srcNotice p cause (cancelProbe p .source s2)

/-- R51: the parts of the in-flight change are applied. -/
def applyChange (p : ProgId) (x : Change) (s : State) : State :=
  let s1 := match x.mode with
    | some m => switchMode p m s
    | none => s
  match x.source with
  | some y => switchSource p y.1 y.2 s1
  | none => s1

/-- CHANGEOVER_SWITCH (R51), after the fade-down word at position 239. -/
def changeoverSwitch (p : ProgId) (s : State) : State :=
  let c := s.pgms[p].ctl
  if c.state = .running ∧ c.out = .fadingDown ∧ Config.fadeLen ≤ c.fadePos then
    (applyChange p (c.inflight.getD Change.empty) s).updCtl p fun c =>
      { c with out := .fadingUp, fadePos := 0 }
  else s

/-- R52: the controller's record at the end of a fade up. DESIGN CHOICE (log entry 80): its fade position is 0, as it is wherever no
output fade runs. -/
def Ctl.endFadeUp (c : Ctl) : Ctl :=
  let x := c.realParts c.pending
  { c with inflight := none, pending := x, fadePos := 0, out := if x = Change.empty then .opened else .waiting }

/-- OUTPUT_FADE_UP_END (R52), after the fade-up word at position 239. -/
def outputFadeUpEnd (p : ProgId) (s : State) : State :=
  let c := s.pgms[p].ctl
  if c.state = .running ∧ c.out = .fadingUp ∧ Config.fadeLen ≤ c.fadePos then s.updCtl p Ctl.endFadeUp else s

/-- PGM SOURCE (R47). -/
def reqPgmSource (args : List Tok) (s : State) : Answer :=
  match args with
  | [t, x] =>
    match Tok.sel? x with
    | none => refuse .synErr s
    | some sel =>
      withProg t s fun p =>
        match requestSource p sel .request s with
        | none => refuse .state s
        | some s1 => okReply [] s1
  | _ => refuse .synErr s

/-- PGM MODE (R48). -/
def reqPgmMode (args : List Tok) (s : State) : Answer :=
  match args with
  | [t, x] =>
    match Tok.mode? x with
    | none => refuse .synErr s
    | some m =>
      withProg t s fun p =>
        match requestMode p m s with
        | none => refuse .state s
        | some s1 => okReply [] s1
  | _ => refuse .synErr s

/-! ### Revert (R54, R55) -/

/-- R54: the policy is set and the counter becomes 0. -/
def setRevert (p : ProgId) (r : Option Nat) (clamped : Bool) (s : State) : Answer :=
  if s.pgms[p].ctl.state = .undefined then refuse .state s
  else okClamped [] clamped (s.updCtl p fun c => { c with revert := r, revertCount := 0 })

/-- PGM REVERT (R54). -/
def reqPgmRevert (args : List Tok) (s : State) : Answer :=
  match args with
  | [t, .kw .MANUAL] => withProg t s fun p => setRevert p none false s
  | [t, .kw .AUTO, h] =>
    match Tok.int? h with
    | none => refuse .synErr s
    | some h =>
      let x := clampNote 1 600 h
      withProg t s fun p => setRevert p (some x.1.toNat) x.2 s
  | _ => refuse .synErr s

/-- R55: the main port of a lane is LOCKED. -/
def State.mainLocked (s : State) (k : LaneId) : Bool :=
  match s.lanes[k].main with
  | some x => decide (s.ports[x.port].state = .locked)
  | none => false

/-- R55: a change record that holds a source part. -/
def Change.hasSource (x : Change) : Bool := x.source.isSome

/-- R55 for one programme: the hold of a programme that counts. -/
def Ctl.revertHold (c : Ctl) : Option Nat :=
  if c.state = .running ∧ c.active = .backup ∧ c.pending.hasSource = false ∧
      (c.inflight.getD Change.empty).hasSource = false then c.revert
  else none

def revertCheck (s : State) (p : ProgId) : State :=
  let c := s.pgms[p].ctl
  match c.revertHold with
  | none => s.updCtl p fun c => { c with revertCount := 0 }
  | some hold =>
    if c.lanes.all s.mainLocked then
      if hold ≤ c.revertCount + 1 then
        let s1 := s.updCtl p fun c => { c with revertCount := 0 }
        (requestSource p .main .revert s1).getD s1
      else s.updCtl p fun c => { c with revertCount := c.revertCount + 1 }
    else s.updCtl p fun c => { c with revertCount := 0 }

/-! ### PGM? (R57) -/

def pgmFlds (c : Ctl) : List Fld :=
  match c.state with
  | .undefined =>
    .kw .UNDEFINED :: List.replicate 8 .dash ++ natFld c.changeovers :: List.replicate 5 .dash
  | _ =>
    [.kw c.state.kw, .kw c.layout.kw, finsFld c.lanes, finFld c.basePreset, .kw c.mode.kw, .kw c.active.kw,
     boolFld .AUTO .MANUAL c.revert.isSome, optNat c.revert, natFld c.revertCount, natFld c.changeovers,
     natFld c.lcPgm, .nums (c.pads.map fun n => (n : Int)), .kw c.out.kw,
     optFld (fun x : SrcSel × Cause => .kw x.1.kw) c.pending.source,
     optFld (fun m => .kw (Mode.kw m)) c.pending.mode]

/-- PGM? (R57). -/
def reqPgmQuery (args : List Tok) (s : State) : Answer :=
  match args with
  | [] =>
    okReply
      (allProgs.flatMap fun p =>
        let c := s.pgms[p].ctl
        if c.state = .undefined then [.kw .UNDEFINED, .dash, .dash]
        else [.kw c.state.kw, .kw c.mode.kw, .kw c.active.kw]) s
  | [t] => withProg t s fun p => okReply (pgmFlds s.pgms[p].ctl) s
  | [t, .kw .CLEAR] =>
    withProg t s fun p =>
      okReply (pgmFlds s.pgms[p].ctl) (s.updCtl p fun c => { c with changeovers := 0 })
  | _ => refuse .synErr s

end Sys2Proof.Machine
end

