-- ==== Sys2Proof/Machine/Contact.lean ====
section
/-! DEFINITION. Contact lines (09): GPI_SAMPLE_INSTANT, the event FIFO, line functions, the watcher, the outputs, and the
GPI, WATCH and GPO requests. -/

namespace Sys2Proof.Machine

/-! ### Sampling and debounce (R154, R155) -/

/-- R154: a pin level through the polarity. -/
def GpiCfg.sampled (c : GpiCfg) (high : Bool) : Bool :=
  match c.polarity with
  | .low => !high
  | .high => high

/-- R155: one line at a sample instant, and the timestamp of a change that is delivered. A change to asserted is a new one for
the line's function to undo, so it ends the mark of R159. -/
def Gpi.step (g : Gpi) (h : HouseCount) (sampled : Bool) : Gpi × Option HouseCount :=
  if sampled = g.level then ({ g with run := 0, runStart := none }, none)
  else
    let start := if g.run = 0 then h else g.runStart.getD h
    if g.cfg.debounce ≤ g.run + 1 then
      ({ g with level := sampled, run := 0, runStart := none, rewritten := g.rewritten && !sampled }, some start)
    else ({ g with run := g.run + 1, runStart := some start }, none)

/-- A debounced change: the line, its new level, its timestamp. -/
structure GpiChange where
  line : LineId
  level : Bool
  stamp : HouseCount

/-- One line's step, given the raw levels. -/
def State.gpiStep (s : State) (levels : Levels) (l : LineId) : Gpi × Option HouseCount :=
  s.gpis[l].step s.hc (s.gpis[l].cfg.sampled (levels.getLsbD l))

/-- The changes delivered at an instant, G0 to G7. -/
def State.gpiChanges (s : State) (levels : Levels) : List GpiChange :=
  allLines.filterMap fun l =>
    (s.gpiStep levels l).2.map fun t => { line := l, level := (s.gpiStep levels l).1.level, stamp := t }

/-! ### Delivery (R156, R157, R160) -/

/-- R157: a record joins the event FIFO, or is dropped with the overflow flag set. -/
def pushGpi (c : GpiChange) (s : State) : State :=
  if s.gpiFifo.length < Config.gpiFifoMax then
    { s with gpiFifo := s.gpiFifo ++ [{ line := c.line, level := c.level, stamp := c.stamp }] }
  else { s with gpiOverflow := true }

/-- An action handed to the programmes of a set in programme-number order; an UNDEFINED one is left (R160). -/
def onDefined (ps : List ProgId) (f : ProgId → State → State) (s : State) : State :=
  ps.foldl (fun s p => if s.pgms[p].ctl.state = .undefined then s else f p s) s

/-- R160: a change acts through the line's function as it stands. A BREAK line whose function was rewritten while it was asserted
makes no pop when it is released (R159). -/
def runFunction (c : GpiChange) (s : State) : State :=
  match s.gpis[c.line].cfg.func, c.level with
  | .brk ps n, true => onDefined ps (fun p s => pushOn p n s) s
  | .brk ps _, false => if s.gpis[c.line].rewritten then s else onDefined ps (fun p s => (popOrCount p s).1) s
  | .reset ps, true => onDefined ps integrationReset s
  | .capture x, true => trigger x (.gpi c.line) s
  | _, _ => s

/-- R156: one changed line. -/
def deliver (s : State) (c : GpiChange) : State :=
  let s1 := runFunction c (pushGpi c s)
  if c.level then probeMarker c.line c.stamp s1 else s1

/-! ### The watcher (R161) -/

/-- The debounced levels of all eight lines. -/
def State.gpiLevels (s : State) : Levels :=
  allLines.foldl (fun w l => if s.gpis[l].level then w ||| (1#8 <<< l.val) else w) 0

/-- The match state formed from the present levels. -/
def formMatch (s : State) : State := s.updWatch fun w => { w with equal := w.cfg.agrees s.gpiLevels }

/-- R161: whether the watcher triggers, given the changed lines. -/
def Watch.fires (w : Watch) (levels : Levels) (changed : List LineId) : Bool :=
  match w.cfg.mode with
  | .event => changed.any fun l => decide (l ∉ w.cfg.mask)
  | .matching => w.cfg.agrees levels && !w.equal

/-- R161: the watcher's record after a trigger. -/
def Watch.latch (w : Watch) (levels : Levels) : Watch :=
  { w with latched := true, word := if w.latched then w.word else some levels }

/-- R161: the watcher is evaluated after an instant's changes. -/
def evaluateWatch (changed : List LineId) (s : State) : State :=
  let fires := s.watch.fires s.gpiLevels changed
  let s1 := match s.watch.cfg.mode with
    | .event => s
    | .matching => formMatch s
  if fires then
    allSlots.foldl (fun s c => trigger c .watch s) (s1.updWatch fun w => w.latch s.gpiLevels)
  else s1

/-- R165: the first instant after a reset sets the levels without delivering changes. The mark of R159 stays with a line that was
asserted. -/
def firstInstant (levels : Levels) (s : State) : State :=
  formMatch
    (allLines.foldl
      (fun s l => s.updGpi l fun g =>
        { g with level := g.cfg.sampled (levels.getLsbD l), run := 0, runStart := none,
                 rewritten := g.rewritten && g.level })
      { s with gpiFirst := false })

/-- R155, R156: an instant. -/
def laterInstant (levels : Levels) (s : State) : State :=
  let changes := s.gpiChanges levels
  let s1 := allLines.foldl (fun s1 l => s1.updGpi l fun _ => (s.gpiStep levels l).1) s
  let s2 := changes.foldl deliver s1
  if changes.isEmpty then s2 else evaluateWatch (changes.map fun c => c.line) s2

/-- GPI_SAMPLE_INSTANT (R4, R154 to R156, R165), when an instant is due. -/
def gpiSampleInstant (levels : Levels) (s : State) : State :=
  if s.gpiDue then
    let s1 := { s with gpiDue := false, pins := { s.pins with gpi := levels } }
    if s1.gpiFirst then firstInstant levels s1 else laterInstant levels s1
  else s

/-! ### Outputs (R163) -/

/-- R163: the computed level. -/
def Gpo.computed (g : Gpo) : Bool := g.cfg.manual || !g.contrib.isEmpty

/-- R163: the level the pin drives from the next house sample. -/
def Gpo.next (g : Gpo) : Gpo := if g.cfg.held then g else { g with pin := drive g.cfg.polarity g.computed }

/-- R163: a contribution handed on: added or removed at each line of a point's GPO set. -/
def Gpo.contribute (g : Gpo) (n : PointId) (up : Bool) : Gpo :=
  { g with contrib := allPoints.filter fun x =>
      if x = n then up else decide (x ∈ g.contrib) }

def contribute (n : PointId) (lines : List LineId) (up : Bool) (s : State) : State :=
  lines.foldl (fun s l => s.updGpo l fun g => g.contribute n up) s

/-- R164: a manual level is written. -/
def writeManual (l : LineId) (level : Bool) (s : State) : State :=
  s.updGpo l fun g => { g with cfg := { g.cfg with manual := level } }

/-- R164: one line at a new hold mask. -/
def Gpo.setHeld (g : Gpo) (held : Bool) : Gpo :=
  let g1 := { g with cfg := { g.cfg with held := held } }
  if g.cfg.held ∧ ¬ held then g1.next else g1

/-! ### Requests -/

def gpiFuncFlds : GpiFunc → List Fld
  | .nothing => [.kw .NONE]
  | .hold ps => [.kw .HOLD, finsFld ps]
  | .brk ps n => [.kw .BREAK, finsFld ps, finFld n]
  | .reset ps => [.kw .RESET, finsFld ps]
  | .capture c => [.kw .CAPTURE, finFld c]

def gpiCfgFlds (c : GpiCfg) : List Fld := [.kw c.polarity.kw, natFld c.debounce] ++ gpiFuncFlds c.func

/-- The record count and overflow flag of the event FIFO. -/
def gpiFifoFlds (s : State) : List Fld := [natFld s.gpiFifo.length, boolFld .SET .CLEAR s.gpiOverflow]

/-- R159: a programme, preset or slot number out of range anywhere among the settings. -/
def gpiOutside : List Tok → Bool
  | .kw .HOLD :: t :: rest => itemsOutside .P 8 (some t) || gpiOutside rest
  | .kw .RESET :: t :: rest => itemsOutside .P 8 (some t) || gpiOutside rest
  | .kw .BREAK :: t :: rest => itemsOutside .P 8 (some t) || outside .PS 16 rest[0]? || gpiOutside rest
  | .kw .CAPTURE :: t :: rest => outside .C 2 (some t) || gpiOutside rest
  | _ :: rest => gpiOutside rest
  | [] => false

/-- R159: a set of one to eight programmes. -/
def progSet (t : Tok) : Option (List ProgId) :=
  match (Tok.items? .P t).bind (asFins 8) with
  | some (x :: l) => some (asSet8 (x :: l))
  | _ => none

/-- R159: the settings of GPI SET, read onto a record; whether the debounce count was clamped. DESIGN CHOICE (log entry 65):
of a setting named twice the later value stands, and CLAMPED says that either count was clamped. -/
def readGpi (x : GpiCfg × Bool) : List Tok → Option (GpiCfg × Bool)
  | [] => some x
  | .kw .POLARITY :: t :: rest =>
    match Tok.polarity? t with
    | some v => readGpi ({ x.1 with polarity := v }, x.2) rest
    | none => none
  | .kw .DEBOUNCE :: t :: rest =>
    match Tok.int? t with
    | some n => readGpi ({ x.1 with debounce := (clampInt 2 64 n).toNat },
      x.2 || (clampNote 2 64 n).2) rest
    | none => none
  | .kw .FUNCTION :: .kw .NONE :: rest => readGpi ({ x.1 with func := .nothing }, x.2) rest
  | .kw .FUNCTION :: .kw .HOLD :: t :: rest =>
    match progSet t with
    | some ps => readGpi ({ x.1 with func := .hold ps }, x.2) rest
    | none => none
  | .kw .FUNCTION :: .kw .BREAK :: t :: u :: rest =>
    match progSet t, Tok.fin? .PS 16 u with
    | some ps, some n => readGpi ({ x.1 with func := .brk ps n }, x.2) rest
    | _, _ => none
  | .kw .FUNCTION :: .kw .RESET :: t :: rest =>
    match progSet t with
    | some ps => readGpi ({ x.1 with func := .reset ps }, x.2) rest
    | none => none
  | .kw .FUNCTION :: .kw .CAPTURE :: t :: rest =>
    match Tok.fin? .C 2 t with
    | some c => readGpi ({ x.1 with func := .capture c }, x.2) rest
    | none => none
  | _ => none

/-- R159: the line and the record that GPI SET writes. -/
def readGpiSet (args : List Tok) (s : State) : Option (LineId × GpiCfg × Bool) :=
  match args with
  | t :: k :: rest =>
    match Tok.fin? .G 8 t with
    | some l => (readGpi (s.gpis[l].cfg, false) (k :: rest)).map fun x => (l, x)
    | none => none
  | _ => none

/-- The record of an input line, item by item (09 section 9.1). -/
def gpiRecordFlds (g : Gpi) : List Fld :=
  gpiCfgFlds g.cfg ++ [boolFld .ASSERTED .RELEASED g.level, natFld g.run, optBv g.runStart]

/-- R159: the settings of a line written; `func` says that a function is among those named. DEDUCED (log entry 66): naming the
function rewrites it, also with what it was. -/
def Gpi.write (g : Gpi) (cfg : GpiCfg) (func : Bool) : Gpi :=
  let breaks := match g.cfg.func with
    | .brk _ _ => true
    | _ => false
  { g with cfg := cfg, rewritten := g.rewritten || (func && g.level && breaks) }

/-- GPI SET (R159). -/
def reqGpiSet (args : List Tok) (s : State) : Answer :=
  withArgs (outside .G 8 args[0]? || gpiOutside (args.drop 1)) (readGpiSet args s) s fun x =>
    let s1 := s.updGpi x.1 fun g => g.write x.2.1 (decide (.kw .FUNCTION ∈ args))
    okClamped (gpiRecordFlds s1.gpis[x.1]) x.2.2 s1

/-- GPI? (R158). -/
def reqGpiQuery (args : List Tok) (s : State) : Answer :=
  match args with
  | [] => okReply (.digits s.gpiLevels :: gpiFifoFlds s) s
  | [t] =>
    withIndex .G 8 t s fun l =>
      okReply
        (gpiCfgFlds s.gpis[l].cfg
          ++ [boolFld .ASSERTED .RELEASED s.gpis[l].level, natFld s.gpis[l].run] ++ gpiFifoFlds s) s
  | _ => refuse .synErr s

/-- GPI POP (R158). -/
def reqGpiPop (args : List Tok) (s : State) : Answer :=
  match args with
  | [] =>
    match s.gpiFifo with
    | [] => okReply ([.dash, .dash, .dash] ++ gpiFifoFlds s) { s with gpiOverflow := false }
    | e :: rest =>
      let s1 := { s with gpiFifo := rest }
      okReply ([finFld e.line, .num (if e.level then 1 else 0), bvFld e.stamp] ++ gpiFifoFlds s1)
        { s1 with gpiOverflow := s.gpiOverflow && !rest.isEmpty }
  | _ => refuse .synErr s

/-- R162: the settings of WATCH SET behind the word in the place of the mode, which is any first word that reads neither as
a mask nor as a compare word. -/
def behindMode : List Tok → List Tok
  | [] => []
  | .digits w :: rest => .digits w :: rest
  | t :: rest => if (Tok.items? .G t).isSome then t :: rest else rest

/-- R162: the settings of WATCH SET, read onto a record. DESIGN CHOICE (log entry 54): they stand in the order mode, mask,
compare word, and are told apart by their form where some are left out. -/
def readWatch (c : WatchCfg) (args : List Tok) : Option WatchCfg :=
  let m : WatchCfg × List Tok := match args with
    | .kw .EVENT :: rest => ({ c with mode := .event }, rest)
    | .kw .MATCH :: rest => ({ c with mode := .matching }, rest)
    | rest => (c, rest)
  let k : WatchCfg × List Tok := match m.2 with
    | t :: rest =>
      match (Tok.items? .G t).bind (asFins 8) with
      | some l => ({ m.1 with mask := asSet8 l }, rest)
      | none => m
    | [] => m
  match k.2 with
  | [] => some k.1
  | [.digits w] => some { k.1 with compare := w }
  | _ => none

/-- WATCH SET (R162): a line number of the mask out of range, then what cannot be read. DEDUCED (log entry 33): that order
holds beside an unknown mode too. -/
def reqWatchSet (args : List Tok) (s : State) : Answer :=
  withArgs (itemsOutside .G 8 (behindMode args)[0]?) (readWatch s.watch.cfg args) s fun c =>
    okReply [] (formMatch (s.updWatch fun w => { w with cfg := c }))

/-- WATCH? (R162): the flag is cleared after the reply is formed. -/
def reqWatchQuery (args : List Tok) (s : State) : Answer :=
  match args with
  | [] =>
    let w := s.watch
    okReply
      [.kw w.cfg.mode.kw, finsFld w.cfg.mask, .digits w.cfg.compare, boolFld .EQUAL .NOT_EQUAL w.equal,
       .digits s.gpiLevels, boolFld .SET .CLEAR w.latched, optFld Fld.digits w.word]
      (s.updWatch fun w => { w with latched := false, word := none })
  | _ => refuse .synErr s

/-- GPO SET (R164): RANGE, then SYNTAX; a missing or surplus word is SYNTAX behind RANGE (log entry 33). -/
def reqGpoSet (args : List Tok) (s : State) : Answer :=
  match args with
  | [t, x] =>
    withIndex .Q 8 t s fun l =>
      match Tok.bit? x with
      | none => refuse .synErr s
      | some b => okReply [] (writeManual l b s)
  | _ => misshapen (outside .Q 8 args[0]?) s

/-- GPO POLARITY (R164): RANGE, then SYNTAX; a missing or surplus word is SYNTAX behind RANGE (log entry 33). -/
def reqGpoPolarity (args : List Tok) (s : State) : Answer :=
  match args with
  | [t, x] =>
    withIndex .Q 8 t s fun l =>
      match Tok.polarity? x with
      | none => refuse .synErr s
      | some v => okReply [] (s.updGpo l fun g => { g with cfg := { g.cfg with polarity := v } })
  | _ => misshapen (outside .Q 8 args[0]?) s

/-- GPO HOLD (R164): the hold mask is replaced. -/
def reqGpoHold (args : List Tok) (s : State) : Answer :=
  match args with
  | [t] =>
    match Tok.items? .Q t with
    | none => refuse .synErr s
    | some l =>
      match asFins 8 l with
      | none => refuse .range s
      | some mask =>
        okReply [] (allLines.foldl (fun s l => s.updGpo l fun g => g.setHeld (decide (l ∈ mask))) s)
  | _ => refuse .synErr s

def levelFld (b : Bool) : Fld := .num (if b then 1 else 0)

/-- R164: the output levels of all eight lines. -/
def State.gpoLevels (s : State) : Levels :=
  allLines.foldl (fun w l => if s.gpos[l].pin then w ||| (1#8 <<< l.val) else w) 0

/-- The lines of the hold mask. -/
def State.heldLines (s : State) : List LineId := allLines.filter fun l => s.gpos[l].cfg.held

/-- GPO? (R164). -/
def reqGpoQuery (args : List Tok) (s : State) : Answer :=
  match args with
  | [] => okReply [.digits s.gpoLevels, finsFld s.heldLines] s
  | [t] =>
    withIndex .Q 8 t s fun l =>
      let g := s.gpos[l]
      okReply
        [.kw g.cfg.polarity.kw, levelFld g.cfg.manual, natFld g.contrib.length,
         optFld finFld g.contrib.head?, levelFld g.computed, levelFld g.pin,
         boolFld .YES .NO g.cfg.held] s
  | _ => refuse .synErr s

end Sys2Proof.Machine
end

