-- ==== Sys2Proof/Machine/Alarm.lean ====
section
/-! DEFINITION. The alarm scanner (08): measures, conditions, the states of a point, actions, ALARM_SCAN, and the ALM
requests. -/

namespace Sys2Proof.Machine

/-! ### Measures (R134 to R136) -/

/-- What kind of subject a measure needs. -/
inductive SubjectKind where
  | pgm | port | nothing
  deriving DecidableEq, Repr

def Measure.kind : Measure → SubjectKind
  | .portlock => .port
  | .ref | .watch => .nothing
  | _ => .pgm

def Subject.kind : Subject → SubjectKind
  | .nothing => .nothing
  | .pgm _ => .pgm
  | .port _ => .port

/-- R134: the threshold range of a value measure; `none` for a boolean measure. -/
def Measure.range : Measure → Option (Int × Int)
  | .silent | .loud => some (-12000, 1000)
  | .drift => some (0, 12000)
  | .clip => some (0, 65535)
  | .phase => some (-100, 100)
  | _ => none

/-- The report of a point's subject programme. -/
def State.reportOf (s : State) (x : Subject) : Option Report :=
  match x with
  | .pgm p => s.reports[p]
  | _ => none

/-- R136: the increase of the clip count since a reading. -/
def clipIncrease (reading : Option Nat) (count : Nat) : Option MeasVal :=
  reading.map fun r => .num (if count < r then count else count - r : Nat)

/-- R134: GAINLIM of a report. -/
def State.atGainLimit (s : State) (r : Report) : Bool :=
  decide (r.g = -(s.presets[r.preset]).cut ∨ r.g = (s.presets[r.preset]).boost)

/-- R134, R135: the measure of a programme that has a report. DEDUCED (log entry 53): DRIFT and GAINLIM read the preset of
the report in the table as it stands at the scan. -/
def State.reportMeasure (s : State) (m : Measure) (p : ProgId) (r : Report) (reading : Option Nat) :
    Option MeasVal :=
  match m with
  | .silent => r.lm.map .num
  | .loud => r.ls.map .num
  | .drift => r.li.map fun l => .num (l - (s.presets[r.preset]).target).natAbs
  | .clip => clipIncrease reading r.clip
  | .phase =>
    match r.corr with
    | .value c => some (.num c)
    | _ => none
  | .pgmlock => some (.truth (s.pgms[p].ctl.lanes.any fun k => !s.lanes[k].valid))
  | .short => some (.truth (s.pgms[p].dly.short || s.pgms[p].dly.floor))
  | .gainlim => some (.truth (s.atGainLimit r))
  | .portlock | .ref | .watch => none

/-- R134: the measure of a point. -/
def State.measureOf (s : State) (x : Point) : Option MeasVal :=
  match x.cfg.measure, x.cfg.subject with
  | some .portlock, .port i => some (.truth (decide (s.ports[i].state ≠ .locked)))
  | some .ref, _ => some (.truth (decide (s.ref.state = .lost ∨ s.ref.state = .free)))
  | some .watch, _ => some (.truth s.watch.latched)
  | some m, .pgm p =>
    match s.reports[p] with
    | some r => s.reportMeasure m p r x.clipReading
    | none => none
  | _, _ => none

/-- R136: the clip reading after an evaluation. -/
def State.nextReading (s : State) (x : Point) : Option Nat :=
  match x.cfg.measure with
  | some .clip =>
    match s.reportOf x.cfg.subject with
    | some r => some r.clip
    | none => some 0
  | _ => x.clipReading

/-! ### Conditions (R140) -/

/-- R140: the raising condition. -/
def PointCfg.raises (c : PointCfg) : Option MeasVal → Bool
  | none => false
  | some (.truth b) => b
  | some (.num v) =>
    match c.sense with
    | .above => decide (c.threshold < v)
    | .below => decide (v < c.threshold)

/-- R140: the clearing condition. -/
def PointCfg.clears (c : PointCfg) : Option MeasVal → Bool
  | none => false
  | some (.truth b) => !b
  | some (.num v) =>
    match c.sense with
    | .above => decide (v ≤ c.threshold - c.hyst)
    | .below => decide (c.threshold + c.hyst ≤ v)

/-! ### Notices, contributions and actions (R147 to R151) -/

/-- A point is up: ACTIVE, CLEARING or FORCED. -/
def PointState.isUp : PointState → Bool
  | .active | .clearing | .forced => true
  | _ => false

def measValFld : MeasVal → Fld
  | .num n => .num n
  | .truth b => boolFld .TRUE .FALSE b

/-- R151: an ALM notice; `byRequest` puts a dash for the last value. DESIGN CHOICE (log entry 86): where a request causes it before
any scan has been taken since the start, there is no last scan, and the notice carries the scan number as it stands, 0. -/
def almNotice (n : PointId) (reason : Kw) (byRequest : Bool) (s : State) : State :=
  let x := s.points[n]
  s.notify .alm
    [finFld n, .kw reason, .kw x.state.kw, optFld (fun m => .kw (Measure.kw m)) x.cfg.measure,
     x.cfg.subject.fld, if byRequest then .dash else optFld measValFld x.lastValue, bvFld s.scanNo,
     natFld x.activations, boolFld .SET .CLEAR x.latched]

/-- A notice that is sent when the point's notify field is ON. -/
def almNoticeIf (n : PointId) (reason : Kw) (byRequest : Bool) (s : State) : State :=
  if s.points[n].cfg.notify then almNotice n reason byRequest s else s

/-- R150: the point's GPO set is added or removed. -/
def contributePoint (n : PointId) (up : Bool) (s : State) : State := contribute n s.points[n].cfg.gpo up s

def skipAction (n : PointId) (s : State) : State :=
  s.updPoint n fun x => { x with skips := countUp Config.count16 x.skips }

/-- R147: a CHANGEOVER action. -/
def runChangeover (n : PointId) (s : State) : State :=
  match s.points[n].cfg.subject with
  | .pgm p =>
    if s.pgms[p].ctl.state ≠ .running then skipAction n s
    else (requestSource p .backup (.alarm n) s).getD (skipAction n s)
  | _ => s

/-- R147 to R149: the action of a point. -/
def runAction (n : PointId) (s : State) : State :=
  match s.points[n].cfg.action with
  | .changeover => runChangeover n s
  | .capture c => trigger c (.alarm n) s
  | .freeze | .nothing => s

/-- R142, R144: the point's record on entry to ACTIVE or FORCED. -/
def Point.raiseTo (x : Point) (st : PointState) : Point :=
  { x with state := st, run := 0, latched := true, activations := countUp Config.count16 x.activations }

/-- R142: entry to ACTIVE from CLEAR or RAISING. -/
def enterActive (n : PointId) (s : State) : State :=
  runAction n
    (almNoticeIf n .RAISED false (contributePoint n true (s.updPoint n fun x => x.raiseTo .active)))

/-- R143: the return to CLEAR from ACTIVE or CLEARING. -/
def returnToClear (n : PointId) (s : State) : State :=
  almNoticeIf n .CLEARED false
    (contributePoint n false (s.updPoint n fun x => { x with state := .clear, run := 0 }))

/-! ### The scan (R137 to R143) -/

/-- A point's state and run counter are set. -/
def setPoint (n : PointId) (st : PointState) (run : Nat) (s : State) : State :=
  s.updPoint n fun x => { x with state := st, run := run }

/-- R141: a raising evaluation that brings the run counter to `run`. -/
def raiseStep (n : PointId) (run : Nat) (s : State) : State :=
  if s.points[n].cfg.raise ≤ run then enterActive n s else setPoint n .raising run s

/-- R143: a clearing evaluation that brings the run counter to `run`. -/
def clearStep (n : PointId) (run : Nat) (s : State) : State :=
  if s.points[n].cfg.clear ≤ run then returnToClear n s else setPoint n .clearing run s

/-- R141, R143: the point's state after an evaluation of value `v`. -/
def movePoint (n : PointId) (v : Option MeasVal) (s : State) : State :=
  let x := s.points[n]
  match x.state with
  | .clear => if x.cfg.raises v then raiseStep n 1 s else setPoint n .clear 0 s
  | .raising => if x.cfg.raises v then raiseStep n (x.run + 1) s else setPoint n .clear 0 s
  | .active => if x.cfg.clears v then clearStep n 1 s else s
  | .clearing => if x.cfg.clears v then clearStep n (x.run + 1) s else setPoint n .active 0 s
  | .off | .forced => s

/-- R138: a point is due at the scan. -/
def Point.isDue (x : Point) (scan : BitVec 32) : Bool :=
  (match x.state with
    | .clear | .raising | .active | .clearing => true
    | .off | .forced => false) && decide (scan.toNat % x.cfg.stride = x.cfg.phase)

/-- R139: the visit of one point. -/
def visitPoint (s : State) (n : PointId) : State :=
  if s.points[n].isDue s.scanNo then
    let v := s.measureOf s.points[n]
    let reading := s.nextReading s.points[n]
    movePoint n v
      (s.updPoint n fun x =>
        { x with lastValue := v, lastScan := some s.scanNo, clipReading := reading })
  else s

/-- ALARM_SCAN (R137 to R139), when the reports of a close are complete: the points in index order, then the revert check
of R55. -/
def alarmScan (s : State) : State :=
  if s.scanDue then
    let s1 := allPoints.foldl visitPoint { s with scanNo := s.scanNo + 1, scanDue := false }
    let s2 := allProgs.foldl revertCheck s1
    { s2 with reports := Vector.replicate 8 none }
  else s

/-! ### ALM SET (R132) -/

/-- A record under edit: the numbers are as named, before any clamp. -/
structure PointDraft where
  cfg : PointCfg
  threshold : Int
  hyst : Int
  stride : Int
  phase : Int
  raise : Int
  clear : Int

def PointDraft.of (c : PointCfg) : PointDraft :=
  { cfg := c, threshold := c.threshold, hyst := c.hyst, stride := c.stride, phase := c.phase,
    raise := c.raise, clear := c.clear }

def Tok.measure? : Tok → Option Measure
  | .kw .SILENT => some .silent
  | .kw .LOUD => some .loud
  | .kw .DRIFT => some .drift
  | .kw .CLIP => some .clip
  | .kw .PHASE => some .phase
  | .kw .PORTLOCK => some .portlock
  | .kw .PGMLOCK => some .pgmlock
  | .kw .SHORT => some .short
  | .kw .GAINLIM => some .gainlim
  | .kw .REF => some .ref
  | .kw .WATCH => some .watch
  | _ => none

/-- The subject ALM SET names (R132). DESIGN CHOICE (log entry 82): that of no programme and no port is the word NONE. -/
def Tok.subject? : Tok → Option Subject
  | .kw .NONE => some .nothing
  | .name .P n => (asFin 8 n).map .pgm
  | .name .IN n => (asFin 6 n).map .port
  | _ => none

def Tok.sense? : Tok → Option Sense
  | .kw .ABOVE => some .above
  | .kw .BELOW => some .below
  | _ => none

def Tok.onOff? : Tok → Option Bool
  | .kw .ON => some true
  | .kw .OFF => some false
  | _ => none

/-- R132: one field of ALM SET with a value of one word. DESIGN CHOICE (log entry 72): each number may carry a plus sign. -/
def PointDraft.field (d : PointDraft) (k : Kw) (t : Tok) : Option PointDraft :=
  match k with
  | .MEASURE => (Tok.measure? t).map fun m => { d with cfg := { d.cfg with measure := some m } }
  | .SUBJECT => (Tok.subject? t).map fun x => { d with cfg := { d.cfg with subject := x } }
  | .SENSE => (Tok.sense? t).map fun x => { d with cfg := { d.cfg with sense := x } }
  | .NOTIFY => (Tok.onOff? t).map fun b => { d with cfg := { d.cfg with notify := b } }
  | .GPO =>
    ((Tok.items? .Q t).bind (asFins 8)).map fun l => { d with cfg := { d.cfg with gpo := asSet8 l } }
  | .THRESHOLD => (Tok.signed? t).map fun n => { d with threshold := n }
  | .HYST => (Tok.signed? t).map fun n => { d with hyst := n }
  | .STRIDE => (Tok.signed? t).map fun n => { d with stride := n }
  | .PHASE => (Tok.signed? t).map fun n => { d with phase := n }
  | .RAISE => (Tok.signed? t).map fun n => { d with raise := n }
  | .CLEAR => (Tok.signed? t).map fun n => { d with clear := n }
  | _ => none

/-- R132: the action field. -/
def PointDraft.act (d : PointDraft) (a : AlarmAction) : PointDraft :=
  { d with cfg := { d.cfg with action := a } }

/-- R132: the fields of ALM SET. DESIGN CHOICE (log entry 52): of a field named twice the later value stands, and the
range check of `almOutside` reads both. -/
def PointDraft.fields (d : PointDraft) : List Tok → Option PointDraft
  | [] => some d
  | .kw .ACTION :: .kw .NONE :: rest => (d.act .nothing).fields rest
  | .kw .ACTION :: .kw .CHANGEOVER :: rest => (d.act .changeover).fields rest
  | .kw .ACTION :: .kw .FREEZE :: rest => (d.act .freeze).fields rest
  | .kw .ACTION :: .kw .CAPTURE :: t :: rest =>
    match Tok.fin? .C 2 t with
    | some c => (d.act (.capture c)).fields rest
    | none => none
  | .kw k :: t :: rest =>
    match d.field k t with
    | some d1 => d1.fields rest
    | none => none
  | _ => none

/-- R132: a subject, slot or output out of range anywhere among the fields. -/
def almOutside : List Tok → Bool
  | .kw .SUBJECT :: t :: rest =>
    (match t with
      | .name .P n => (asFin 8 n).isNone
      | .name .IN n => (asFin 6 n).isNone
      | _ => false) || almOutside rest
  | .kw .GPO :: t :: rest => itemsOutside .Q 8 (some t) || almOutside rest
  | .kw .CAPTURE :: t :: rest => outside .C 2 (some t) || almOutside rest
  | _ :: rest => almOutside rest
  | [] => false

/-- R132: a measure, a subject of the kind it needs, and a programme for CHANGEOVER and FREEZE. -/
def PointCfg.isSound (c : PointCfg) : Bool :=
  (match c.measure with
    | none => false
    | some m => decide (m.kind = c.subject.kind)) &&
  (match c.action with
    | .changeover | .freeze => decide (c.subject.kind = .pgm)
    | _ => true)

/-- R132: the record as written, enabled, and whether a value was clamped. -/
def PointDraft.write (d : PointDraft) : PointCfg × Bool :=
  let stride := clampNote 1 16 d.stride
  let phase := clampNote 0 (stride.1 - 1) d.phase
  let raise := clampNote 1 50 d.raise
  let clear := clampNote 1 50 d.clear
  let c := { d.cfg with enabled := true, stride := stride.1.toNat, phase := phase.1.toNat,
                        raise := raise.1.toNat, clear := clear.1.toNat }
  let clamped := stride.2 || phase.2 || raise.2 || clear.2
  match d.cfg.measure.bind Measure.range with
  | some r =>
    let th := clampNote r.1 r.2 d.threshold
    let hy := clampNote 0 2000 d.hyst
    ({ c with threshold := th.1, hyst := hy.1 }, clamped || th.2 || hy.2)
  | none => ({ c with sense := .above, threshold := 0, hyst := 0 }, clamped)

/-- R132: the arguments of ALM SET as read. -/
def readAlm (args : List Tok) (s : State) : Option (PointId × PointCfg × Bool) :=
  match args with
  | t :: rest =>
    match Tok.fin? .A 48 t with
    | some n =>
      match (PointDraft.of s.points[n].cfg).fields rest with
      | some d => if d.cfg.isSound then some (n, d.write) else none
      | none => none
    | none => none
  | [] => none

/-- R132: a point takes a record and returns to CLEAR. DESIGN CHOICE (log entry 83): its last scan, which the rule does not name, is
kept. -/
def Point.rewrite (x : Point) (c : PointCfg) : Point :=
  { x with cfg := c, state := .clear, run := 0, activations := 0, skips := 0, clipReading := none,
           lastValue := none }

/-- R132: the record is written; a point that was up loses its contribution and sends an EDITED notice. -/
def writePoint (n : PointId) (c : PointCfg) (s : State) : State :=
  if s.points[n].state.isUp then
    almNotice n .EDITED true ((contributePoint n false s).updPoint n fun x => x.rewrite c)
  else s.updPoint n fun x => x.rewrite c

def actionFlds : AlarmAction → List Fld
  | .nothing => [.kw .NONE]
  | .changeover => [.kw .CHANGEOVER]
  | .capture c => [.kw .CAPTURE, finFld c]
  | .freeze => [.kw .FREEZE]

/-- The enabled field and the configuration fields of a record (R152). -/
def pointCfgFlds (c : PointCfg) : List Fld :=
  [boolFld .YES .NO c.enabled, optFld (fun m => .kw (Measure.kw m)) c.measure, c.subject.fld,
   .kw c.sense.kw, .num c.threshold, .num c.hyst, natFld c.stride, natFld c.phase, natFld c.raise,
   natFld c.clear, boolFld .ON .OFF c.notify, finsFld c.gpo] ++ actionFlds c.action

/-- ALM SET (R132). DESIGN CHOICE (log entry 76): the reply carries the record's enabled field and its configuration fields, and
none of its items of state. -/
def reqAlmSet (args : List Tok) (s : State) : Answer :=
  withArgs (outside .A 48 args[0]? || almOutside (args.drop 1)) (readAlm args s) s fun x =>
    okClamped (pointCfgFlds x.2.1) x.2.2 (writePoint x.1 x.2.1 s)

/-! ### The other requests -/

/-- R133: a point is taken out of service. DESIGN CHOICE (log entry 83): its clip reading, last value and last scan, which the rule
does not name, are kept. -/
def Point.takeOff (x : Point) : Point :=
  { x with state := .off, run := 0, cfg := { x.cfg with enabled := false } }

/-- A request that names one point. -/
def withPoint (t : Tok) (s : State) (f : PointId → Answer) : Answer := withIndex .A 48 t s f

/-- ALM OFF (R133). -/
def reqAlmOff (args : List Tok) (s : State) : Answer :=
  match args with
  | [t] =>
    withPoint t s fun n =>
      if s.points[n].state = .off then okReply [] s
      else if s.points[n].state.isUp then
        okReply [] (almNotice n .OFF true ((contributePoint n false s).updPoint n Point.takeOff))
      else okReply [] (s.updPoint n Point.takeOff)
  | _ => refuse .synErr s

/-- ALM FORCE ON (R144). -/
def reqAlmForceOn (args : List Tok) (s : State) : Answer :=
  match args with
  | [t] =>
    withPoint t s fun n =>
      match s.points[n].state with
      | .off => refuse .state s
      | .forced => okReply [] s
      | _ =>
        okReply []
          (runAction n
            (almNoticeIf n .FORCED true
              (contributePoint n true (s.updPoint n fun x => x.raiseTo .forced))))
  | _ => refuse .synErr s

/-- ALM FORCE OFF (R145). -/
def reqAlmForceOff (args : List Tok) (s : State) : Answer :=
  match args with
  | [t] =>
    withPoint t s fun n =>
      if s.points[n].state = .forced then
        okReply []
          (almNoticeIf n .CLEARED true
            (contributePoint n false
              (s.updPoint n fun x => { x with state := .clear, run := 0, clipReading := none })))
      else refuse .state s
  | _ => refuse .synErr s

/-- R146: the acknowledgement of one point. -/
def Point.ack (x : Point) : Point := if x.state.isUp then x else { x with latched := false }

/-- How many points have their latched flag set. -/
def State.latchedCount (s : State) : Nat := allPoints.countP fun n => s.points[n].latched

/-- ALM ACK (R146). -/
def reqAlmAck (args : List Tok) (s : State) : Answer :=
  match args with
  | [.kw .ALL] =>
    let s1 := allPoints.foldl (fun s n => s.updPoint n Point.ack) s
    (.ok [natFld (s.latchedCount - s1.latchedCount), natFld s1.latchedCount]
      (flagIf (decide (0 < s1.latchedCount)) .still), s1)
  | [t] =>
    withPoint t s fun n =>
      (.ok [] (flagIf s.points[n].state.isUp .still), s.updPoint n Point.ack)
  | _ => refuse .synErr s

/-- R152: the fields of a point. -/
def pointFlds (x : Point) : List Fld :=
  pointCfgFlds x.cfg
    ++ [.kw x.state.kw, boolFld .SET .CLEAR x.latched, natFld x.run, natFld x.activations, natFld x.skips,
        optFld measValFld x.lastValue, optBv x.lastScan]

/-- ALM? (R152). -/
def reqAlmQuery (args : List Tok) (s : State) : Answer :=
  match args with
  | [t] => withPoint t s fun n => okReply (pointFlds s.points[n]) s
  | [t, .kw .CLEAR] =>
    withPoint t s fun n =>
      okReply (pointFlds s.points[n]) (s.updPoint n fun x => { x with activations := 0, skips := 0 })
  | _ => refuse .synErr s

/-- ALM LIST? (R152). -/
def reqAlmListQuery (args : List Tok) (s : State) : Answer :=
  match args with
  | [] =>
    okReply
      (bvFld s.scanNo ::
        allPoints.flatMap fun n => [.kw s.points[n].state.kw, boolFld .SET .CLEAR s.points[n].latched]) s
  | _ => refuse .synErr s

end Sys2Proof.Machine
end

