-- ==== Sys2Proof/Machine/Takes.lean ====
section
/-! DEFINITION. The take queue (11): adding and cancelling entries, the take of a frame boundary, and the TAK requests. -/

namespace Sys2Proof.Machine

/-! ### The queue (R176 to R178) -/

/-- R176: the distance of a frame ahead of FC. -/
def ahead (fc due : FrameCount) : Nat := (due - fc).toNat

/-- R176: an entry joins behind every entry whose due frame is the same or nearer. -/
def insertTake (fc : FrameCount) (e : TakeEntry) : List TakeEntry → List TakeEntry
  | [] => [e]
  | x :: l => if ahead fc x.due ≤ ahead fc e.due then x :: insertTake fc e l else e :: x :: l

/-- R178: an id that a queued entry holds. -/
def idInUse (takes : List TakeEntry) (id : BitVec 16) : Bool := takes.any fun e => decide (e.id = id)

/-- R178: the next id, passing over ids in use; the queue holds at most 32. -/
def freeId (takes : List TakeEntry) (next : BitVec 16) : BitVec 16 :=
  match (List.range 33).find? fun j => !idInUse takes (next + BitVec.ofNat 16 j) with
  | some j => next + BitVec.ofNat 16 j
  | none => next

/-- A due frame as a request names it: absolute, or relative with the number after the plus sign. -/
inductive DueForm where
  | absolute (f : FrameCount)
  | relative (k : Nat)
  deriving DecidableEq, Repr

/-- R177: the named due frame, and whether k was clamped. -/
def DueForm.resolve (fc : FrameCount) : DueForm → FrameCount × Bool
  | .absolute f => (f, false)
  | .relative k =>
    let x := clampNote 1 10000 k
    (fc + BitVec.ofNat 32 x.1.toNat, x.2)

/-- R177: a named frame that has been reached or has passed. -/
def isLate (fc named : FrameCount) : Bool := decide (ahead fc named = 0 ∨ 2 ^ 31 ≤ ahead fc named)

/-- R177: the entry of an accepted request. -/
def makeEntry (s : State) (named : FrameCount) (a : TakeAction) : TakeEntry :=
  let late := isLate s.fc named
  { id := freeId s.takes s.nextId, named := named, due := if late then s.fc + 1 else named, late := late,
    action := a }

/-- R177, R178: an entry joins the queue. -/
def addTake (e : TakeEntry) (s : State) : State :=
  { s with takes := insertTake s.fc e s.takes, nextId := e.id + 1 }

/-! ### Application (R179 to R182) -/

/-- The outcomes of R180. -/
inductive Outcome where
  | done | clamped | state
  deriving DecidableEq, Repr

def Outcome.kw : Outcome → Kw
  | .done => .DONE | .clamped => .CLAMPED | .state => .STATE

/-- R180: an action on a programme, refused with STATE while it is UNDEFINED. -/
def onPgm (p : ProgId) (s : State) (f : State → State × Outcome) : State × Outcome :=
  if s.pgms[p].ctl.state = .undefined then (s, .state) else f s

/-- The outcome of an applied write. -/
def clampOutcome (w : State × Bool) : State × Outcome := (w.1, if w.2 then .clamped else .done)

/-- The outcome of a change that may be refused. -/
def orState (s : State) (r : Option State) : State × Outcome :=
  match r with
  | some s1 => (s1, .done)
  | none => (s, .state)

/-- R180: one entry applied as its request would act. -/
def applyAction (a : TakeAction) (s : State) : State × Outcome :=
  match a with
  | .video p v => onPgm p s fun s => clampOutcome (writeVideo p v s)
  | .trim p o => onPgm p s fun s => clampOutcome (writeTrim p o s)
  | .recall p n => onPgm p s fun s => (recallOn p n s, .done)
  | .push p n => onPgm p s fun s => (pushOn p n s, .done)
  | .pop p =>
    onPgm p s fun s => ((popOrCount p s).1, if (popOrCount p s).2 then .done else .state)
  | .reset p => onPgm p s fun s => (integrationReset p s, .done)
  | .source p sel => orState s (requestSource p sel .take s)
  | .mode p m => orState s (requestMode p m s)
  | .gpo l b => (writeManual l b s, .done)

def TakeAction.kw : TakeAction → Kw
  | .video _ _ => .VIDEO | .trim _ _ => .TRIM | .recall _ _ => .RECALL | .push _ _ => .PUSH | .pop _ => .POP
  | .reset _ => .RESET | .source _ _ => .SOURCE | .mode _ _ => .MODE | .gpo _ _ => .GPO

/-- R182: what a TAKE notice says of an entry. -/
def TakeEntry.flds (e : TakeEntry) (o : Outcome) : List Fld :=
  [bvFld e.id, .kw e.action.kw, .kw o.kw] ++ (if e.late then [.kw .LATE] else [])

/-- R179: the entries of a take in queue order; the fields of the TAKE notice gather behind `acc`. DEDUCED (log entry 69): the
pages that entries of several programmes ask for are granted in that order too. -/
def applyEntries : List TakeEntry → List Fld → State → List Fld × State
  | [], acc, s => (acc, s)
  | e :: rest, acc, s =>
    let r := applyAction e.action s
    applyEntries rest (acc ++ e.flds r.2) r.1

/-- R179: the entries due at the frame FC now holds. -/
def State.dueEntries (s : State) : List TakeEntry := s.takes.takeWhile fun e => decide (e.due = s.fc)

/-- R179, R182: the take of a frame boundary and its TAKE notice. -/
def applyTake (origin : Kw) (s : State) : State :=
  let due := s.dueEntries
  if due = [] then s
  else
    let r := applyEntries due [] (s.setTakes (s.takes.drop due.length))
    r.2.notify .take ([bvFld s.fc, .kw origin, natFld due.length] ++ r.1)

/-- R181: the take holds an entry that a delay line takes. -/
def State.takeMovesLine (s : State) : Bool :=
  s.dueEntries.any fun e => match e.action with
    | .video _ _ | .trim _ _ => true
    | _ => false

/-! ### Requests -/

/-- R177: an absolute due frame or a relative one. -/
def Tok.due? : Tok → Option DueForm
  | .num n => if 0 ≤ n ∧ n ≤ 4294967295 then some (.absolute (BitVec.ofInt 32 n)) else none
  | .plus k => some (.relative k)
  | _ => none

/-- R177: the action of TAK ADD and its arguments. -/
def readAction (args : List Tok) : Option TakeAction :=
  match args with
  | [.kw .VIDEO, p, v] =>
    match Tok.fin? .P 8 p, Tok.int? v with
    | some p, some v => some (.video p v)
    | _, _ => none
  | [.kw .TRIM, p, o] =>
    match Tok.fin? .P 8 p, Tok.signed? o with
    | some p, some o => some (.trim p o)
    | _, _ => none
  | [.kw .RECALL, p, n] =>
    match Tok.fin? .P 8 p, Tok.fin? .PS 16 n with
    | some p, some n => some (.recall p n)
    | _, _ => none
  | [.kw .PUSH, p, n] =>
    match Tok.fin? .P 8 p, Tok.fin? .PS 16 n with
    | some p, some n => some (.push p n)
    | _, _ => none
  | [.kw .POP, p] => (Tok.fin? .P 8 p).map .pop
  | [.kw .RESET, p] => (Tok.fin? .P 8 p).map .reset
  | [.kw .SOURCE, p, x] =>
    match Tok.fin? .P 8 p, Tok.sel? x with
    | some p, some x => some (.source p x)
    | _, _ => none
  | [.kw .MODE, p, m] =>
    match Tok.fin? .P 8 p, Tok.mode? m with
    | some p, some m => some (.mode p m)
    | _, _ => none
  | [.kw .GPO, l, b] =>
    match Tok.fin? .Q 8 l, Tok.bit? b with
    | some l, some b => some (.gpo l b)
    | _, _ => none
  | _ => none

/-- R177: a programme, preset or contact output out of range. DESIGN CHOICE (log entry 78): the words are told apart by their
places, the due frame first and the action behind it, so behind a due frame left out or an action that is unknown no word is
a programme, a preset or an output. -/
def takOutside (args : List Tok) : Bool :=
  match args with
  | .kw .GPO :: t :: _ => outside .Q 8 (some t)
  | .kw .RECALL :: t :: rest => outside .P 8 (some t) || outside .PS 16 rest[0]?
  | .kw .PUSH :: t :: rest => outside .P 8 (some t) || outside .PS 16 rest[0]?
  | .kw k :: t :: _ =>
    decide (k ∈ [Kw.VIDEO, .TRIM, .POP, .RESET, .SOURCE, .MODE]) && outside .P 8 (some t)
  | _ => false

/-- R177: the arguments of TAK ADD as read. -/
def readTake (args : List Tok) : Option (DueForm × TakeAction) :=
  match args with
  | d :: rest =>
    match Tok.due? d, readAction rest with
    | some d, some a => some (d, a)
    | _, _ => none
  | [] => none

/-- TAK ADD (R177). -/
def reqTakAdd (args : List Tok) (s : State) : Answer :=
  withArgs (takOutside (args.drop 1)) (readTake args) s fun x =>
    if Config.takeMax ≤ s.takes.length then refuse .full s
    else
      let named := x.1.resolve s.fc
      let e := makeEntry s named.1 x.2
      (.ok [bvFld e.id, bvFld e.due] (flagIf named.2 .clamped ++ flagIf e.late .late), addTake e s)

/-- An id argument: SYNTAX when it cannot be read, RANGE outside 0..65,535, NOSUCH when no entry has it. -/
def withId (t : Tok) (s : State) (f : TakeEntry → Answer) : Answer :=
  match Tok.int? t with
  | none => refuse .synErr s
  | some n =>
    if n < 0 ∨ 65535 < n then refuse .range s
    else
      match s.takes.find? fun e => decide ((e.id.toNat : Int) = n) with
      | none => refuse .nosuch s
      | some e => f e

/-- TAK CANCEL (R178). -/
def reqTakCancel (args : List Tok) (s : State) : Answer :=
  match args with
  | [t] =>
    withId t s fun e =>
      okReply [bvFld e.id, bvFld e.due] (s.setTakes (s.takes.filter fun x => decide (x.id ≠ e.id)))
  | _ => refuse .synErr s

/-- The arguments of an action, as TAK? gives them. -/
def TakeAction.flds : TakeAction → List Fld
  | .video p v => [finFld p, .num v]
  | .trim p o => [finFld p, .num o]
  | .recall p n => [finFld p, finFld n]
  | .push p n => [finFld p, finFld n]
  | .pop p => [finFld p]
  | .reset p => [finFld p]
  | .source p x => [finFld p, .kw x.kw]
  | .mode p m => [finFld p, .kw m.kw]
  | .gpo l b => [finFld l, levelFld b]

/-- R183: the fields of the queue. -/
def queueFlds (s : State) : List Fld :=
  [bvFld s.fc, natFld s.takes.length, bvFld s.nextId]
    ++ (match s.takes with
        | e :: _ => [bvFld e.id, bvFld e.due]
        | [] => [.dash, .dash])

/-- TAK? (R183). -/
def reqTakQuery (args : List Tok) (s : State) : Answer :=
  match args with
  | [] => okReply (queueFlds s) s
  | [t] =>
    withId t s fun e =>
      okReply
        ([bvFld e.id, bvFld e.named, bvFld e.due, if e.late then .kw .LATE else .dash, .kw e.action.kw]
          ++ e.action.flds) s
  | _ => refuse .synErr s

/-- TAK? LIST (R183). -/
def reqTakListQuery (args : List Tok) (s : State) : Answer :=
  match args with
  | [t] =>
    match Tok.int? t with
    | none => refuse .synErr s
    | some n =>
      let x := clampNote 0 31 n
      okClamped
        (natFld x.1.toNat ::
          ((s.takes.drop x.1.toNat).take 8).flatMap fun e => [bvFld e.id, bvFld e.due]) x.2 s
  | _ => refuse .synErr s

end Sys2Proof.Machine
end

