-- ==== Sys2Proof/Machine/Timebase.lean ====
section
/-! DEFINITION. The timebase and the frame reference (01): frame boundaries, FREF_PULSE, FLYWHEEL_BOUNDARY,
MISSING_PULSE_EXPIRY, and the requests TIME?, REF SET and REF?. -/

namespace Sys2Proof.Machine

/-! ### The frame boundary (R2, R13) -/

/-- R50: the controller takes the boundary, and this house sample now has had one. -/
def takeController (s : State) : State := { controllerBoundary s with boundaryHere := true }

/-- R2, R13: a frame boundary at a tick position, given to the blocks that take it. The order between the take and the
delay lines is free where it decides anything (R181, log entry 10). -/
def frameBoundary (pos : TickPos) (origin : Kw) (s : State) : State :=
  let s1 := { s with fc := s.fc + 1, ref := { s.ref with lastBoundary := pos } }
  let takeFirst := fun (s : State) => lineBoundary (takeController (applyTake origin s))
  let linesFirst := fun (s : State) => takeController (applyTake origin (lineBoundary s))
  if s1.takeMovesLine then
    let s2 := { s1 with freeSeed := s1.freeSeed + 1 }
    if Config.takeBeforeLines s1.freeSeed then takeFirst s2 else linesFirst s2
  else takeFirst s1

/-! ### The reference machine -/

/-- R14: a REF notice. -/
def refNotice (s : State) : State :=
  s.notify .ref [.kw s.ref.state.kw, bvFld s.fc, natFld s.ref.tracked]

/-- The missing-pulse expiry after a pulse at a position (R8 to R10). -/
def Ref.watchFrom (r : Ref) (pos : TickPos) : Ref :=
  { r with expiry := some (later pos (missingInterval r.tracked)) }

/-- R8: a pulse that finds FREE or LOST. -/
def Ref.acquire (r : Ref) (pos : TickPos) : Ref :=
  { r with state := .acquiring, count := 0, runStart := some pos, nextGen := none }

/-- R9: a pulse that finds ACQUIRING, `p` ticks after the previous one. DESIGN CHOICE (log entry 84): at the lock the run start, which
the rule does not name, stays at the pulse from which the eight periods were counted. -/
def Ref.count8 (r : Ref) (pos : TickPos) (p : Nat) : Ref :=
  if withinTolerance p r.rate.period then
    if 8 ≤ r.count + 1 then
      { r with state := .locked, count := 0, tracked := ticksFrom (r.runStart.getD pos) pos / 8 }
    else { r with count := r.count + 1 }
  else { r with count := 0, runStart := some pos }

/-- R10: a pulse that finds LOCKED. -/
def Ref.track (r : Ref) (pos : TickPos) (p : Nat) : Ref :=
  if withinTolerance p r.tracked then { r with tracked := eighthStep r.tracked p }
  else { r with state := .acquiring, count := 0, runStart := some pos }

/-- R7 to R10: the machine's record after a pulse at `pos`. -/
def Ref.pulse (r : Ref) (pos : TickPos) : Ref :=
  let p := ticksFrom (r.lastPulse.getD pos) pos
  let r1 := { r with lastPulse := some pos }
  (match r.state with
    | .free | .lost => r1.acquire pos
    | .acquiring => r1.count8 pos p
    | .locked => r1.track pos p).watchFrom pos

/-- R7: whether a pulse is a frame boundary. -/
def Ref.pulseBounds (r : Ref) (pos : TickPos) : Bool := decide (r.tracked < 2 * ticksFrom r.lastBoundary pos)

/-- FREF_PULSE (R7 to R10). -/
def frefPulse (phase : BitVec 8) (s : State) : State :=
  let s1 := { s with phase := phase }
  let pos := s1.now
  let s2 := if s1.ref.pulseBounds pos then frameBoundary pos .PULSE s1 else s1
  let s3 := s2.updRef fun r => r.pulse pos
  if s2.ref.state ≠ .locked ∧ s3.ref.state = .locked then refNotice s3 else s3

/-- FLYWHEEL_BOUNDARY (R11), when the next generated boundary has been reached. -/
def flywheelBoundary (s : State) : State :=
  match s.ref.nextGen with
  | some x =>
    if s.reached x then
      (frameBoundary x .FLYWHEEL (s.atInstant x)).updRef fun r => { r with nextGen := some (later x r.tracked) }
    else s
  | none => s

/-- R12: the machine's record on entry to LOST. DESIGN CHOICE (log entries 68 and 84): the consistency count and the run start stay
at their last values. -/
def Ref.lose (r : Ref) : Ref :=
  { r with state := .lost, expiry := none,
           nextGen := some (later (r.lastPulse.getD r.lastBoundary) (2 * r.tracked)) }

/-- MISSING_PULSE_EXPIRY (R12), when the expiry has been reached. DESIGN CHOICE (log entry 60): the boundary made at once lies
at the tick position of the expiry, also where a REF SET to a faster rate (R6) has put that behind the present. -/
def missingPulseExpiry (s : State) : State :=
  match s.ref.expiry with
  | some x =>
    if s.reached x then refNotice (frameBoundary x .FLYWHEEL ((s.atInstant x).updRef Ref.lose)) else s
  | none => s

/-! ### Requests -/

/-- TIME? (R1). -/
def reqTimeQuery (args : List Tok) (s : State) : Answer :=
  match args with
  | [] => okReply [bvFld s.hc, bvFld s.fc] s
  | _ => refuse .synErr s

/-- R6: the machine's record in ACQUIRING or LOCKED after a new rate. -/
def Ref.restart (r : Ref) : Ref :=
  let last := r.lastPulse.getD r.lastBoundary
  { r with state := .acquiring, count := 0, runStart := some last,
           expiry := some (later last (missingInterval r.tracked)) }

/-- R6: the flywheel at a new rate, in FREE or LOST: a boundary at once where its instant has passed. -/
def refly (s : State) : State :=
  let gen := later s.ref.lastBoundary s.ref.tracked
  if gen ≠ s.now ∧ notBefore gen s.now then
    (frameBoundary s.now .FLYWHEEL s).updRef fun r => { r with nextGen := some (later s.now r.tracked) }
  else s.updRef fun r => { r with nextGen := some gen }

/-- REF SET (R6). -/
def reqRefSet (args : List Tok) (s : State) : Answer :=
  match args with
  | [t] =>
    match Tok.rate? t with
    | none => refuse .synErr s
    | some rate =>
      if rate = s.ref.rate then okReply [] s
      else
        let s1 := s.updRef fun r => { r with rate := rate, tracked := rate.period }
        match s.ref.state with
        | .free | .lost => okReply [] (refly s1)
        | .acquiring | .locked => okReply [] (s1.updRef Ref.restart)
  | _ => refuse .synErr s

/-- REF? (R14). -/
def reqRefQuery (args : List Tok) (s : State) : Answer :=
  match args with
  | [] =>
    okReply
      [.kw s.ref.state.kw, .milli s.ref.rate.milli, natFld s.ref.rate.period, natFld s.ref.tracked,
       natFld s.ref.count, optBv s.ref.lastPulse, bvFld s.fc] s
  | _ => refuse .synErr s

end Sys2Proof.Machine
end

