-- ==== Sys2Proof/Machine/HouseSample.lean ====
section
/-! DEFINITION. HOUSE_SAMPLE (R1): the house sample named by the present HC is produced, and HC advances (log entry 2). -/

namespace Sys2Proof.Machine

/-- R44: the words on the output channels: 0, then the words of the RUNNING programmes' lanes. -/
def State.programmeWords (s : State) : Vector Sample 24 :=
  allProgs.foldl
    (fun out p =>
      let g := s.pgms[p]
      if g.ctl.state = .running then
        (g.ctl.lanes.zip (channelWords g (s.laneWords p))).foldl (fun out kw => out.set kw.1 kw.2) out
      else out) (Vector.replicate 24 0)

/-- R42, R44: the word on one output channel: where a park of this house sample has fixed it, that word. -/
def State.outputWord (s : State) (words : Vector Sample 24) (k : LaneId) : Sample :=
  s.lanes[k].outLatch.getD words[k]

/-- R44: the words the output channels carry. -/
def deliverOutputs (s : State) : State :=
  let words := s.programmeWords
  s.updPins fun x => { x with out := allLanes.foldl (fun out (k : LaneId) => out.set k.val (s.outputWord words k)) x.out }

/-- R122: the probe records lane 0 of its programme. -/
def recordProbe (s : State) : State :=
  match s.probe.pgm with
  | some p =>
    match s.pgms[p].ctl.lanes with
    | k :: _ => s.updProbe fun r => r.record s.hc (s.laneWord k)
    | [] => s
  | none => s

/-- R168: a slot records the output channels of its programme's lanes. -/
def recordSlot (s : State) (c : SlotId) : State :=
  match s.slots[c].pgm with
  | some p =>
    s.updSlot c fun x =>
      x.record s.hc (s.slotPagesPerLane c * Config.pageWords) (s.pgms[p].ctl.lanes.map fun k => s.pins.out[k])
  | none => s

/-- The records of a RUNNING programme after the house sample. -/
def tickPgm (s : State) (p : ProgId) : State :=
  if s.pgms[p].ctl.state = .running then
    s.updPgm p fun g => g.tick (s.laneWords p) (s.anyLaneInvalid p) (s.pagesHeld p)
  else s

/-- R1, R3, R4, R163: HC advances; a close and a sample instant fall due; the contact outputs follow; what belonged to the
house sample is dropped. -/
def advance (s : State) : State :=
  let hc := s.hc + 1
  let s1 := allLanes.foldl (fun s k => s.updLane k fun l => { l with latch := none, outLatch := none }) s
  let s2 := allLines.foldl (fun s l => s.updGpo l Gpo.next) s1
  { s2 with hc := hc, phase := 0, closeDue := s.closeDue || decide (hc.toNat % Config.subBlock = 0),
            gpiDue := s.gpiDue || decide (hc.toNat % Config.gpiPeriod = 0), boundaryHere := false }

/-- HOUSE_SAMPLE. -/
def houseSample (s : State) : State :=
  let s1 := deliverOutputs (formLanesOf allLanes s)
  let s2 := allSlots.foldl recordSlot (recordProbe s1)
  advance (allProgs.foldl tickPgm s2)

end Sys2Proof.Machine
end

