-- ==== Sys2Proof/Machine/Start.lean ====
section
/-! DEFINITION. The profile store and the kinds of start (12 sections 12.5 and 12.6): POWER_ON, RESETN_RELEASE, POWER_LOSS,
SAVE, SAVE_COMPLETE, RESTART FULL and RESTART PROC. -/

namespace Sys2Proof.Machine

/-! ### The profile image (R192) -/

/-- R192: what the image holds of a programme. -/
def Pgm.image (g : Pgm) : Option PgmImage :=
  if g.ctl.state = .undefined then none
  else
    some { layout := g.ctl.layout, lanes := g.ctl.lanes, basePreset := g.ctl.basePreset,
           running := decide (g.ctl.state = .running), mode := g.ctl.mode, revert := g.ctl.revert,
           v := g.dly.v, o := g.dly.o, motionMode := g.dly.motionMode }

/-- R192: the configuration as it stands. -/
def State.snapshot (s : State) : Image :=
  { rate := s.ref.rate, lanes := s.lanes.map fun l => (l.main, l.backup), pgms := s.pgms.map Pgm.image,
    presets := s.presets, points := s.points.map fun x => x.cfg, gpis := s.gpis.map fun g => g.cfg,
    watch := s.watch.cfg, gpos := s.gpos.map fun g => g.cfg }

/-- The factory configuration: what every block takes from an INVALID or NONE image. -/
def Image.factory : Image :=
  { rate := .r25, lanes := Vector.replicate 24 (none, none), pgms := Vector.replicate 8 none,
    presets := Vector.replicate 16 Preset.factory, points := Vector.replicate 48 PointCfg.factory,
    gpis := Vector.replicate 8 GpiCfg.factory, watch := WatchCfg.factory,
    gpos := Vector.replicate 8 GpoCfg.factory }

/-- R192: the status of the store. -/
def Store.status : Store → ProfileStatus
  | .never => .none
  | .image _ _ => .valid
  | .broken => .invalid

/-- R192: the configuration a start takes. -/
def Store.config : Store → Image
  | .image img _ => img
  | _ => Image.factory

/-- R193: the store after a power loss or a hardware reset. -/
def Profile.interrupted (p : Profile) : Store := if p.saving.isSome then .broken else p.store

/-! ### Starts (R194) -/

/-- R58, R79, R119: a defined programme of the image, before any is run. -/
def PgmImage.load (x : PgmImage) : Pgm :=
  { ctl := { Ctl.define x.layout x.lanes x.basePreset with
               mode := x.mode, revert := x.revert, lcPgm := 96, pads := List.replicate x.lanes.length 0 },
    dly := ({ Delay.undefined with v := x.v, o := x.o, motionMode := x.motionMode } : Delay).form 96,
    mtr := Meter.start x.lanes.length,
    cor := Correction.start [x.basePreset] }

def loadPgm : Option PgmImage → Pgm
  | some x => x.load
  | none => Pgm.undefined

/-- R194, steps 1 to 3: every block at its values after a hardware reset. -/
def loadAll (cause : StartCause) (baudsel atnpol : Bool) (store : Store) (s : State) : State :=
  let c := store.config
  { powered := true, cause := cause, hc := 0, phase := 0, fc := 0, closeDue := false, gpiDue := true,
    boundaryHere := false, ref := Ref.start c.rate c.rate.period,
    ports := Vector.replicate 6 Port.reset, lanes := c.lanes.map fun l => Lane.start l.1 l.2,
    pgms := c.pgms.map loadPgm, owners := List.replicate 2048 .free, presets := c.presets,
    probe := Probe.reset, reports := Vector.replicate 8 none, scanDue := false, scanNo := 0,
    points := c.points.map Point.start, gpis := c.gpis.map Gpi.start, gpiFirst := true, gpiFifo := [],
    gpiOverflow := false,
    watch := { cfg := c.watch, equal := c.watch.agrees 0, latched := false, word := none },
    gpos := c.gpos.map Gpo.start, slots := Vector.replicate 2 Slot.reset, takes := [], nextId := 0,
    link := { Link.start baudsel atnpol with rx := s.link.rx.restarted },
    profile := { store := store, status := store.status, saving := none, lastSave := none },
    pins := { baudsel := baudsel, atnpol := atnpol, gpi := s.pins.gpi, out := Vector.replicate 24 0 },
    freeSeed := s.freeSeed, pending := s.pending }

/-- R194, step 4: the programmes stored RUNNING, in programme-number order. DEDUCED (log entry 46): one that finds no page
for each of its lanes, because a lower-numbered one took the pool under R60, stays PARKED as a refused PGM RUN
leaves it (R41). -/
def runStored (c : Image) (s : State) : State :=
  allProgs.foldl
    (fun s p =>
      match c.pgms[p] with
      | some x => if x.running then (runProgramme p s).getD s else s
      | none => s) s

/-- The link rate, baud (R186). -/
def Link.rate (l : Link) : Nat := if l.fast then 460800 else 115200

/-- R194, step 5: a HELLO notice. -/
def helloNotice (s : State) : State :=
  s.notify .hello
    [.kw .OJ_2408, .kw s.cause.kw, .kw s.profile.status.kw, natFld s.link.rate]

/-- R194: a start with cause POWER, PIN or FULL from a store. -/
def start (cause : StartCause) (baudsel atnpol : Bool) (store : Store) (s : State) : State :=
  helloNotice (runStored store.config (loadAll cause baudsel atnpol store s))

/-- POWER_ON (R194). -/
def powerOn (baudsel atnpol : Bool) (s : State) : State :=
  start .power baudsel atnpol s.profile.interrupted s

/-- RESETN_RELEASE (R194). -/
def resetnRelease (baudsel atnpol : Bool) (s : State) : State :=
  start .pin baudsel atnpol s.profile.interrupted s

/-- POWER_LOSS (R193): the supply goes; a save in progress leaves an image that disagrees with its CRC-32. What else the
part holds is not read again before the next POWER_ON (log entry 36). -/
def powerLoss (s : State) : State :=
  { s with powered := false, profile := { s.profile with store := s.profile.interrupted, saving := none } }

/-! ### SAVE (R193) -/

/-- SAVE. -/
def reqSave (args : List Tok) (s : State) : Answer :=
  match args with
  | [] =>
    if s.profile.saving.isSome then refuse .busy s
    else okReply [] (s.updProfile fun p => { p with saving := some s.snapshot })
  | _ => refuse .synErr s

/-- R193: the store, the status and the save state when a save ends. -/
def savedProfile (img : Image) (ok : Bool) : Profile :=
  let store := if ok then .image img (Config.crc32 img) else .broken
  { store := store, status := store.status, saving := none, lastSave := some ok }

/-- SAVE_COMPLETE, while SAVING. -/
def saveComplete (ok : Bool) (s : State) : State :=
  match s.profile.saving with
  | some img =>
    (s.updProfile fun _ => savedProfile img ok).notify .saved
      [boolFld .OK .FAIL ok, bvFld (Config.crc32 img)]
  | none => s

/-! ### RESTART (R195) -/

/-- R79, steps 2 and 3, with R58, R98, R119: a programme's records at RESTART PROC, given its pages per lane. SHORT stands
until step 5 sets or clears it. DESIGN CHOICE (log entry 80): the fade position of its output is 0. -/
def Pgm.restart (g : Pgm) (pages : Nat) : Pgm :=
  match g.ctl.state with
  | .undefined => { g with ctl := { g.ctl with revertCount := 0, changeovers := 0 }, mtr := Meter.start 0 }
  | st =>
    let k := g.ctl.lanes.length
    let d := g.dly.form 96
    let len := min d.dReq (pages * Config.pageWords)
    { ctl := { g.ctl with active := .main, revertCount := 0, changeovers := 0, lcPgm := 96,
                          pads := List.replicate k 0, inflight := none, pending := Change.empty,
                          out := if st = .running then .opened else .silent, fadePos := 0,
                          fadeHold := false },
      dly := if st = .running then
               { d with motion := .still, slewCount := 0, jumpPos := 0, hist := 0, pendTarget := none,
                        dApp := len, dTarget := len, padsNow := List.replicate k 0 }
             else d,
      mtr := Meter.start k,
      cor := Correction.start [g.ctl.basePreset] }

/-- R79, step 4: pages beyond the need are released, with no service of the waiting list. -/
def releaseBeyondNeed (s : State) (p : ProgId) : State :=
  let held := s.pagesHeld p
  let need := s.need p
  if s.pgms[p].ctl.state = .running ∧ need < held then
    (s.setOwners (releaseLanes p (s.laneCount p) (held - need) s.owners)).updDly p
      fun d => d.trim need (s.padMax p)
  else s

/-- R79, step 5: a RUNNING programme whose need exceeds its pages asks for the difference. A PAGES notice is sent where the
programme is SHORT after it, and where SHORT was set and is cleared (R80, log entry 23). -/
def askAgain (s : State) (p : ProgId) : State :=
  let d := s.pgms[p].dly
  let held := s.pagesHeld p
  let need := s.need p
  let grant := s.grantFor (s.laneCount p) (need - held)
  let s1 := (s.setOwners (attachLanes p (s.laneCount p) grant s.owners)).updDly p
    fun d => if 0 < grant then d.attach held else d
  if s.pgms[p].ctl.state ≠ .running then s
  else if held + grant < need then
    let len := min d.dReq ((held + grant) * Config.pageWords)
    pagesNotice p false (s1.updDly p fun d => { d with short := true, dApp := len, dTarget := len })
  else
    let s2 := s1.updDly p fun d => { d with short := false, dApp := d.dReq, dTarget := d.dReq }
    if d.short then pagesNotice p false s2 else s2

/-- R165: an input line at RESTART PROC. -/
def Gpi.restart (g : Gpi) : Gpi := { g with run := 0, runStart := none }

/-- R165: an output line at RESTART PROC. The pin follows from the next house sample, unless it is held (R163). -/
def Gpo.restart (g : Gpo) : Gpo := { g with contrib := [] }

/-- R79, step 1, R61, R166: a slot's pages are released with the arbiter's service, and the slot becomes FREE, with no CAP
notice. -/
def dropSlot (s : State) (c : SlotId) : State :=
  (if s.slotPages c = 0 then s else freeSlot c s).updSlot c fun _ => Slot.reset

/-- R79, step 1: DESIGN CHOICE (log entry 57): C0 is freed, and its pages served, before C1. -/
def dropSlots (s : State) : State := allSlots.foldl dropSlot s

/-- R29, R38, R120, R153, R165, R185: the blocks whose values at RESTART PROC need no order. DESIGN CHOICE (log entry 62): the
house sample in which it is taken carries the restarted lanes, so words fixed earlier in it are dropped. -/
def restartBlocks (s : State) : State :=
  formMatch
    { s with cause := .proc, ports := Vector.replicate 6 Port.reset,
             lanes := s.lanes.map fun l => Lane.start l.main l.backup, probe := Probe.reset,
             reports := Vector.replicate 8 none, scanDue := false, scanNo := 0,
             points := s.points.map fun x => Point.start x.cfg, gpis := s.gpis.map Gpi.restart,
             gpiFirst := true, gpiFifo := [], gpiOverflow := false,
             watch := { s.watch with latched := false, word := none }, gpos := s.gpos.map Gpo.restart,
             takes := [] }

/-- R195: every block takes its values after RESTART PROC, in the order of R79, and a HELLO notice is produced. DESIGN CHOICE
(log entry 79): a line partly received stays in the receive line buffer, with its marks. -/
def restartProc (s : State) : State :=
  let s1 := dropSlots (restartBlocks s)
  let s2 := allProgs.foldl (fun s p => s.updPgm p fun g => g.restart (s1.pagesHeld p)) s1
  helloNotice (allProgs.foldl askAgain (allProgs.foldl releaseBeyondNeed s2))

/-- RESTART PROC as a request: the reply is produced first, the notices after it. -/
def takeRestartProc (tag : Nat) (args : List Tok) (s : State) : State :=
  if 9999 < tag then s.sendReply none (.er .synErr)
  else if args ≠ [] then s.sendReply (some tag) (.er .synErr)
  else if s.profile.saving.isSome then s.sendReply (some tag) (.er .busy)
  else restartProc (s.sendReply (some tag) (.ok [] []))

/-- RESTART FULL as a request: the FIFO's lines and the reply are sent, and the part starts from the store. -/
def takeRestartFull (tag : Nat) (args : List Tok) (s : State) : State :=
  if 9999 < tag then s.sendReply none (.er .synErr)
  else if args ≠ [] then s.sendReply (some tag) (.er .synErr)
  else if s.profile.saving.isSome then s.sendReply (some tag) (.er .busy)
  else
    let sent := (s.sendReply (some tag) (.ok [] [])).link.fifo
    (start .full s.pins.baudsel s.pins.atnpol s.profile.store s).updLink fun l => { l with txd := sent }

end Sys2Proof.Machine
end

