-- ==== Sys2Proof/Machine/Link.lean ====
section
/-! DEFINITION. The control link's own requests (12): GATE OPEN, GATE CLOSE, HELLO?; the lines that are no request; and the
taking of a line, whichever it is, with TX_LINE_SENT. -/

namespace Sys2Proof.Machine

/-- GATE CLOSE (R189). -/
def reqGateClose (args : List Tok) (s : State) : Answer :=
  match args with
  | [] => okReply [] (s.updLink fun l => { l with gateOpen := false })
  | _ => refuse .synErr s

/-- R190: the gate opens, the held lines go to the transmit FIFO, oldest first, and then a LOST notice where lines were
lost. -/
def Link.drainHeld (l : Link) : Link :=
  { l with gateOpen := true, held := [], lost := 0,
           fifo := l.fifo ++ l.held ++ (if 0 < l.lost then [.notice .lost [natFld l.lost]] else []) }

/-- GATE OPEN (R190). -/
def reqGateOpen (args : List Tok) (s : State) : Answer :=
  match args with
  | [] => okReply [natFld s.link.held.length, natFld s.link.lost] (s.updLink Link.drainHeld)
  | _ => refuse .synErr s

/-- R191: the fields of HELLO?. -/
def helloFlds (s : State) : List Fld :=
  [.kw .OJ_2408, .kw s.cause.kw, .kw s.profile.status.kw, boolFld .SAVING .IDLE s.profile.saving.isSome,
   optFld (boolFld .OK .FAIL) s.profile.lastSave, natFld s.link.rate, boolFld .OPEN .CLOSED s.link.gateOpen,
   natFld s.link.held.length, natFld s.link.lost, natFld s.link.badLines]

/-- HELLO? (R191). -/
def reqHelloQuery (args : List Tok) (s : State) : Answer :=
  match args with
  | [] => okReply (helloFlds s) s
  | [.kw .CLEAR] => okReply (helloFlds s) (s.updLink fun l => { l with badLines := 0 })
  | _ => refuse .synErr s

/-- R186: a line of more than 160 characters. -/
def takeLineTooLong (s : State) : State := s.sendReply none (.er .toolong)

/-- R187: an error reply to a line whose tag, if it has one, is 0 to 9999. -/
def answerError (tag : Option Nat) (e : ErrCode) (s : State) : State :=
  match tag with
  | some t => if t ≤ 9999 then s.sendReply (some t) (.er e) else s.sendReply none (.er .synErr)
  | none => s.sendReply none (.er .synErr)

/-- R187, R188: a line is taken, whichever it is. An event of the part is no line. -/
def runLine (i : Instr) (s : State) : State :=
  match i with
  | .powerOn _ _ => s
  | .resetnRelease _ _ => s
  | .houseSample => s
  | .subBlockClose => s
  | .multiplierRampEnd _ => s
  | .gpiSampleInstant _ => s
  | .frefPulse _ => s
  | .flywheelBoundary => s
  | .missingPulseExpiry => s
  | .frameEdge _ _ _ => s
  | .windowClose _ => s
  | .signalExpiry _ => s
  | .laneFadeInEnd _ => s
  | .changeoverSwitch _ => s
  | .outputFadeUpEnd _ => s
  | .slewStep _ => s
  | .jumpBottom _ => s
  | .jumpFadeUpEnd _ => s
  | .alarmScan => s
  | .envelopeWindow => s
  | .probeSearchComplete => s
  | .probeTimeout => s
  | .captureComplete _ => s
  | .saveComplete _ => s
  | .txLineSent => s
  | .lineTooLong => takeLineTooLong s
  | .unknownVerb tag => answerError tag .verb s
  | .timeQuery tag args => s.answer tag (reqTimeQuery args)
  | .refSet tag args => s.answer tag (reqRefSet args)
  | .refQuery tag args => s.answer tag (reqRefQuery args)
  | .portQuery tag args => s.answer tag (reqPortQuery args)
  | .laneSet tag args => s.answer tag (reqLaneSet args)
  | .laneQuery tag args => s.answer tag (reqLaneQuery args)
  | .pgmDefine tag args => s.answer tag (reqPgmDefine args)
  | .pgmRun tag args => s.answer tag (reqPgmRun args)
  | .pgmPark tag args => s.answer tag (reqPgmPark args)
  | .pgmDelete tag args => s.answer tag (reqPgmDelete args)
  | .pgmMode tag args => s.answer tag (reqPgmMode args)
  | .pgmSource tag args => s.answer tag (reqPgmSource args)
  | .pgmRevert tag args => s.answer tag (reqPgmRevert args)
  | .pgmQuery tag args => s.answer tag (reqPgmQuery args)
  | .dlyVideo tag args => s.answer tag (reqDlyVideo args)
  | .dlyTrim tag args => s.answer tag (reqDlyTrim args)
  | .dlyMotion tag args => s.answer tag (reqDlyMotion args)
  | .dlyQuery tag args => s.answer tag (reqDlyQuery args)
  | .mtrQuery tag args => s.answer tag (reqMtrQuery args)
  | .mtrBinsQuery tag args => s.answer tag (reqMtrBinsQuery args)
  | .mtrReset tag args => s.answer tag (reqMtrReset args)
  | .presetSet tag args => s.answer tag (reqPresetSet args)
  | .presetRecall tag args => s.answer tag (reqPresetRecall args)
  | .presetPush tag args => s.answer tag (reqPresetPush args)
  | .presetPop tag args => s.answer tag (reqPresetPop args)
  | .presetQuery tag args => s.answer tag (reqPresetQuery args)
  | .presetPgmQuery tag args => s.answer tag (reqPresetPgmQuery args)
  | .prbArm tag args => s.answer tag (reqPrbArm args)
  | .prbCancel tag args => s.answer tag (reqPrbCancel args)
  | .prbQuery tag args => s.answer tag (reqPrbQuery args)
  | .almSet tag args => s.answer tag (reqAlmSet args)
  | .almOff tag args => s.answer tag (reqAlmOff args)
  | .almAck tag args => s.answer tag (reqAlmAck args)
  | .almForceOn tag args => s.answer tag (reqAlmForceOn args)
  | .almForceOff tag args => s.answer tag (reqAlmForceOff args)
  | .almQuery tag args => s.answer tag (reqAlmQuery args)
  | .almListQuery tag args => s.answer tag (reqAlmListQuery args)
  | .gpiSet tag args => s.answer tag (reqGpiSet args)
  | .gpiQuery tag args => s.answer tag (reqGpiQuery args)
  | .gpiPop tag args => s.answer tag (reqGpiPop args)
  | .watchSet tag args => s.answer tag (reqWatchSet args)
  | .watchQuery tag args => s.answer tag (reqWatchQuery args)
  | .gpoSet tag args => s.answer tag (reqGpoSet args)
  | .gpoPolarity tag args => s.answer tag (reqGpoPolarity args)
  | .gpoHold tag args => s.answer tag (reqGpoHold args)
  | .gpoQuery tag args => s.answer tag (reqGpoQuery args)
  | .capArm tag args => s.answer tag (reqCapArm args)
  | .capTrig tag args => s.answer tag (reqCapTrig args)
  | .capRead tag args => s.answer tag (reqCapRead args)
  | .capRelease tag args => s.answer tag (reqCapRelease args)
  | .capFree tag args => s.answer tag (reqCapFree args)
  | .capQuery tag args => s.answer tag (reqCapQuery args)
  | .takAdd tag args => s.answer tag (reqTakAdd args)
  | .takCancel tag args => s.answer tag (reqTakCancel args)
  | .takQuery tag args => s.answer tag (reqTakQuery args)
  | .takListQuery tag args => s.answer tag (reqTakListQuery args)
  | .helloQuery tag args => s.answer tag (reqHelloQuery args)
  | .gateClose tag args => s.answer tag (reqGateClose args)
  | .gateOpen tag args => s.answer tag (reqGateOpen args)
  | .save tag args => s.answer tag (reqSave args)
  | .restartFull tag args => takeRestartFull tag args s
  | .restartProc tag args => takeRestartProc tag args s
  | .badLine tag => answerError tag .synErr s
  | .powerLoss => s

/-- R188: waiting lines are taken in the order received, up to `n` of them, while the FIFO holds 40 lines or fewer. -/
def takeWaiting : Nat → State → State
  | 0, s => s
  | n + 1, s =>
    match s.link.waiting with
    | [] => s
    | i :: rest =>
      if s.link.fifo.length ≤ Config.takeLevel then
        takeWaiting n (runLine i (s.updLink fun l => { l with waiting := rest }))
      else s

/-- TX_LINE_SENT (R188): the oldest line of the FIFO has left on TXD, and waiting lines are taken. -/
def txLineSent (s : State) : State :=
  match s.link.fifo with
  | [] => s
  | x :: rest =>
    takeWaiting s.link.waiting.length (s.updLink fun l => { l with fifo := rest, txd := [x] })

end Sys2Proof.Machine
end

