-- ==== Sys2Proof/Machine/Commands.lean ====
section
/-! DEFINITION. The meaning of every command: one definition for each constructor of `Instr`, in the order of the table. An
event acts through `event`, a line of the link through `receive`. -/

namespace Sys2Proof.Machine

/-- POWER_ON (R194). -/
def execPowerOn (baudsel atnpol : Bool) (s : State) : Host.Outcome State Fault Refusal :=
  .next (Sys2Proof.Machine.powerOn baudsel atnpol s)

/-- RESETN_RELEASE (R194). -/
def execResetnRelease (baudsel atnpol : Bool) (s : State) : Host.Outcome State Fault Refusal :=
  event (resetnRelease baudsel atnpol) s

/-- HOUSE_SAMPLE (R1). -/
def execHouseSample (s : State) : Host.Outcome State Fault Refusal :=
  event houseSample s

/-- SUB_BLOCK_CLOSE (R3). -/
def execSubBlockClose (s : State) : Host.Outcome State Fault Refusal :=
  event subBlockClose s

/-- MULTIPLIER_RAMP_END (R114). -/
def execMultiplierRampEnd (p : ProgId) (s : State) : Host.Outcome State Fault Refusal :=
  event (multiplierRampEnd p) s

/-- GPI_SAMPLE_INSTANT (R4). -/
def execGpiSampleInstant (levels : Levels) (s : State) : Host.Outcome State Fault Refusal :=
  event (gpiSampleInstant levels) s

/-- FREF_PULSE (R7). -/
def execFrefPulse (phase : BitVec 8) (s : State) : Host.Outcome State Fault Refusal :=
  event (frefPulse phase) s

/-- FLYWHEEL_BOUNDARY (R11). -/
def execFlywheelBoundary (s : State) : Host.Outcome State Fault Refusal :=
  event flywheelBoundary s

/-- MISSING_PULSE_EXPIRY (R12). -/
def execMissingPulseExpiry (s : State) : Host.Outcome State Fault Refusal :=
  event missingPulseExpiry s

/-- FRAME_EDGE (R20). -/
def execFrameEdge (port : PortId) (phase : BitVec 8) (words : Frame) (s : State) : Host.Outcome State Fault Refusal :=
  event (frameEdge port phase words) s

/-- WINDOW_CLOSE (R17). -/
def execWindowClose (port : PortId) (s : State) : Host.Outcome State Fault Refusal :=
  event (windowClose port) s

/-- SIGNAL_EXPIRY (R16). -/
def execSignalExpiry (port : PortId) (s : State) : Host.Outcome State Fault Refusal :=
  event (signalExpiry port) s

/-- LANE_FADE_IN_END (R35). -/
def execLaneFadeInEnd (lane : LaneId) (s : State) : Host.Outcome State Fault Refusal :=
  event (laneFadeInEnd lane) s

/-- CHANGEOVER_SWITCH (R51). -/
def execChangeoverSwitch (p : ProgId) (s : State) : Host.Outcome State Fault Refusal :=
  event (changeoverSwitch p) s

/-- OUTPUT_FADE_UP_END (R52). -/
def execOutputFadeUpEnd (p : ProgId) (s : State) : Host.Outcome State Fault Refusal :=
  event (outputFadeUpEnd p) s

/-- SLEW_STEP (R73). -/
def execSlewStep (p : ProgId) (s : State) : Host.Outcome State Fault Refusal :=
  event (slewStep p) s

/-- JUMP_BOTTOM (R75). -/
def execJumpBottom (p : ProgId) (s : State) : Host.Outcome State Fault Refusal :=
  event (jumpBottom p) s

/-- JUMP_FADE_UP_END (R75). -/
def execJumpFadeUpEnd (p : ProgId) (s : State) : Host.Outcome State Fault Refusal :=
  event (jumpFadeUpEnd p) s

/-- ALARM_SCAN (R137). -/
def execAlarmScan (s : State) : Host.Outcome State Fault Refusal :=
  event alarmScan s

/-- ENVELOPE_WINDOW (R126). -/
def execEnvelopeWindow (s : State) : Host.Outcome State Fault Refusal :=
  event envelopeWindow s

/-- PROBE_SEARCH_COMPLETE (R127). -/
def execProbeSearchComplete (s : State) : Host.Outcome State Fault Refusal :=
  event probeSearchComplete s

/-- PROBE_TIMEOUT (R124). -/
def execProbeTimeout (s : State) : Host.Outcome State Fault Refusal :=
  event probeTimeout s

/-- CAPTURE_COMPLETE (R171). -/
def execCaptureComplete (slot : SlotId) (s : State) : Host.Outcome State Fault Refusal :=
  event (captureComplete slot) s

/-- SAVE_COMPLETE (R193). -/
def execSaveComplete (ok : Bool) (s : State) : Host.Outcome State Fault Refusal :=
  event (saveComplete ok) s

/-- TX_LINE_SENT (R188). -/
def execTxLineSent (s : State) : Host.Outcome State Fault Refusal :=
  event txLineSent s

/-- LINE_TOO_LONG (R186). -/
def execLineTooLong (s : State) : Host.Outcome State Fault Refusal :=
  receive .lineTooLong takeLineTooLong s

/-- UNKNOWN_VERB (R187). -/
def execUnknownVerb (tag : Option Nat) (s : State) : Host.Outcome State Fault Refusal :=
  receive (.unknownVerb tag) (answerError tag .verb) s

/-- TIME_QUERY (R1). -/
def execTimeQuery (tag : Nat) (args : List Tok) (s : State) : Host.Outcome State Fault Refusal :=
  receive (.timeQuery tag args) (fun s => s.answer tag (reqTimeQuery args)) s

/-- REF_SET (R6). -/
def execRefSet (tag : Nat) (args : List Tok) (s : State) : Host.Outcome State Fault Refusal :=
  receive (.refSet tag args) (fun s => s.answer tag (reqRefSet args)) s

/-- REF_QUERY (R14). -/
def execRefQuery (tag : Nat) (args : List Tok) (s : State) : Host.Outcome State Fault Refusal :=
  receive (.refQuery tag args) (fun s => s.answer tag (reqRefQuery args)) s

/-- PORT_QUERY (R28). -/
def execPortQuery (tag : Nat) (args : List Tok) (s : State) : Host.Outcome State Fault Refusal :=
  receive (.portQuery tag args) (fun s => s.answer tag (reqPortQuery args)) s

/-- LANE_SET (R32). -/
def execLaneSet (tag : Nat) (args : List Tok) (s : State) : Host.Outcome State Fault Refusal :=
  receive (.laneSet tag args) (fun s => s.answer tag (reqLaneSet args)) s

/-- LANE_QUERY (R37). -/
def execLaneQuery (tag : Nat) (args : List Tok) (s : State) : Host.Outcome State Fault Refusal :=
  receive (.laneQuery tag args) (fun s => s.answer tag (reqLaneQuery args)) s

/-- PGM_DEFINE (R40). -/
def execPgmDefine (tag : Nat) (args : List Tok) (s : State) : Host.Outcome State Fault Refusal :=
  receive (.pgmDefine tag args) (fun s => s.answer tag (reqPgmDefine args)) s

/-- PGM_RUN (R41). -/
def execPgmRun (tag : Nat) (args : List Tok) (s : State) : Host.Outcome State Fault Refusal :=
  receive (.pgmRun tag args) (fun s => s.answer tag (reqPgmRun args)) s

/-- PGM_PARK (R42). -/
def execPgmPark (tag : Nat) (args : List Tok) (s : State) : Host.Outcome State Fault Refusal :=
  receive (.pgmPark tag args) (fun s => s.answer tag (reqPgmPark args)) s

/-- PGM_DELETE (R43). -/
def execPgmDelete (tag : Nat) (args : List Tok) (s : State) : Host.Outcome State Fault Refusal :=
  receive (.pgmDelete tag args) (fun s => s.answer tag (reqPgmDelete args)) s

/-- PGM_MODE (R48). -/
def execPgmMode (tag : Nat) (args : List Tok) (s : State) : Host.Outcome State Fault Refusal :=
  receive (.pgmMode tag args) (fun s => s.answer tag (reqPgmMode args)) s

/-- PGM_SOURCE (R47). -/
def execPgmSource (tag : Nat) (args : List Tok) (s : State) : Host.Outcome State Fault Refusal :=
  receive (.pgmSource tag args) (fun s => s.answer tag (reqPgmSource args)) s

/-- PGM_REVERT (R54). -/
def execPgmRevert (tag : Nat) (args : List Tok) (s : State) : Host.Outcome State Fault Refusal :=
  receive (.pgmRevert tag args) (fun s => s.answer tag (reqPgmRevert args)) s

/-- PGM_QUERY (R57). -/
def execPgmQuery (tag : Nat) (args : List Tok) (s : State) : Host.Outcome State Fault Refusal :=
  receive (.pgmQuery tag args) (fun s => s.answer tag (reqPgmQuery args)) s

/-- DLY_VIDEO (R63). -/
def execDlyVideo (tag : Nat) (args : List Tok) (s : State) : Host.Outcome State Fault Refusal :=
  receive (.dlyVideo tag args) (fun s => s.answer tag (reqDlyVideo args)) s

/-- DLY_TRIM (R63). -/
def execDlyTrim (tag : Nat) (args : List Tok) (s : State) : Host.Outcome State Fault Refusal :=
  receive (.dlyTrim tag args) (fun s => s.answer tag (reqDlyTrim args)) s

/-- DLY_MOTION (R65). -/
def execDlyMotion (tag : Nat) (args : List Tok) (s : State) : Host.Outcome State Fault Refusal :=
  receive (.dlyMotion tag args) (fun s => s.answer tag (reqDlyMotion args)) s

/-- DLY_QUERY (R81). -/
def execDlyQuery (tag : Nat) (args : List Tok) (s : State) : Host.Outcome State Fault Refusal :=
  receive (.dlyQuery tag args) (fun s => s.answer tag (reqDlyQuery args)) s

/-- MTR_QUERY (R99). -/
def execMtrQuery (tag : Nat) (args : List Tok) (s : State) : Host.Outcome State Fault Refusal :=
  receive (.mtrQuery tag args) (fun s => s.answer tag (reqMtrQuery args)) s

/-- MTR_BINS_QUERY (R100). -/
def execMtrBinsQuery (tag : Nat) (args : List Tok) (s : State) : Host.Outcome State Fault Refusal :=
  receive (.mtrBinsQuery tag args) (fun s => s.answer tag (reqMtrBinsQuery args)) s

/-- MTR_RESET (R96). -/
def execMtrReset (tag : Nat) (args : List Tok) (s : State) : Host.Outcome State Fault Refusal :=
  receive (.mtrReset tag args) (fun s => s.answer tag (reqMtrReset args)) s

/-- PRESET_SET (R103). -/
def execPresetSet (tag : Nat) (args : List Tok) (s : State) : Host.Outcome State Fault Refusal :=
  receive (.presetSet tag args) (fun s => s.answer tag (reqPresetSet args)) s

/-- PRESET_RECALL (R106). -/
def execPresetRecall (tag : Nat) (args : List Tok) (s : State) : Host.Outcome State Fault Refusal :=
  receive (.presetRecall tag args) (fun s => s.answer tag (reqPresetRecall args)) s

/-- PRESET_PUSH (R106). -/
def execPresetPush (tag : Nat) (args : List Tok) (s : State) : Host.Outcome State Fault Refusal :=
  receive (.presetPush tag args) (fun s => s.answer tag (reqPresetPush args)) s

/-- PRESET_POP (R107). -/
def execPresetPop (tag : Nat) (args : List Tok) (s : State) : Host.Outcome State Fault Refusal :=
  receive (.presetPop tag args) (fun s => s.answer tag (reqPresetPop args)) s

/-- PRESET_QUERY (R104). -/
def execPresetQuery (tag : Nat) (args : List Tok) (s : State) : Host.Outcome State Fault Refusal :=
  receive (.presetQuery tag args) (fun s => s.answer tag (reqPresetQuery args)) s

/-- PRESET_PGM_QUERY (R104). -/
def execPresetPgmQuery (tag : Nat) (args : List Tok) (s : State) : Host.Outcome State Fault Refusal :=
  receive (.presetPgmQuery tag args) (fun s => s.answer tag (reqPresetPgmQuery args)) s

/-- PRB_ARM (R121). -/
def execPrbArm (tag : Nat) (args : List Tok) (s : State) : Host.Outcome State Fault Refusal :=
  receive (.prbArm tag args) (fun s => s.answer tag (reqPrbArm args)) s

/-- PRB_CANCEL (R129). -/
def execPrbCancel (tag : Nat) (args : List Tok) (s : State) : Host.Outcome State Fault Refusal :=
  receive (.prbCancel tag args) (fun s => s.answer tag (reqPrbCancel args)) s

/-- PRB_QUERY (R131). -/
def execPrbQuery (tag : Nat) (args : List Tok) (s : State) : Host.Outcome State Fault Refusal :=
  receive (.prbQuery tag args) (fun s => s.answer tag (reqPrbQuery args)) s

/-- ALM_SET (R132). -/
def execAlmSet (tag : Nat) (args : List Tok) (s : State) : Host.Outcome State Fault Refusal :=
  receive (.almSet tag args) (fun s => s.answer tag (reqAlmSet args)) s

/-- ALM_OFF (R133). -/
def execAlmOff (tag : Nat) (args : List Tok) (s : State) : Host.Outcome State Fault Refusal :=
  receive (.almOff tag args) (fun s => s.answer tag (reqAlmOff args)) s

/-- ALM_ACK (R146). -/
def execAlmAck (tag : Nat) (args : List Tok) (s : State) : Host.Outcome State Fault Refusal :=
  receive (.almAck tag args) (fun s => s.answer tag (reqAlmAck args)) s

/-- ALM_FORCE_ON (R144). -/
def execAlmForceOn (tag : Nat) (args : List Tok) (s : State) : Host.Outcome State Fault Refusal :=
  receive (.almForceOn tag args) (fun s => s.answer tag (reqAlmForceOn args)) s

/-- ALM_FORCE_OFF (R145). -/
def execAlmForceOff (tag : Nat) (args : List Tok) (s : State) : Host.Outcome State Fault Refusal :=
  receive (.almForceOff tag args) (fun s => s.answer tag (reqAlmForceOff args)) s

/-- ALM_QUERY (R152). -/
def execAlmQuery (tag : Nat) (args : List Tok) (s : State) : Host.Outcome State Fault Refusal :=
  receive (.almQuery tag args) (fun s => s.answer tag (reqAlmQuery args)) s

/-- ALM_LIST_QUERY (R152). -/
def execAlmListQuery (tag : Nat) (args : List Tok) (s : State) : Host.Outcome State Fault Refusal :=
  receive (.almListQuery tag args) (fun s => s.answer tag (reqAlmListQuery args)) s

/-- GPI_SET (R159). -/
def execGpiSet (tag : Nat) (args : List Tok) (s : State) : Host.Outcome State Fault Refusal :=
  receive (.gpiSet tag args) (fun s => s.answer tag (reqGpiSet args)) s

/-- GPI_QUERY (R158). -/
def execGpiQuery (tag : Nat) (args : List Tok) (s : State) : Host.Outcome State Fault Refusal :=
  receive (.gpiQuery tag args) (fun s => s.answer tag (reqGpiQuery args)) s

/-- GPI_POP (R158). -/
def execGpiPop (tag : Nat) (args : List Tok) (s : State) : Host.Outcome State Fault Refusal :=
  receive (.gpiPop tag args) (fun s => s.answer tag (reqGpiPop args)) s

/-- WATCH_SET (R162). -/
def execWatchSet (tag : Nat) (args : List Tok) (s : State) : Host.Outcome State Fault Refusal :=
  receive (.watchSet tag args) (fun s => s.answer tag (reqWatchSet args)) s

/-- WATCH_QUERY (R162). -/
def execWatchQuery (tag : Nat) (args : List Tok) (s : State) : Host.Outcome State Fault Refusal :=
  receive (.watchQuery tag args) (fun s => s.answer tag (reqWatchQuery args)) s

/-- GPO_SET (R164). -/
def execGpoSet (tag : Nat) (args : List Tok) (s : State) : Host.Outcome State Fault Refusal :=
  receive (.gpoSet tag args) (fun s => s.answer tag (reqGpoSet args)) s

/-- GPO_POLARITY (R164). -/
def execGpoPolarity (tag : Nat) (args : List Tok) (s : State) : Host.Outcome State Fault Refusal :=
  receive (.gpoPolarity tag args) (fun s => s.answer tag (reqGpoPolarity args)) s

/-- GPO_HOLD (R164). -/
def execGpoHold (tag : Nat) (args : List Tok) (s : State) : Host.Outcome State Fault Refusal :=
  receive (.gpoHold tag args) (fun s => s.answer tag (reqGpoHold args)) s

/-- GPO_QUERY (R164). -/
def execGpoQuery (tag : Nat) (args : List Tok) (s : State) : Host.Outcome State Fault Refusal :=
  receive (.gpoQuery tag args) (fun s => s.answer tag (reqGpoQuery args)) s

/-- CAP_ARM (R167). -/
def execCapArm (tag : Nat) (args : List Tok) (s : State) : Host.Outcome State Fault Refusal :=
  receive (.capArm tag args) (fun s => s.answer tag (reqCapArm args)) s

/-- CAP_TRIG (R169). -/
def execCapTrig (tag : Nat) (args : List Tok) (s : State) : Host.Outcome State Fault Refusal :=
  receive (.capTrig tag args) (fun s => s.answer tag (reqCapTrig args)) s

/-- CAP_READ (R172). -/
def execCapRead (tag : Nat) (args : List Tok) (s : State) : Host.Outcome State Fault Refusal :=
  receive (.capRead tag args) (fun s => s.answer tag (reqCapRead args)) s

/-- CAP_RELEASE (R173). -/
def execCapRelease (tag : Nat) (args : List Tok) (s : State) : Host.Outcome State Fault Refusal :=
  receive (.capRelease tag args) (fun s => s.answer tag (reqCapRelease args)) s

/-- CAP_FREE (R174). -/
def execCapFree (tag : Nat) (args : List Tok) (s : State) : Host.Outcome State Fault Refusal :=
  receive (.capFree tag args) (fun s => s.answer tag (reqCapFree args)) s

/-- CAP_QUERY (R175). -/
def execCapQuery (tag : Nat) (args : List Tok) (s : State) : Host.Outcome State Fault Refusal :=
  receive (.capQuery tag args) (fun s => s.answer tag (reqCapQuery args)) s

/-- TAK_ADD (R177). -/
def execTakAdd (tag : Nat) (args : List Tok) (s : State) : Host.Outcome State Fault Refusal :=
  receive (.takAdd tag args) (fun s => s.answer tag (reqTakAdd args)) s

/-- TAK_CANCEL (R178). -/
def execTakCancel (tag : Nat) (args : List Tok) (s : State) : Host.Outcome State Fault Refusal :=
  receive (.takCancel tag args) (fun s => s.answer tag (reqTakCancel args)) s

/-- TAK_QUERY (R183). -/
def execTakQuery (tag : Nat) (args : List Tok) (s : State) : Host.Outcome State Fault Refusal :=
  receive (.takQuery tag args) (fun s => s.answer tag (reqTakQuery args)) s

/-- TAK_LIST_QUERY (R183). -/
def execTakListQuery (tag : Nat) (args : List Tok) (s : State) : Host.Outcome State Fault Refusal :=
  receive (.takListQuery tag args) (fun s => s.answer tag (reqTakListQuery args)) s

/-- HELLO_QUERY (R191). -/
def execHelloQuery (tag : Nat) (args : List Tok) (s : State) : Host.Outcome State Fault Refusal :=
  receive (.helloQuery tag args) (fun s => s.answer tag (reqHelloQuery args)) s

/-- GATE_CLOSE (R189). -/
def execGateClose (tag : Nat) (args : List Tok) (s : State) : Host.Outcome State Fault Refusal :=
  receive (.gateClose tag args) (fun s => s.answer tag (reqGateClose args)) s

/-- GATE_OPEN (R190). -/
def execGateOpen (tag : Nat) (args : List Tok) (s : State) : Host.Outcome State Fault Refusal :=
  receive (.gateOpen tag args) (fun s => s.answer tag (reqGateOpen args)) s

/-- SAVE (R193). -/
def execSave (tag : Nat) (args : List Tok) (s : State) : Host.Outcome State Fault Refusal :=
  receive (.save tag args) (fun s => s.answer tag (reqSave args)) s

/-- RESTART_FULL (R195). -/
def execRestartFull (tag : Nat) (args : List Tok) (s : State) : Host.Outcome State Fault Refusal :=
  receive (.restartFull tag args) (takeRestartFull tag args) s

/-- RESTART_PROC (R195). -/
def execRestartProc (tag : Nat) (args : List Tok) (s : State) : Host.Outcome State Fault Refusal :=
  receive (.restartProc tag args) (takeRestartProc tag args) s

/-- BAD_LINE (R186). -/
def execBadLine (tag : Option Nat) (s : State) : Host.Outcome State Fault Refusal :=
  receive (.badLine tag) (answerError tag .synErr) s

/-- POWER_LOSS (R193). -/
def execPowerLoss (s : State) : Host.Outcome State Fault Refusal :=
  event powerLoss s

end Sys2Proof.Machine
end

