-- ==== Sys2Proof/Machine/Dispatch.lean ====
section
/-! DEFINITION. The dispatcher: one arm for each constructor of `Instr`, in the order of spec/opcode_table.json. -/

namespace Sys2Proof.Machine

def exec (i : Instr) (s : State) : Host.Outcome State Fault Refusal :=
  match i with
  | .powerOn baudsel atnpol => Sys2Proof.Machine.execPowerOn baudsel atnpol s
  | .resetnRelease baudsel atnpol => Sys2Proof.Machine.execResetnRelease baudsel atnpol s
  | .houseSample => Sys2Proof.Machine.execHouseSample s
  | .subBlockClose => Sys2Proof.Machine.execSubBlockClose s
  | .multiplierRampEnd p => Sys2Proof.Machine.execMultiplierRampEnd p s
  | .gpiSampleInstant levels => Sys2Proof.Machine.execGpiSampleInstant levels s
  | .frefPulse phase => Sys2Proof.Machine.execFrefPulse phase s
  | .flywheelBoundary => Sys2Proof.Machine.execFlywheelBoundary s
  | .missingPulseExpiry => Sys2Proof.Machine.execMissingPulseExpiry s
  | .frameEdge port phase words => Sys2Proof.Machine.execFrameEdge port phase words s
  | .windowClose port => Sys2Proof.Machine.execWindowClose port s
  | .signalExpiry port => Sys2Proof.Machine.execSignalExpiry port s
  | .laneFadeInEnd lane => Sys2Proof.Machine.execLaneFadeInEnd lane s
  | .changeoverSwitch p => Sys2Proof.Machine.execChangeoverSwitch p s
  | .outputFadeUpEnd p => Sys2Proof.Machine.execOutputFadeUpEnd p s
  | .slewStep p => Sys2Proof.Machine.execSlewStep p s
  | .jumpBottom p => Sys2Proof.Machine.execJumpBottom p s
  | .jumpFadeUpEnd p => Sys2Proof.Machine.execJumpFadeUpEnd p s
  | .alarmScan => Sys2Proof.Machine.execAlarmScan s
  | .envelopeWindow => Sys2Proof.Machine.execEnvelopeWindow s
  | .probeSearchComplete => Sys2Proof.Machine.execProbeSearchComplete s
  | .probeTimeout => Sys2Proof.Machine.execProbeTimeout s
  | .captureComplete slot => Sys2Proof.Machine.execCaptureComplete slot s
  | .saveComplete ok => Sys2Proof.Machine.execSaveComplete ok s
  | .txLineSent => Sys2Proof.Machine.execTxLineSent s
  | .lineTooLong => Sys2Proof.Machine.execLineTooLong s
  | .unknownVerb tag => Sys2Proof.Machine.execUnknownVerb tag s
  | .timeQuery tag args => Sys2Proof.Machine.execTimeQuery tag args s
  | .refSet tag args => Sys2Proof.Machine.execRefSet tag args s
  | .refQuery tag args => Sys2Proof.Machine.execRefQuery tag args s
  | .portQuery tag args => Sys2Proof.Machine.execPortQuery tag args s
  | .laneSet tag args => Sys2Proof.Machine.execLaneSet tag args s
  | .laneQuery tag args => Sys2Proof.Machine.execLaneQuery tag args s
  | .pgmDefine tag args => Sys2Proof.Machine.execPgmDefine tag args s
  | .pgmRun tag args => Sys2Proof.Machine.execPgmRun tag args s
  | .pgmPark tag args => Sys2Proof.Machine.execPgmPark tag args s
  | .pgmDelete tag args => Sys2Proof.Machine.execPgmDelete tag args s
  | .pgmMode tag args => Sys2Proof.Machine.execPgmMode tag args s
  | .pgmSource tag args => Sys2Proof.Machine.execPgmSource tag args s
  | .pgmRevert tag args => Sys2Proof.Machine.execPgmRevert tag args s
  | .pgmQuery tag args => Sys2Proof.Machine.execPgmQuery tag args s
  | .dlyVideo tag args => Sys2Proof.Machine.execDlyVideo tag args s
  | .dlyTrim tag args => Sys2Proof.Machine.execDlyTrim tag args s
  | .dlyMotion tag args => Sys2Proof.Machine.execDlyMotion tag args s
  | .dlyQuery tag args => Sys2Proof.Machine.execDlyQuery tag args s
  | .mtrQuery tag args => Sys2Proof.Machine.execMtrQuery tag args s
  | .mtrBinsQuery tag args => Sys2Proof.Machine.execMtrBinsQuery tag args s
  | .mtrReset tag args => Sys2Proof.Machine.execMtrReset tag args s
  | .presetSet tag args => Sys2Proof.Machine.execPresetSet tag args s
  | .presetRecall tag args => Sys2Proof.Machine.execPresetRecall tag args s
  | .presetPush tag args => Sys2Proof.Machine.execPresetPush tag args s
  | .presetPop tag args => Sys2Proof.Machine.execPresetPop tag args s
  | .presetQuery tag args => Sys2Proof.Machine.execPresetQuery tag args s
  | .presetPgmQuery tag args => Sys2Proof.Machine.execPresetPgmQuery tag args s
  | .prbArm tag args => Sys2Proof.Machine.execPrbArm tag args s
  | .prbCancel tag args => Sys2Proof.Machine.execPrbCancel tag args s
  | .prbQuery tag args => Sys2Proof.Machine.execPrbQuery tag args s
  | .almSet tag args => Sys2Proof.Machine.execAlmSet tag args s
  | .almOff tag args => Sys2Proof.Machine.execAlmOff tag args s
  | .almAck tag args => Sys2Proof.Machine.execAlmAck tag args s
  | .almForceOn tag args => Sys2Proof.Machine.execAlmForceOn tag args s
  | .almForceOff tag args => Sys2Proof.Machine.execAlmForceOff tag args s
  | .almQuery tag args => Sys2Proof.Machine.execAlmQuery tag args s
  | .almListQuery tag args => Sys2Proof.Machine.execAlmListQuery tag args s
  | .gpiSet tag args => Sys2Proof.Machine.execGpiSet tag args s
  | .gpiQuery tag args => Sys2Proof.Machine.execGpiQuery tag args s
  | .gpiPop tag args => Sys2Proof.Machine.execGpiPop tag args s
  | .watchSet tag args => Sys2Proof.Machine.execWatchSet tag args s
  | .watchQuery tag args => Sys2Proof.Machine.execWatchQuery tag args s
  | .gpoSet tag args => Sys2Proof.Machine.execGpoSet tag args s
  | .gpoPolarity tag args => Sys2Proof.Machine.execGpoPolarity tag args s
  | .gpoHold tag args => Sys2Proof.Machine.execGpoHold tag args s
  | .gpoQuery tag args => Sys2Proof.Machine.execGpoQuery tag args s
  | .capArm tag args => Sys2Proof.Machine.execCapArm tag args s
  | .capTrig tag args => Sys2Proof.Machine.execCapTrig tag args s
  | .capRead tag args => Sys2Proof.Machine.execCapRead tag args s
  | .capRelease tag args => Sys2Proof.Machine.execCapRelease tag args s
  | .capFree tag args => Sys2Proof.Machine.execCapFree tag args s
  | .capQuery tag args => Sys2Proof.Machine.execCapQuery tag args s
  | .takAdd tag args => Sys2Proof.Machine.execTakAdd tag args s
  | .takCancel tag args => Sys2Proof.Machine.execTakCancel tag args s
  | .takQuery tag args => Sys2Proof.Machine.execTakQuery tag args s
  | .takListQuery tag args => Sys2Proof.Machine.execTakListQuery tag args s
  | .helloQuery tag args => Sys2Proof.Machine.execHelloQuery tag args s
  | .gateClose tag args => Sys2Proof.Machine.execGateClose tag args s
  | .gateOpen tag args => Sys2Proof.Machine.execGateOpen tag args s
  | .save tag args => Sys2Proof.Machine.execSave tag args s
  | .restartFull tag args => Sys2Proof.Machine.execRestartFull tag args s
  | .restartProc tag args => Sys2Proof.Machine.execRestartProc tag args s
  | .badLine tag => Sys2Proof.Machine.execBadLine tag s
  | .powerLoss => Sys2Proof.Machine.execPowerLoss s

end Sys2Proof.Machine
end

