-- ==== Sys2Proof/Machine/Step.lean ====
section
/-! DEFINITION. One step: the command at the front of the queue. -/

namespace Sys2Proof.Machine

/-- The state with the queue `q`. -/
def State.withPending (s : State) (q : List Instr) : State := { s with pending := q }

/-- One step: `exec` of the command at the front of the queue on the state with the queue's rest. On an empty queue the
part idles (DESIGN CHOICE, log entry 5). -/
def step (s : State) : Host.Outcome State Fault Refusal :=
  match s.pending with
  | [] => .next s
  | i :: rest => exec i (s.withPending rest)

/-- The state with the command a word spells at the front of its queue. -/
def State.withFetchWord (s : State) (nbits w : Nat) : State :=
  match decodeTableWord nbits w with
  | some i => s.withPending (i :: s.pending)
  | none => s

end Sys2Proof.Machine
end

