-- ==== Sys2Proof/Machine/Lines.lean ====
section
/-! DEFINITION. The text of the lines the part sends (R188): a line's kind, tag, fields and flags as the characters that leave
on TXD, its line feed included. -/

namespace Sys2Proof.Machine

/-- The spelling of a keyword, in capitals (R188); a class and the part name as the manual writes them. -/
def kwWord : Kw → String
  | .NONE => "NONE" | .CLEAR => "CLEAR" | .ALL => "ALL" | .ON => "ON" | .OFF => "OFF" | .YES => "YES" | .NO => "NO"
  | .SET => "SET" | .OK => "OK" | .FAIL => "FAIL" | .TRUE => "TRUE" | .FALSE => "FALSE" | .MAIN => "MAIN"
  | .BACKUP => "BACKUP" | .MONO => "MONO" | .PAIR => "PAIR" | .SIX => "SIX" | .EIGHT => "EIGHT" | .FULL => "FULL"
  | .DELAY => "DELAY" | .BYPASS => "BYPASS" | .MANUAL => "MANUAL" | .AUTO => "AUTO" | .SLEW => "SLEW"
  | .JUMP => "JUMP" | .TARGET => "TARGET" | .BOOST => "BOOST" | .CUT => "CUT" | .ATTACK => "ATTACK"
  | .RELEASE => "RELEASE" | .SILENCE => "SILENCE" | .MODE => "MODE" | .SHORT => "SHORT"
  | .INTEGRATED => "INTEGRATED" | .TRIM => "TRIM" | .MEASURE => "MEASURE" | .SUBJECT => "SUBJECT"
  | .SENSE => "SENSE" | .THRESHOLD => "THRESHOLD" | .HYST => "HYST" | .STRIDE => "STRIDE" | .PHASE => "PHASE"
  | .RAISE => "RAISE" | .NOTIFY => "NOTIFY" | .GPO => "GPO" | .ACTION => "ACTION" | .SILENT => "SILENT"
  | .LOUD => "LOUD" | .DRIFT => "DRIFT" | .CLIP => "CLIP" | .PORTLOCK => "PORTLOCK" | .PGMLOCK => "PGMLOCK"
  | .GAINLIM => "GAINLIM" | .REF => "REF" | .WATCH => "WATCH" | .ABOVE => "ABOVE" | .BELOW => "BELOW"
  | .CHANGEOVER => "CHANGEOVER" | .CAPTURE => "CAPTURE" | .FREEZE => "FREEZE" | .POLARITY => "POLARITY"
  | .DEBOUNCE => "DEBOUNCE" | .FUNCTION => "FUNCTION" | .LOW => "LOW" | .HIGH => "HIGH" | .HOLD => "HOLD"
  | .BREAK => "BREAK" | .RESET => "RESET" | .EVENT => "EVENT" | .MATCH => "MATCH" | .SINGLE => "SINGLE"
  | .REPEAT => "REPEAT" | .ALARM => "ALARM" | .GPI => "GPI" | .REQUEST => "REQUEST" | .VIDEO => "VIDEO"
  | .RECALL => "RECALL" | .PUSH => "PUSH" | .POP => "POP" | .SOURCE => "SOURCE" | .FREE => "FREE"
  | .ACQUIRING => "ACQUIRING" | .LOCKED => "LOCKED" | .LOST => "LOST" | .NO_SIGNAL => "NO_SIGNAL"
  | .MEASURING => "MEASURING" | .RELOCKING => "RELOCKING" | .OUT_OF_RANGE => "OUT_OF_RANGE" | .K32 => "32k"
  | .K441 => "44.1k" | .K48 => "48k" | .K882 => "88.2k" | .K96 => "96k" | .CLASS => "CLASS"
  | .FADING_IN => "FADING_IN" | .OPEN => "OPEN" | .CLOSED => "CLOSED" | .UNDEFINED => "UNDEFINED"
  | .PARKED => "PARKED" | .RUNNING => "RUNNING" | .WAITING => "WAITING" | .FADING_DOWN => "FADING_DOWN"
  | .FADING_UP => "FADING_UP" | .STILL => "STILL" | .SLEWING => "SLEWING" | .MET => "MET" | .FLOOR => "FLOOR"
  | .VALID => "VALID" | .INVALID => "INVALID" | .U => "U" | .ABSENT => "ABSENT" | .IDLE => "IDLE"
  | .ARMED => "ARMED" | .SEARCHING => "SEARCHING" | .DONE => "DONE" | .NO_ONSET => "NO_ONSET"
  | .TIMEOUT => "TIMEOUT" | .CANCELLED => "CANCELLED" | .PARK => "PARK" | .POS => "POS" | .NEG => "NEG"
  | .RAISING => "RAISING" | .ACTIVE => "ACTIVE" | .CLEARING => "CLEARING" | .FORCED => "FORCED"
  | .RAISED => "RAISED" | .CLEARED => "CLEARED" | .EDITED => "EDITED" | .ASSERTED => "ASSERTED"
  | .RELEASED => "RELEASED" | .EQUAL => "EQUAL" | .NOT_EQUAL => "NOT_EQUAL" | .POST => "POST" | .HELD => "HELD"
  | .TAKEN => "TAKEN" | .IGNORED => "IGNORED" | .END => "END" | .LATE => "LATE" | .CLAMPED => "CLAMPED"
  | .STATE => "STATE" | .PULSE => "PULSE" | .FLYWHEEL => "FLYWHEEL" | .TAKE => "TAKE" | .REVERT => "REVERT"
  | .POWER => "POWER" | .PIN => "PIN" | .PROC => "PROC" | .SAVING => "SAVING" | .OJ_2408 => "OJ-2408"

/-- A number in decimal. -/
def decimal (n : Nat) : List Char := Nat.toDigits 10 n

/-- R188: a number in decimal, with a minus sign before a negative value and no plus sign. -/
def signedDecimal : Int → List Char
  | .ofNat n => decimal n
  | .negSucc n => '-' :: decimal (n + 1)

/-- R188: items joined by a separator. -/
def joined (sep : Char) : List (List Char) → List Char
  | [] => []
  | [x] => x
  | x :: y :: rest => x ++ sep :: joined sep (y :: rest)

/-- R188: a list of items joined by commas; an empty one is NONE. -/
def listText (items : List (List Char)) : List Char :=
  if items.isEmpty then "NONE".toList else joined ',' items

/-- R188: six hexadecimal digits. DESIGN CHOICE (log entry 16): the digits above 9 are capitals. -/
def hexText (w : Sample) : List Char :=
  let digit := fun (n : Nat) => (Nat.digitChar n).toUpper
  [5, 4, 3, 2, 1, 0].map fun i => digit (w.toNat / 16 ^ i % 16)

/-- R188: eight digits 0 or 1, line 0 first. -/
def levelsText (w : Levels) : List Char := allLines.map fun l => if w.getLsbD l then '1' else '0'

/-- A rate as the manual's table writes it (R5): 25 or 29.97, with no zero at the end of a fraction. -/
def rateText (milli : Nat) : List Char :=
  let d := [milli / 100 % 10, milli / 10 % 10, milli % 10].map Nat.digitChar
  let shown := (d.reverse.dropWhile (· == '0')).reverse
  decimal (milli / 1000) ++ (if shown.isEmpty then [] else '.' :: shown)

/-- The letters before the number of a named thing. -/
def nameLetters : NameKind → String
  | .P => "P" | .IN => "IN" | .L => "L" | .PS => "PS" | .A => "A" | .G => "G" | .Q => "Q" | .C => "C"

/-- A source of triggers as an item of a list. DESIGN CHOICE (log entry 16): its number stands behind a colon, since an item
holds no space. -/
def TrigSource.text : TrigSource → List Char
  | .alarm p => "ALARM:".toList ++ decimal p.val
  | .watch => "WATCH".toList
  | .gpi l => "GPI:".toList ++ decimal l.val
  | .request => "REQUEST".toList

/-- R188: one field as text. -/
def Fld.text : Fld → List Char
  | .num n => signedDecimal n
  | .kw k => (kwWord k).toList
  | .dash => ['-']
  | .nums l => listText (l.map signedDecimal)
  | .src p c => decimal p ++ ':' :: decimal c
  | .name k n => (nameLetters k).toList ++ decimal n
  | .hex w => hexText w
  | .digits w => levelsText w
  | .milli n => rateText n
  | .trigs l => listText (l.map TrigSource.text)

def RFlag.word : RFlag → String
  | .clamped => "CLAMPED" | .late => "LATE" | .still => "STILL"

def ErrCode.word : ErrCode → String
  | .synErr => "SYNTAX" | .verb => "VERB" | .range => "RANGE" | .state => "STATE" | .full => "FULL"
  | .nosuch => "NOSUCH" | .conflict => "CONFLICT" | .busy => "BUSY" | .toolong => "TOOLONG"

def NoticeKind.word : NoticeKind → String
  | .hello => "HELLO" | .alm => "ALM" | .port => "PORT" | .ref => "REF" | .src => "SRC" | .pages => "PAGES"
  | .take => "TAKE" | .probe => "PROBE" | .cap => "CAP" | .saved => "SAVED" | .lost => "LOST"

/-- R188: the words of a line: the tag, or a dash, and OK with its fields and flags or ER with its code; or an asterisk, the
kind and the fields of a notice. -/
def Line.words : Line → List (List Char)
  | .reply tag (.ok fields flags) =>
    [(tag.map decimal).getD ['-'], "OK".toList] ++ fields.map Fld.text ++ flags.map fun f => f.word.toList
  | .reply tag (.er code) => [(tag.map decimal).getD ['-'], "ER".toList, code.word.toList]
  | .notice kind fields => ['*'] :: kind.word.toList :: fields.map Fld.text

/-- R188: the characters of a line: its words separated by single spaces, and a line feed. -/
def Line.text (x : Line) : List Char := joined ' ' x.words ++ ['\n']

/-- R188: the characters that left on TXD at the latest sending step. -/
def State.txdText (s : State) : List Char := s.link.txd.flatMap Line.text

end Sys2Proof.Machine
end

