-- ==== Sys2Proof/Machine/Text.lean ====
section
/-! DEFINITION. The reading of a line's text (R187): which command a line is, with its tag and its argument words. -/

namespace Sys2Proof.Machine

/-- A word of a line. -/
abbrev LineWord := List Char

/-! ### Words and numbers -/

/-- The parts of a text between the occurrences of a character. -/
def splitText (sep : Char) : List Char → List LineWord
  | [] => [[]]
  | c :: rest =>
    match splitText sep rest with
    | [] => [[c]]
    | w :: ws => if c = sep then [] :: w :: ws else (c :: w) :: ws

/-- R187: the words of a line, separated by one or more spaces. -/
def lineWords (text : List Char) : List LineWord := (splitText ' ' text).filter fun w => !w.isEmpty

/-- R187: a word matched without regard to case. -/
def spells (name : String) (w : LineWord) : Bool := w.map Char.toUpper == name.toList

def digitOf (c : Char) : Option Nat := if '0' ≤ c ∧ c ≤ '9' then some (c.toNat - 48) else none

/-- A decimal number. -/
def natOf (w : LineWord) : Option Nat :=
  if w.isEmpty then none
  else
    w.foldl
      (fun acc c =>
        match acc, digitOf c with
        | some n, some d => some (10 * n + d)
        | _, _ => none) (some 0)

/-- A decimal number, with or without a minus sign. DESIGN CHOICE (log entry 85): R187 gives a sign to signed numbers alone; a minus
sign before any other is read too, and its negative value is then out of range or clamped as its rule says. -/
def intOf : LineWord → Option Int
  | '-' :: w => (natOf w).map fun n => -(n : Int)
  | w => (natOf w).map fun n => (n : Int)

/-- R187: a decimal number with a leading plus sign. -/
def plusOf : LineWord → Option Nat
  | '+' :: w => natOf w
  | _ => none

/-- A number with one to three decimals, in thousandths (log entry 14). -/
def milliOf (w : LineWord) : Option Nat :=
  match splitText '.' w with
  | [a, b] =>
    match natOf a, natOf b with
    | some n, some d => if b.length ≤ 3 then some (1000 * n + d * 10 ^ (3 - b.length)) else none
    | _, _ => none
  | _ => none

/-- R188: a source, port and channel joined by a colon. -/
def sourceOf (w : LineWord) : Option Tok :=
  match splitText ':' w with
  | [a, b] =>
    match intOf a, intOf b with
    | some p, some c => some (.src p c)
    | _, _ => none
  | _ => none

/-- The letters of named things. -/
def nameKinds : List (String × NameKind) :=
  [("P", .P), ("IN", .IN), ("L", .L), ("PS", .PS), ("A", .A), ("G", .G), ("Q", .Q), ("C", .C)]

/-- A named thing, such as C1: its letters and its number. -/
def nameOf (w : LineWord) : Option (NameKind × Nat) :=
  nameKinds.findSome? fun x =>
    if spells x.1 (w.take x.1.length) then (natOf (w.drop x.1.length)).map fun n => (x.2, n) else none

/-- One item of a list of things of a kind: its number, plain or with its letters. -/
def itemOf (k : NameKind) (w : LineWord) : Option Int :=
  match intOf w, nameOf w with
  | some n, _ => some n
  | none, some x => if x.1 = k then some (x.2 : Int) else none
  | none, none => none

/-- R188: items joined by commas. -/
def itemsOf (k : NameKind) (w : LineWord) : Option (List Int) :=
  match splitText ',' w with
  | a :: b :: rest => (a :: b :: rest).mapM (itemOf k)
  | _ => none

/-- R188: eight digits 0 or 1, line 0 first. -/
def levelsOf (w : LineWord) : Option Levels :=
  if w.length = 8 ∧ w.all (fun c => c == '0' || c == '1') then
    some (w.foldr (fun c x => (x <<< 1) ||| (if c = '1' then 1 else 0)) 0)
  else none

/-- The keywords of the general requests, the programmes and their delay lines. -/
def commonKeywords : List (String × Kw) :=
  [("NONE", .NONE), ("CLEAR", .CLEAR), ("ALL", .ALL), ("ON", .ON), ("OFF", .OFF), ("MAIN", .MAIN),
   ("BACKUP", .BACKUP), ("MONO", .MONO), ("PAIR", .PAIR), ("SIX", .SIX), ("EIGHT", .EIGHT), ("FULL", .FULL),
   ("DELAY", .DELAY), ("BYPASS", .BYPASS), ("MANUAL", .MANUAL), ("AUTO", .AUTO), ("SLEW", .SLEW),
   ("JUMP", .JUMP)]

/-- The keywords of presets and of the probe. -/
def gainKeywords : List (String × Kw) :=
  [("TARGET", .TARGET), ("BOOST", .BOOST), ("CUT", .CUT), ("ATTACK", .ATTACK), ("RELEASE", .RELEASE),
   ("SILENCE", .SILENCE), ("MODE", .MODE), ("SHORT", .SHORT), ("INTEGRATED", .INTEGRATED), ("TRIM", .TRIM)]

/-- The keywords of ALM SET. -/
def alarmKeywords : List (String × Kw) :=
  [("MEASURE", .MEASURE), ("SUBJECT", .SUBJECT), ("SENSE", .SENSE), ("THRESHOLD", .THRESHOLD), ("HYST", .HYST),
   ("STRIDE", .STRIDE), ("PHASE", .PHASE), ("RAISE", .RAISE), ("NOTIFY", .NOTIFY), ("GPO", .GPO),
   ("ACTION", .ACTION), ("SILENT", .SILENT), ("LOUD", .LOUD), ("DRIFT", .DRIFT), ("CLIP", .CLIP),
   ("PORTLOCK", .PORTLOCK), ("PGMLOCK", .PGMLOCK), ("GAINLIM", .GAINLIM), ("REF", .REF), ("WATCH", .WATCH),
   ("ABOVE", .ABOVE), ("BELOW", .BELOW), ("CHANGEOVER", .CHANGEOVER), ("CAPTURE", .CAPTURE),
   ("FREEZE", .FREEZE)]

/-- The keywords of the contact lines, the capture slots and the take queue. -/
def contactKeywords : List (String × Kw) :=
  [("POLARITY", .POLARITY), ("DEBOUNCE", .DEBOUNCE), ("FUNCTION", .FUNCTION), ("LOW", .LOW), ("HIGH", .HIGH),
   ("HOLD", .HOLD), ("BREAK", .BREAK), ("RESET", .RESET), ("EVENT", .EVENT), ("MATCH", .MATCH),
   ("SINGLE", .SINGLE), ("REPEAT", .REPEAT), ("ALARM", .ALARM), ("GPI", .GPI), ("REQUEST", .REQUEST),
   ("VIDEO", .VIDEO), ("RECALL", .RECALL), ("PUSH", .PUSH), ("POP", .POP), ("SOURCE", .SOURCE)]

/-- The keywords that requests name. -/
def requestWords : List (String × Kw) := commonKeywords ++ gainKeywords ++ alarmKeywords ++ contactKeywords

/-- R187: an argument word as it reads, where a list holds things of kind `k`. DESIGN CHOICE (log entry 67): a word of a trigger
set is read as any other, so sources joined by commas cannot be read. -/
def readTok (k : NameKind) (w : LineWord) : Tok :=
  ([(intOf w).map .num, (plusOf w).map .plus, (milliOf w).map .milli, (itemsOf k w).map .nums, sourceOf w,
    (nameOf w).map fun x => .name x.1 x.2,
    (requestWords.find? fun x => spells x.1 w).map fun x => .kw x.2].findSome? id).getD .other

/-! ### Verbs -/

/-- A verb: its word, or the two words of a family's verb, and the command its arguments make. -/
structure VerbRow where
  words : List String
  make : Nat → List LineWord → Instr

/-- A verb whose arguments are read one by one. -/
def verb (words : List String) (k : NameKind) (f : Nat → List Tok → Instr) : VerbRow :=
  { words := words, make := fun tag args => f tag (args.map (readTok k)) }

/-- R100: MTR? with the word BINS behind the programme. -/
def mtrQueryOf (tag : Nat) (args : List LineWord) : Instr :=
  match args with
  | p :: b :: rest =>
    if spells "BINS" b then .mtrBinsQuery tag ((p :: rest).map (readTok .P))
    else .mtrQuery tag (args.map (readTok .P))
  | _ => .mtrQuery tag (args.map (readTok .P))

/-- R144: ALM FORCE with a point and the word ON or OFF. -/
def almForceOf (tag : Nat) (args : List LineWord) : Instr :=
  match args with
  | [p, w] =>
    if spells "ON" w then .almForceOn tag [readTok .A p]
    else if spells "OFF" w then .almForceOff tag [readTok .A p]
    else .badLine (some tag)
  | _ => .badLine (some tag)

/-- R162: a word of WATCH SET: eight digits 0 or 1 are a compare word. -/
def watchTok (w : LineWord) : Tok :=
  match levelsOf w with
  | some x => .digits x
  | none => readTok .G w

/-- The verbs of the link, the reference, the ports and the lanes. -/
def linkVerbs : List VerbRow :=
  [verb ["HELLO?"] .P .helloQuery, verb ["TIME?"] .P .timeQuery, verb ["GATE", "OPEN"] .P .gateOpen,
   verb ["GATE", "CLOSE"] .P .gateClose, verb ["SAVE"] .P .save, verb ["RESTART", "FULL"] .P .restartFull,
   verb ["RESTART", "PROC"] .P .restartProc, verb ["REF", "SET"] .P .refSet, verb ["REF?"] .P .refQuery,
   verb ["PORT?"] .IN .portQuery, verb ["LANE", "SET"] .L .laneSet, verb ["LANE?"] .L .laneQuery]

/-- The verbs of the programmes, their delay lines and their meters. -/
def programmeVerbs : List VerbRow :=
  [verb ["PGM", "DEFINE"] .L .pgmDefine, verb ["PGM", "RUN"] .P .pgmRun, verb ["PGM", "PARK"] .P .pgmPark,
   verb ["PGM", "DELETE"] .P .pgmDelete, verb ["PGM", "MODE"] .P .pgmMode, verb ["PGM", "SOURCE"] .P .pgmSource,
   verb ["PGM", "REVERT"] .P .pgmRevert, verb ["PGM?"] .P .pgmQuery, verb ["DLY", "VIDEO"] .P .dlyVideo,
   verb ["DLY", "TRIM"] .P .dlyTrim, verb ["DLY", "MOTION"] .P .dlyMotion, verb ["DLY?"] .P .dlyQuery,
   { words := ["MTR?"], make := mtrQueryOf }, verb ["MTR", "RESET"] .P .mtrReset]

/-- The verbs of the presets and the probe. -/
def gainVerbs : List VerbRow :=
  [verb ["PRESET", "SET"] .PS .presetSet, verb ["PRESET", "RECALL"] .PS .presetRecall,
   verb ["PRESET", "PUSH"] .PS .presetPush, verb ["PRESET", "POP"] .PS .presetPop,
   verb ["PRESET?", "PGM"] .P .presetPgmQuery, verb ["PRESET?"] .PS .presetQuery, verb ["PRB", "ARM"] .P .prbArm,
   verb ["PRB", "CANCEL"] .P .prbCancel, verb ["PRB?"] .P .prbQuery]

/-- The verbs of the alarm points and the contact lines. -/
def alarmVerbs : List VerbRow :=
  [verb ["ALM", "SET"] .Q .almSet, verb ["ALM", "OFF"] .A .almOff, verb ["ALM", "ACK"] .A .almAck,
   { words := ["ALM", "FORCE"], make := almForceOf }, verb ["ALM", "LIST?"] .A .almListQuery,
   verb ["ALM?"] .A .almQuery, verb ["GPI", "SET"] .P .gpiSet, verb ["GPI", "POP"] .G .gpiPop,
   verb ["GPI?"] .G .gpiQuery,
   { words := ["WATCH", "SET"], make := fun tag args => .watchSet tag (args.map watchTok) },
   verb ["WATCH?"] .G .watchQuery, verb ["GPO", "SET"] .Q .gpoSet, verb ["GPO", "POLARITY"] .Q .gpoPolarity,
   verb ["GPO", "HOLD"] .Q .gpoHold, verb ["GPO?"] .Q .gpoQuery]

/-- The verbs of the capture slots and the take queue. -/
def captureVerbs : List VerbRow :=
  [verb ["CAP", "ARM"] .P .capArm, verb ["CAP", "TRIG"] .C .capTrig, verb ["CAP", "READ"] .C .capRead,
   verb ["CAP", "RELEASE"] .C .capRelease, verb ["CAP", "FREE"] .C .capFree, verb ["CAP?"] .C .capQuery,
   verb ["TAK", "ADD"] .P .takAdd, verb ["TAK", "CANCEL"] .P .takCancel, verb ["TAK?", "LIST"] .P .takListQuery,
   verb ["TAK?"] .P .takQuery]

/-- R187: the verbs of section 12.4. A query that names its kind stands before the query without. -/
def verbRows : List VerbRow := linkVerbs ++ programmeVerbs ++ gainVerbs ++ alarmVerbs ++ captureVerbs

/-- The words behind the words of a verb, where a line has them. -/
def behindVerb : List String → List LineWord → Option (List LineWord)
  | [], ws => some ws
  | n :: ns, w :: ws => if spells n w then behindVerb ns ws else none
  | _ :: _, [] => none

/-- R187: the command of a verb and its arguments; an unknown verb or sub-verb has a row of its own. -/
def readVerb (tag : Nat) (ws : List LineWord) : Instr :=
  (verbRows.findSome? fun r => (behindVerb r.words ws).map (r.make tag)).getD (.unknownVerb (some tag))

/-- R187: a tag, a decimal number from 0 to 9999. DESIGN CHOICE (log entry 88): a tag sent with leading zeros, as 007, is its number, and
the reply carries that number without them. -/
def tagOf (w : LineWord) : Option Nat := (natOf w).bind fun n => if n ≤ 9999 then some n else none

/-- R187: the command of a line, given its first word and the words behind it. DESIGN CHOICE (log entry 59): a tag without
a verb is answered SYNTAX. -/
def readLine (first : LineWord) (rest : List LineWord) : Instr :=
  match tagOf first, rest with
  | none, _ => .badLine none
  | some tag, [] => .badLine (some tag)
  | some tag, ws => readVerb tag ws

end Sys2Proof.Machine
end

