-- ==== Sys2Proof/Machine/Receiver.lean ====
section
/-! DEFINITION. The receiver of the link (R186, R194): characters join a line, and a line that ends is taken, or waits, as the
command it is. The characters come from outside the queue of commands, since the table has rows for whole lines
only (log entry 15). -/

namespace Sys2Proof.Machine

/-- R186, R187: what a line gives at its line feed: nothing where it holds only spaces, else one command. A bad line carries
its tag when that can be read. The rest of a line begun before the HELLO notice gives nothing (R194). -/
def Receiver.line (r : Receiver) : Option Instr :=
  if r.skip then none
  else if r.tooLong then some .lineTooLong
  else
    match lineWords r.chars with
    | [] => none
    | w :: ws => some (if r.bad then .badLine (tagOf w) else readLine w ws)

/-- R186: the outcome of one character; `framed` says that its stop bit was there. A command where a line has ended. DEDUCED
(log entry 55): a character without its stop bit joins the buffer whatever it reads as, and counts as any other. -/
def Receiver.take (c : Char) (framed : Bool) (r : Receiver) : Receiver × Option Instr :=
  if framed = true ∧ c = '\r' then (r, none)
  else if framed = true ∧ c = '\n' then (Receiver.empty, r.line)
  else if r.skip ∨ r.tooLong then (r, none)
  else if r.chars.length < Config.rxMax then
    ({ r with chars := r.chars ++ [c], bad := r.bad || !framed }, none)
  else ({ Receiver.empty with tooLong := true }, none)

/-- R194: a character that arrives while no line is taken is discarded, with the rest of a line it begins or stands in. -/
def Receiver.discard (c : Char) (framed : Bool) (r : Receiver) : Receiver :=
  if framed = true ∧ c = '\r' then r.restarted
  else { Receiver.empty with skip := decide (¬ (framed = true ∧ c = '\n')) }

/-- R187, R188: a line whose line feed has arrived is taken while the FIFO holds 40 lines or fewer and no line waits before
it, and waits otherwise. -/
def takeLine (i : Instr) (s : State) : State :=
  if s.link.fifo.length ≤ Config.takeLevel ∧ s.link.waiting = [] then runLine i s
  else s.updLink fun l => { l with waiting := l.waiting ++ [i] }

/-- R186, R187, R194: a character has come on RXD. A line that it ends is taken or waits. An unpowered part discards it. -/
def receiveChar (c : Char) (framed : Bool) (s : State) : State :=
  if s.powered = false then s.updLink fun l => { l with rx := l.rx.discard c framed }
  else
    let s1 := s.updLink fun l => { l with rx := (l.rx.take c framed).1 }
    match (s.link.rx.take c framed).2 with
    | none => s1
    | some i => takeLine i s1

/-- The characters of a text, one after the other, with no framing error. -/
def receiveText (text : String) (s : State) : State := text.toList.foldl (fun s c => receiveChar c true s) s

end Sys2Proof.Machine
end

