-- ==== Sys2Proof/Safety.lean ====
section
/-! DEFINITION. What counts as a safe run: bounds the rules give to what the part holds, in the terms the statements use. -/

namespace Sys2Proof.Machine

/-- R188: the supply is present and the link takes a line at once: the FIFO holds 40 lines or fewer and no line waits. -/
abbrev Ready (s : State) : Prop :=
  s.powered = true ∧ s.link.fifo.length ≤ 40 ∧ s.link.waiting = []

/-- R187, R188: the state after a request that only wrote `t` and was answered OK with fields and flags. -/
abbrev State.okTo (t : State) (tag : Nat) (fields : List Fld) (flags : List RFlag := []) : State :=
  t.sendReply (some tag) (.ok fields flags)

/-- R188: the state after a request that was refused: nothing but the error reply. -/
abbrev State.erTo (t : State) (tag : Nat) (code : ErrCode) : State := t.sendReply (some tag) (.er code)

/-- R186: the commands that are lines of the link; every other command is an event of the part or at a pin. -/
def isLine : Instr → Bool
  | .powerOn _ _ | .resetnRelease _ _ | .houseSample | .subBlockClose | .multiplierRampEnd _
  | .gpiSampleInstant _ | .frefPulse _ | .flywheelBoundary | .missingPulseExpiry | .frameEdge _ _ _
  | .windowClose _ | .signalExpiry _ | .laneFadeInEnd _ | .changeoverSwitch _ | .outputFadeUpEnd _
  | .slewStep _ | .jumpBottom _ | .jumpFadeUpEnd _ | .alarmScan | .envelopeWindow
  | .probeSearchComplete | .probeTimeout | .captureComplete _ | .saveComplete _ | .txLineSent
  | .powerLoss => false
  | _ => true

/-! ### Words that a request refuses -/

/-- A word that names a thing of a kind by a number outside 0..n − 1; one with a minus sign is such a number, by the model's
choice (log entry 85). -/
def beyond (k : NameKind) (n : Nat) (t : Tok) : Prop := ∃ x, Tok.index? k t = some x ∧ (x < 0 ∨ (n : Int) ≤ x)

/-- R187: the request `go` answers words that are `unread` with SYNTAX, and words that are `outside` a range with RANGE; either
way nothing but the error reply is left. -/
def wordsRefused (s : State) (tag : Nat) (go : List Tok → Host.Outcome State Fault Refusal)
    (unread outside : List Tok → Prop) : Prop :=
  ∀ args, (unread args → go args = .next (s.erTo tag .synErr)) ∧ (outside args → go args = .next (s.erTo tag .range))

/-- `wordsRefused` for a request that names one thing of a kind, a number in 0..n − 1, and nothing else. -/
def oneNumberRefused (s : State) (tag : Nat) (k : NameKind) (n : Nat)
    (go : List Tok → Host.Outcome State Fault Refusal) : Prop :=
  wordsRefused s tag go (fun args => ∀ t, args = [t] → Tok.index? k t = none) (fun args => ∃ t, args = [t] ∧ beyond k n t)

/-- `wordsRefused` for a request that names a programme and one word more, which `read` accepts or not: the second word is read
before the number of the programme is judged (log entry 33). -/
def programmeAndWordRefused (s : State) (tag : Nat) (read : Tok → Bool)
    (go : List Tok → Host.Outcome State Fault Refusal) : Prop :=
  wordsRefused s tag go (fun args => ∀ t y, args = [t, y] → Tok.index? .P t = none ∨ read y = false)
    (fun args => ∃ t y, args = [t, y] ∧ read y = true ∧ beyond .P 8 t)

/-! ### Bounds every step keeps -/

/-- R188, R189: the transmit FIFO holds at most 64 lines and the held-notice list at most 16. -/
def LinkBounded (s : State) : Prop := s.link.fifo.length ≤ 64 ∧ s.link.held.length ≤ 16

/-- R59, R157: the owner map has an entry for each of the 2,048 pages, and the event FIFO holds at most 32 records. -/
def StoresBounded (s : State) : Prop := s.owners.length = 2048 ∧ s.gpiFifo.length ≤ 32

/-- R102: the limits of the applied gain and of its rates that a preset may hold. -/
def Preset.gainRange (r : Preset) : Prop :=
  0 ≤ r.boost ∧ r.boost ≤ 1200 ∧ 0 ≤ r.cut ∧ r.cut ≤ 3000 ∧ 10 ≤ r.attack ∧ r.attack ≤ 3000 ∧
    10 ≤ r.release ∧ r.release ≤ 3000

/-- R102 for a table of presets. -/
def tableInRange (t : Vector Preset 16) : Prop := ∀ n : PresetId, t[n].gainRange

/-- R102: the tables a start may take up. -/
def Profile.inRange (p : Profile) : Prop :=
  (∀ img crc, p.store = .image img crc → tableInRange img.presets) ∧
    (∀ img, p.saving = some img → tableInRange img.presets)

/-- R105, R108 for one programme: its stack holds one to four presets, and both gains lie within −C..+B of the preset
at the top. -/
def gainHeld (s : State) (p : ProgId) : Prop :=
  let c := s.pgms[p].cor
  let r := s.presets[c.top]
  1 ≤ c.stack.length ∧ c.stack.length ≤ 4 ∧ -r.cut ≤ c.g ∧ c.g ≤ r.boost ∧ -r.cut ≤ c.gStar ∧ c.gStar ≤ r.boost

/-- R102, R105, R108: every table of presets is in range, and every defined programme's gain is held. -/
def GainHeld (s : State) : Prop :=
  tableInRange s.presets ∧ s.profile.inRange ∧
    ∀ p : ProgId, s.pgms[p].ctl.state ≠ .undefined → gainHeld s p

/-- R176, R178, R179: the take queue holds at most 32 entries, in order of the distance of their due frames ahead of FC,
each due at a frame still to come, and no two with the same id. -/
def TakesOrdered (s : State) : Prop :=
  s.takes.length ≤ 32 ∧ (s.takes.Pairwise fun a b => ahead s.fc a.due ≤ ahead s.fc b.due) ∧
    (∀ e ∈ s.takes, e.due ≠ s.fc) ∧ s.takes.Pairwise fun a b => a.id ≠ b.id

/-! ### A preset change, as the rules give it -/

/-- R108, R113: what a change to a preset `r` makes of the correction record `c` of a programme with the controller record
`ctl`: both gains are clamped into the preset's range, m_new follows a gain that moved, a RUNNING programme in
FULL restarts its ramp at the next house sample, and in BYPASS the multiplier in use is m_new. -/
def presetTaken (ctl : Ctl) (r : Preset) (c : Correction) : Correction :=
  let g := max (-r.cut) (min c.g r.boost)
  let m := if g = c.g then c.mNew else multiplierOf g
  { c with
    g := g, gStar := max (-r.cut) (min c.gStar r.boost), mNew := m
    restart := if ctl.state = .running ∧ ctl.mode = .full then true else c.restart
    multNow := if ctl.state = .running ∧ ctl.mode = .bypass then m else c.multNow }

/-! ### A change of source or mode, and the revert check, as the rules give them -/

/-- R31, R33, R34, R36: the record of a lane, `w` before, whose current source has been switched to `z`: OPEN at once and at the
centre where the port that source names is LOCKED or RELOCKING, invalid and SILENT where it is not or there is no source,
with the Lc of that port's class. -/
def laneSwitched (s : State) (z : SrcSel) (w : Lane) : Lane :=
  let l := { w with current := z, fadePos := 0 }
  let lc := s.lcFor l
  let shut := { l with valid := false, fade := .silent, lc := lc }
  match l.source with
  | none => shut
  | some x =>
    let q := s.ports[x.port]
    if q.state = .locked ∨ q.state = .relocking then
      { l with valid := true, fade := .opened, lc := lc, readPos := (q.frameNo : Rat) - 32 }
    else shut

/-- R30, R31, R34, R35: lane `k` once its word of the house sample in progress is fixed (log entry 3). The word of a valid lane
moves its read position on, behind a slip, which is counted, where the depth asks for one, and its fade-in; an invalid lane
delivers 0; and a lane whose word is already fixed is left. -/
def laneFormed (s : State) (k : LaneId) : Lane :=
  let l := s.lanes[k]
  match l.latch, l.valid, l.source with
  | some _, _, _ => l
  | none, true, some x =>
    let q := s.ports[x.port]
    let depth : Rat := q.frameNo - l.readPos
    let slips := 48 < depth ∨ depth < 16
    { l with
      readPos := (if slips then (q.frameNo : Rat) - (32 + (depth - depth.floor)) else l.readPos) +
        (1048576 : Rat) / (q.ratio.getD 1048576 : Nat)
      slips := if slips then min 65535 (l.slips + 1) else l.slips
      fadePos := if l.fade = .fadingIn then min 240 (l.fadePos + 1) else l.fadePos
      latch := some ((formLane s k).laneWord k, true) }
  | none, _, _ => { l with latch := some (0, false) }

/-- R33, R34: lane `k` once its current source has been set to `z`: a lane already on it is left (log entry 31), and any other
keeps its word of the house sample in progress (log entry 3) and is switched. -/
def laneSetTo (s : State) (z : SrcSel) (k : LaneId) : Lane :=
  if s.lanes[k].current = z then s.lanes[k] else laneSwitched s z (laneFormed s k)

/-- R47, R48, R50: what becomes of the controller record `c` of a RUNNING programme whose pending change has been written;
`here` says that the boundary of this house sample has been taken. A change begins its fade at once where that
boundary found the programme OPEN, and one written beside a fade so begun joins its change, the later parts standing
(log entry 49); in any other fade it stays pending. A programme that is OPEN because its fade up has ended since that boundary
counts as found OPEN, by the model's choice (log entry 49). -/
def changeTaken (here : Bool) (c : Ctl) : Ctl :=
  let begun := here && decide (c.begunLate = true ∧ c.out = .fadingDown ∧ c.fadePos = 0)
  let first := c.inflight.getD Change.empty
  let all : Change := if begun then
      { source := if c.pending.source.isSome then c.pending.source else first.source
        mode := if c.pending.mode.isSome then c.pending.mode else first.mode }
    else c.pending
  let x := c.realParts all
  if begun = true ∨ (c.out = .opened ∧ x ≠ Change.empty) then
    if here = false then { c with out := .waiting }
    else if x = Change.empty then { c with out := .opened, inflight := none, pending := Change.empty }
    else { c with out := .fadingDown, fadePos := 0, begunLate := true, inflight := some x, pending := Change.empty }
  else c

/-- R55: what the revert check of a scan makes of a controller record: with every main port LOCKED and no source change
pending or in flight, an AUTO programme on BACKUP counts the scan, and at its hold count returns to MAIN. -/
def revertTaken (here locked : Bool) (c : Ctl) : Ctl :=
  let still := c.pending.source = none ∧ (c.inflight.getD Change.empty).source = none
  match c.revert with
  | some hold =>
    if c.state = .running ∧ c.active = .backup ∧ still ∧ locked = true then
      if c.revertCount + 1 < hold then { c with revertCount := c.revertCount + 1 }
      else changeTaken here
        { c with revertCount := 0, pending := { c.pending with source := some (.main, .revert) } }
    else { c with revertCount := 0 }
  | none => { c with revertCount := 0 }

/-- R150, R163: `u` is `s` with the contribution of point `n` added to, or removed from, the output lines in `lines`; no
setting and no pin changes with it. -/
def contributionMoved (s u : State) (n : PointId) (lines : List LineId) (up : Bool) : Prop :=
  ∀ l : LineId, u.gpos[l].cfg = s.gpos[l].cfg ∧ u.gpos[l].pin = s.gpos[l].pin ∧
    ∀ x : PointId, x ∈ u.gpos[l].contrib ↔ if x = n ∧ l ∈ lines then up = true else x ∈ s.gpos[l].contrib

/-! ### Notices in a row -/

/-- R188, R189: the link after notices sent one behind the other. -/
def Link.notices (l : Link) (lines : List Line) : Link := lines.foldl Link.notice l

/-! ### Pages and lines, as the rules give them -/

/-- R59, R60: in `u` each lane of programme `p` holds what `pages` makes of the pages it holds in `s`; every other line and
every slot holds what it held, and the rest of the pool is free. -/
def pagesBecome (s u : State) (p : ProgId) (pages : Nat → Nat) : Prop :=
  u.owners.length = s.owners.length ∧ (∀ c : SlotId, u.slotPages c = s.slotPages c) ∧
    ∀ (q : ProgId) (pos : Fin 8), u.owners.count (.line q pos) =
      if q = p ∧ pos.val < s.pgms[p].ctl.lanes.length then pages (s.owners.count (.line q pos))
      else s.owners.count (.line q pos)

/-- R64: a delay record with T and D_req formed for a latency of `lc`. -/
def lengthFormed (lc : Nat) (d : Delay) : Delay :=
  let T := (max 0 (min ((d.v : Int) + d.o) 384120)).toNat
  { d with t := T, dReq := min (T - lc) 384000, floor := decide (T < lc) }

/-- R71: a line's record after a new target, by its motion state; that a slew ended by its target leaves the slew count 0 is the
model's choice (log entry 74). -/
def aimed (d : Delay) (target : Nat) : Delay :=
  let ends := d.motion = .slewing ∧ target = d.dApp
  { d with
    dTarget := if d.motion = .fadingUp then d.dTarget else target
    pendTarget := if d.motion = .fadingUp then some target else d.pendTarget
    motion := if ends then .still else d.motion
    slewCount := if ends then 0 else d.slewCount }

/-- R80: the PAGES notice on programme `p` with the figures of `u`; `need` is its need per lane. -/
def pagesLine (u : State) (p : ProgId) (need : Nat) (cut : Bool) : Line :=
  let d := u.pgms[p].dly
  .notice .pages ([.num p.val, .num (u.pagesHeld p), .num need, .num d.dTarget,
    .kw (if d.short then .SHORT else .MET), .num u.freePages] ++ if cut then [.kw .CUT] else [])

/-- R61, R70: what the arbiter's service of programme `p` makes of `s`. One that is not SHORT, and one for which no page is
to be had, is passed over. Else its lanes get what the pool has of the shortfall, as new pages that read 0 (R59); it
takes its D_req, or what its pages allow, as its target, and a PAGES notice is sent. -/
def served (s u : State) (p : ProgId) : Prop :=
  let d := s.pgms[p].dly
  let c := s.pgms[p].ctl
  let pad := maxPad c.pads
  let need := max 1 ((max d.dApp d.dReq + pad + 1023) / 1024)
  let held := s.pagesHeld p
  let grant := min (need - held) (s.freePages / c.lanes.length)
  let target := if need ≤ held + grant then d.dReq else min d.dReq ((held + grant) * 1024 - pad)
  let passed := d.short = false ∨ (held < need ∧ grant = 0)
  (passed → u = s) ∧
  (¬ passed → pagesBecome s u p (· + grant) ∧
    u = { s with
      owners := u.owners
      pgms := s.pgms.set p { s.pgms[p] with dly := aimed { d with
        short := decide (held + grant < need)
        lines := if 0 < grant then d.lines.map (·.take (held * 1024)) else d.lines } target }
      link := s.link.notice (pagesLine u p (if c.state = .running then need else 0) false) })

/-- R69: what the release at the end of a motion makes of `s`: pages beyond those programme `p` keeps and needs leave every
lane, its history and its words are cut to what is left, and the arbiter serves the waiting list. Words that the
house sample in progress still reaches stay (log entry 47). -/
def released (s u : State) (p : ProgId) : Prop :=
  let d := s.pgms[p].dly
  let pad := maxPad s.pgms[p].ctl.pads
  let pages := fun (n : Nat) => max 1 ((n + pad + 1023) / 1024)
  let keep := max (pages (max d.dApp (d.pendTarget.getD 0))) (pages (max d.dApp d.dReq))
  let held := s.pagesHeld p
  (held ≤ keep → u = s) ∧
  (keep < held → ∃ v : State, u = arbiter v ∧ pagesBecome s v p (· - (held - keep)) ∧
    v = { s with
      owners := v.owners
      pgms := s.pgms.set p { s.pgms[p] with dly := { d with
        hist := min d.hist (keep * 1024 - pad)
        lines := d.lines.map (·.take (max (keep * 1024) (d.dApp + maxPad d.padsNow))) } } })

/-- R68, R69: what becomes of `s`, in which RUNNING programme `p` holds a new D_req or new pads: the line asks for the pages
it needs, is SHORT without them and cut to what its pages hold, takes its target, reports it in a PAGES notice, and
releases what it does not need where the target leaves it STILL. -/
def retargeted (s u : State) (p : ProgId) : Prop :=
  let d := s.pgms[p].dly
  let c := s.pgms[p].ctl
  let pad := maxPad c.pads
  let need := max 1 ((max d.dApp d.dReq + pad + 1023) / 1024)
  let held := s.pagesHeld p
  let grant := min (need - held) (s.freePages / c.lanes.length)
  let cap := (held + grant) * 1024 - pad
  let unmet := decide (held + grant < need)
  let app := if unmet then min d.dApp cap else d.dApp
  let target := if unmet then min d.dReq cap else d.dReq
  ∃ a : State, pagesBecome s a p (· + grant) ∧
    a = { s with
      owners := a.owners
      pgms := s.pgms.set p { s.pgms[p] with dly := aimed { d with
        short := unmet, dApp := app, hist := min d.hist cap
        dTarget := if unmet = true ∧ d.motion = .fadingUp then min d.dTarget cap else d.dTarget
        lines := if 0 < grant then d.lines.map (·.take (held * 1024)) else d.lines } target }
      link := if unmet = false ∧ grant = 0 ∧ d.short = false then s.link
        else s.link.notice (pagesLine a p
          (if c.state = .running then max 1 ((max app d.dReq + pad + 1023) / 1024) else 0)
          (unmet && decide (cap < d.dApp))) } ∧
    if (d.motion = .still ∨ d.motion = .slewing) ∧ target = app then released a u p else u = a

/-- R46, R64, R68: `u` is `s` once programme `p` has recomputed the figures of its lanes to an Lc_pgm of `lc` and `pads`:
nothing is handed on where it is UNDEFINED or both stay, and else it holds them with T and D_req formed afresh, and the line
of a RUNNING one takes them. -/
def latencyTaken (s u : State) (p : ProgId) (lc : Nat) (pads : List Nat) : Prop :=
  let g := s.pgms[p]
  let kept := g.ctl.state = .undefined ∨ (lc = g.ctl.lcPgm ∧ pads = g.ctl.pads)
  let formed := { g with ctl := { g.ctl with lcPgm := lc, pads := pads }, dly := lengthFormed lc g.dly }
  let written := { s with pgms := s.pgms.set p formed }
  (kept → u = s) ∧ (¬ kept → g.ctl.state = .running → retargeted written u p) ∧
    (¬ kept → g.ctl.state ≠ .running → u = written)

/-! ### Alarm points, as the rules give them -/

/-- R152: the enabled field and the configuration fields of a point's record, as a reply carries them; that an output and a slot
are named by their numbers alone, and no subject by the word NONE, are the model's choices (log entries 81 and 82). -/
def pointShown (g : PointCfg) : List Fld :=
  let subject : Fld := match g.subject with
    | .nothing => .kw .NONE
    | .pgm p => .name .P p.val
    | .port i => .name .IN i.val
  let action : List Fld := match g.action with
    | .nothing => [.kw .NONE]
    | .changeover => [.kw .CHANGEOVER]
    | .capture c => [.kw .CAPTURE, .num c.val]
    | .freeze => [.kw .FREEZE]
  [.kw (if g.enabled then .YES else .NO), optFld (fun m => .kw (Measure.kw m)) g.measure, subject, .kw g.sense.kw,
   .num g.threshold, .num g.hyst, .num g.stride, .num g.phase, .num g.raise, .num g.clear,
   .kw (if g.notify then .ON else .OFF), finsFld g.gpo] ++ action

/-! ### The end of a search, as the rules give it -/

/-- R127, R128, R130: what the end of the probe's search makes of `s`, where `seen` is the probe's record with every window
examined: NO_ONSET without an onset, and else DONE. A DONE with TRIM writes −m as its programme's trim as DLY TRIM does
(R63, R64, R68): the line of a RUNNING one takes the new length, and no notice but PAGES notices stands before the PROBE
notice, which carries the trim. -/
def searchEnded (s u : State) (seen : Probe) : Prop :=
  (seen.onsets = [] → u = probeNotice { s with probe := { seen with state := .noOnset } }) ∧
  (seen.onsets ≠ [] → seen.trim = false → u = probeNotice { s with probe := { seen with state := .done } }) ∧
  ∀ o q, seen.onsets.head? = some o → seen.trim = true → seen.pgm = some q →
    let O := max (-48000) (min (-o.location) 48000)
    let g := s.pgms[q]
    let set := { s with
      probe := { seen with state := .done }
      pgms := s.pgms.set q { g with dly := lengthFormed g.ctl.lcPgm { g.dly with o := O } } }
    ∃ w : State, (g.ctl.state = .running → retargeted set w q) ∧ (g.ctl.state ≠ .running → w = set) ∧
      (∃ told : List Line, (∀ x ∈ told, ∃ fields, x = .notice .pages fields) ∧ w.link = s.link.notices told) ∧
      u = { w with
        probe := { seen with state := .done, trimWritten := some O }
        link := w.link.notice (.notice .probe
          [.kw .DONE, .num q.val, optBv seen.t,
            (match seen.region, seen.t with
              | some r, some t => .num (r - t).toInt
              | _, _ => .dash),
            .num seen.seen, .num o.location, .num (peakLevel o.peak),
            .kw (if 0 < o.peak.toInt then .POS else .NEG), .num O,
            optFld (fun c => .kw (CancelCause.kw c)) seen.cancel]) }

end Sys2Proof.Machine
end

