-- ==== Sys2Proof/Certificates/Slice0/Obligations.lean ====
section
/-! DEFINITION. The statements for the provers, chapter by chapter: the whole machine first, then the timebase, the ports,
the programmes, the delay lines, the meter, the gain, the probe, the alarms, the contact lines, the captures,
the takes, and the link with its starts. -/

open Sys2Proof Sys2Proof.Machine

/-! ### The whole machine -/

/-- A step of a state with a command at the front of its queue is that command's `exec` on the state with the rest of the
queue. -/
def Obligations.StepRunsFrontCommand : Prop :=
  ∀ (c : Instr) (q : List Instr) (s : State), step (s.withPending (c :: q)) = exec c (s.withPending q)

/-- Every command is one whole step with a next state (95): it leaves the queue alone, and HC moves by one at
HOUSE_SAMPLE and otherwise only at a start. That a part without supply takes nothing but POWER_ON is the model's
choice (log entry 18). -/
def Obligations.EveryCommandAnswersNext : Prop :=
  ∀ (c : Instr) (s : State), ∃ t, exec c s = .next t ∧ t.pending = s.pending ∧
    ((∀ b a, c ≠ .powerOn b a) → (∀ b a, c ≠ .resetnRelease b a) → (∀ tag args, c ≠ .restartFull tag args) →
      (c = .txLineSent → s.link.waiting = []) →
      t.hc = if c = .houseSample ∧ s.powered = true then s.hc + 1 else s.hc)

/-- R188, R189: every step keeps the transmit FIFO at 64 lines or fewer and the held-notice list at 16 or fewer. -/
def Obligations.LinkStaysBounded : Prop :=
  ∀ s t : State, LinkBounded s → step s = .next t → LinkBounded t

/-- R59, R157: every step keeps the owner map at 2,048 entries and the event FIFO at 32 records or fewer. -/
def Obligations.StoresStayBounded : Prop :=
  ∀ s t : State, StoresBounded s → step s = .next t → StoresBounded t

/-- R102, R105, R108: every step keeps every preset within its limits, of the table, of the stored image and of the image
being saved; it keeps one to four presets on the stack of every defined programme, and its gains within the range of
the preset at the top. -/
def Obligations.GainStaysInPresetRange : Prop :=
  ∀ s t : State, GainHeld s → step s = .next t → GainHeld t

/-- R176, R178, R179: every step keeps the take queue in order, ahead of FC, within 32 entries and with distinct ids. -/
def Obligations.TakeQueueStaysOrdered : Prop :=
  ∀ s t : State, TakesOrdered s → step s = .next t → TakesOrdered t

/-- The state after reset meets every bound that the steps keep. -/
def Obligations.ResetMeetsBounds : Prop :=
  LinkBounded State.reset ∧ StoresBounded State.reset ∧ GainHeld State.reset ∧ TakesOrdered State.reset

/-! ### The timebase and the frame reference (01) -/

/-- R1, R3, R4: the house sample named by HC is produced and HC advances: a sub-block close falls due when HC becomes
a multiple of 4,800, a sample instant when it becomes a multiple of 48; one that is already due and has not been taken
stays due (log entry 4). The read position of a valid lane moves on by one house sample at the tracked ratio, behind a
slip where the depth asks for one (R31), and its fade-in by one position. An output channel whose lane is in the list
of no RUNNING programme carries 0 (R44), and a slot records the words of its channels while ARMED, and in POST up to
the word before trigger HC + post (R168, R171). A contact output that is not held follows its computed level (R163).
What belongs to the other blocks is left alone. That the sample is produced before HC advances is the model's choice
(log entry 2), and so is that the words of a lane fixed earlier in the sample stand (log entry 3). -/
def Obligations.HouseSampleAdvances : Prop :=
  ∀ s : State, s.powered = true → ∃ t, exec .houseSample s = .next t ∧
    t.hc = s.hc + 1 ∧ t.phase = 0 ∧ t.boundaryHere = false ∧
    (t.closeDue = true ↔ s.closeDue = true ∨ (s.hc + 1).toNat % 4800 = 0) ∧
    (t.gpiDue = true ↔ s.gpiDue = true ∨ (s.hc + 1).toNat % 48 = 0) ∧
    (∀ k : LaneId,
      let l := s.lanes[k]
      (l.latch ≠ none ∨ l.valid = false ∨ l.source = none →
        t.lanes[k] = { l with latch := none, outLatch := none }) ∧
      ∀ x, l.latch = none → l.valid = true → l.source = some x →
        let q := s.ports[x.port]
        let depth : Rat := q.frameNo - l.readPos
        let slips := 48 < depth ∨ depth < 16
        t.lanes[k] = { l with
          readPos := (if slips then (q.frameNo : Rat) - (32 + (depth - depth.floor)) else l.readPos) +
            (1048576 : Rat) / (q.ratio.getD 1048576 : Nat)
          slips := if slips then min 65535 (l.slips + 1) else l.slips
          fadePos := if l.fade = .fadingIn then min 240 (l.fadePos + 1) else l.fadePos
          latch := none, outLatch := none }) ∧
    (∀ k : LaneId, s.lanes[k].outLatch = none →
      (∀ p : ProgId, s.pgms[p].ctl.state = .running → k ∉ s.pgms[p].ctl.lanes) → t.pins.out[k] = 0) ∧
    (∀ (k : LaneId) (w : Sample), s.lanes[k].outLatch = some w → t.pins.out[k] = w) ∧
    (∀ p : ProgId, s.pgms[p].ctl.state ≠ .running → t.pgms[p] = s.pgms[p]) ∧
    (s.probe.state ≠ .armed → s.probe.state ≠ .searching → t.probe = s.probe) ∧
    (∀ l : LineId,
      let g := s.gpos[l]
      let level := g.cfg.manual || decide (g.contrib ≠ [])
      t.gpos[l] = { g with
        pin := if g.cfg.held then g.pin else if g.cfg.polarity = .high then level else !level }) ∧
    (∀ c : SlotId, s.slots[c].state = .free ∨ s.slots[c].state = .held → t.slots[c] = s.slots[c]) ∧
    (∀ (c : SlotId) (p : ProgId), s.slots[c].pgm = some p →
      let x := s.slots[c]
      let taken := { x with
        recorded := min 4294967295 (x.recorded + 1)
        rings := List.zipWith (fun ring w => (w :: ring).take (s.slotPages c / x.lanes * 1024)) x.rings
          (s.pgms[p].ctl.lanes.map fun k => t.pins.out[k]) }
      (x.state = .armed → t.slots[c] = taken) ∧
      ∀ h, x.state = .post → x.trigAt = some h →
        t.slots[c] = if (s.hc - h).toNat < x.post then taken else x) ∧
    t = { s with hc := t.hc, phase := t.phase, closeDue := t.closeDue, gpiDue := t.gpiDue,
                 boundaryHere := t.boundaryHere, lanes := t.lanes, pgms := t.pgms, probe := t.probe,
                 gpos := t.gpos, slots := t.slots, pins := { s.pins with out := t.pins.out } }

/-- R6: REF SET of the rate that holds changes nothing; another rate sets the nominal rate and the tracked period, and
moves the flywheel or restarts the acquisition. The boundary made at once falls at the tick phase that stands, and its
notices stand before the reply, by the model's reading (log entries 9 and 17). -/
def Obligations.RefSetChangesRate : Prop :=
  ∀ (s : State) (tag : Nat) (t : Tok) (r : FrameRate), Ready s → tag ≤ 9999 → Tok.rate? t = some r →
    let P := r.period
    let gen := later s.ref.lastBoundary P
    (r = s.ref.rate → exec (.refSet tag [t]) s = .next (s.okTo tag [])) ∧
    (r ≠ s.ref.rate → (s.ref.state = .free ∨ s.ref.state = .lost) → (gen = s.now ∨ ¬ ticksFrom gen s.now < 2 ^ 55) →
      exec (.refSet tag [t]) s =
        .next (State.okTo { s with ref := { s.ref with rate := r, tracked := P, nextGen := some gen } } tag [])) ∧
    (r ≠ s.ref.rate → (s.ref.state = .free ∨ s.ref.state = .lost) → gen ≠ s.now → ticksFrom gen s.now < 2 ^ 55 →
      exec (.refSet tag [t]) s =
        .next (State.okTo
          ((frameBoundary s.now .FLYWHEEL { s with ref := { s.ref with rate := r, tracked := P } }).updRef fun x =>
            { x with nextGen := some (later s.now P) }) tag [])) ∧
    (∀ q, r ≠ s.ref.rate → (s.ref.state = .acquiring ∨ s.ref.state = .locked) → s.ref.lastPulse = some q →
      exec (.refSet tag [t]) s =
        .next (State.okTo
          { s with ref := { s.ref with state := .acquiring, rate := r, tracked := P, count := 0, runStart := some q,
                                       expiry := some (later q (3 * P / 2)) } } tag []))

/-- R7 to R10: a pulse is a frame boundary when more than half a tracked period has gone since the last one, and moves
the reference machine by the state it finds. What the run start holds once the machine is LOCKED is said nothing of: no rule
gives it (log entry 84). -/
def Obligations.PulseMovesReference : Prop :=
  ∀ (s : State) (ph : BitVec 8), s.powered = true →
    let pos := tickAt s.hc ph
    let s0 := { s with phase := ph }
    let b := if s.ref.tracked < 2 * ticksFrom s.ref.lastBoundary pos then frameBoundary pos .PULSE s0 else s0
    let N := s.ref.rate.period
    let P := s.ref.tracked
    (s.ref.state = .free ∨ s.ref.state = .lost →
      exec (.frefPulse ph) s = .next (b.updRef fun r =>
        { r with state := .acquiring, lastPulse := some pos, count := 0, runStart := some pos, nextGen := none,
                 expiry := some (later pos (3 * P / 2)) })) ∧
    (∀ q, s.ref.state = .acquiring → s.ref.lastPulse = some q →
      let p := ticksFrom q pos
      (N < ((p : Int) - N).natAbs * 1000 →
        exec (.frefPulse ph) s = .next (b.updRef fun r =>
          { r with lastPulse := some pos, count := 0, runStart := some pos,
                   expiry := some (later pos (3 * P / 2)) })) ∧
      (((p : Int) - N).natAbs * 1000 ≤ N → s.ref.count + 1 < 8 →
        exec (.frefPulse ph) s = .next (b.updRef fun r =>
          { r with lastPulse := some pos, count := s.ref.count + 1,
                   expiry := some (later pos (3 * P / 2)) })) ∧
      (∀ u, ((p : Int) - N).natAbs * 1000 ≤ N → 8 ≤ s.ref.count + 1 → s.ref.runStart = some u →
        let M := ticksFrom u pos / 8
        ∃ t, exec (.frefPulse ph) s = .next t ∧
          t = (b.updRef fun r =>
            { r with state := .locked, lastPulse := some pos, count := 0, tracked := M,
                     expiry := some (later pos (3 * M / 2)), runStart := t.ref.runStart }).notify .ref
              [.kw .LOCKED, .num b.fc.toNat, .num M])) ∧
    (∀ q, s.ref.state = .locked → s.ref.lastPulse = some q →
      let p := ticksFrom q pos
      let M := ((P : Int) + Int.tdiv ((p : Int) - P) 8).toNat
      (((p : Int) - P).natAbs * 1000 ≤ P →
        exec (.frefPulse ph) s = .next (b.updRef fun r =>
          { r with lastPulse := some pos, tracked := M, expiry := some (later pos (3 * M / 2)) })) ∧
      (P < ((p : Int) - P).natAbs * 1000 →
        exec (.frefPulse ph) s = .next (b.updRef fun r =>
          { r with state := .acquiring, lastPulse := some pos, count := 0, runStart := some pos,
                   expiry := some (later pos (3 * P / 2)) })))

/-- R11, R12: a generated boundary that has been reached is made and the next one set a tracked period on; a missing
pulse takes the reference to LOST with a boundary at once, the flywheel two tracked periods after the last
pulse, and a REF notice. An expiry that is absent or not reached does nothing (log entry 1), and that the boundary lies
at the expiry's own tick, also where REF SET has put it in the past, and that the consistency count and the run start stay, are
the model's choices (log entries 60, 68 and 84). -/
def Obligations.FlywheelMakesBoundaries : Prop :=
  ∀ s : State, s.powered = true →
    (∀ x, s.ref.nextGen = some x → s.reached x = true →
      exec .flywheelBoundary s =
        .next ((frameBoundary x .FLYWHEEL (s.atInstant x)).updRef fun r =>
          { r with nextGen := some (later x s.ref.tracked) })) ∧
    ((∀ x, s.ref.nextGen = some x → s.reached x = false) → exec .flywheelBoundary s = .next s) ∧
    (∀ x q, s.ref.expiry = some x → s.reached x = true → s.ref.lastPulse = some q →
      let b := frameBoundary x .FLYWHEEL ((s.atInstant x).updRef fun r =>
        { r with state := .lost, expiry := none, nextGen := some (later q (2 * s.ref.tracked)) })
      exec .missingPulseExpiry s =
        .next (b.notify .ref [.kw .LOST, .num b.fc.toNat, .num s.ref.tracked])) ∧
    ((∀ x, s.ref.expiry = some x → s.reached x = false) → exec .missingPulseExpiry s = .next s)

/-- R2, R13, R50, R179: a frame boundary raises FC by one and moves the last boundary, in every reference state; the
entries due at the new FC leave the take queue; and no RUNNING programme stays in WAITING. The order of the take and
the delay lines stays free (log entry 10). -/
def Obligations.FrameBoundaryCounts : Prop :=
  ∀ (s : State) (pos : TickPos) (o : Kw),
    let t := frameBoundary pos o s
    t.fc = s.fc + 1 ∧ t.ref = { s.ref with lastBoundary := pos } ∧ t.hc = s.hc ∧ t.phase = s.phase ∧
      t.boundaryHere = true ∧ t.takes = s.takes.dropWhile (fun e => decide (e.due = s.fc + 1)) ∧
      t.nextId = s.nextId ∧
      ∀ p : ProgId, t.pgms[p].ctl.state = .running → t.pgms[p].ctl.out ≠ .waiting

/-- R50, R72: at a boundary with no entry due, a WAITING programme discards the parts that are no real change and starts
its fade down with what remains; a STILL line away from its target starts the motion its mode chooses; and
nothing else changes. -/
def Obligations.BoundaryStartsFadesAndMotions : Prop :=
  ∀ (s : State) (pos : TickPos) (o : Kw), (∀ e, s.takes.head? = some e → e.due ≠ s.fc + 1) →
    let t := frameBoundary pos o s
    t = { s with fc := s.fc + 1, ref := { s.ref with lastBoundary := pos }, boundaryHere := true, pgms := t.pgms } ∧
    ∀ p : ProgId,
      let c := s.pgms[p].ctl
      let x := c.realParts c.pending
      let d := s.pgms[p].dly
      t.pgms[p] = { s.pgms[p] with
        ctl :=
          if c.state = .running ∧ c.out = .waiting then
            if x = Change.empty then { c with out := .opened, pending := Change.empty }
            else { c with out := .fadingDown, fadePos := 0, begunLate := false, inflight := some x,
                          pending := Change.empty }
          else c
        dly :=
          if c.state = .running ∧ d.motion = .still ∧ d.dTarget ≠ d.dApp then
            if d.motionMode = .slew ∨ (d.motionMode = .auto ∧ ((d.dTarget : Int) - d.dApp).natAbs ≤ 960) then
              { d with motion := .slewing, slewCount := 0 }
            else { d with motion := .fadingDown, jumpPos := 0 }
          else d }

/-! ### Input ports and lanes (02) -/

/-- R16, R20, R26, R34: every frame edge moves the signal expiry 24,576 ticks on. In NO_SIGNAL it opens a window, takes the
port to MEASURING and sends a PORT notice; in any other state it is counted in the window. The expiry takes the port to
NO_SIGNAL: the window and its counts are discarded, the class, the ratio and the last measurement are kept, a loss of lock is
counted, a PORT notice is sent, and every lane on the port is invalid and SILENT; its sources, its current source and its Lc
stay, and nothing else of it moves than what its word of the house sample in progress, fixed first (log entry 3), moves. That
the words of the frame join the stream at its edge, that the count in the window stops at 4,096 until WINDOW_CLOSE is taken,
and that an expiry not reached does nothing, are the model's choices (log entries 8, 4 and 1). A fade position is 0 while no
fade runs, by the model's choice (log entry 80). -/
def Obligations.EdgesKeepSignal : Prop :=
  (∀ (s : State) (i : PortId) (ph : BitVec 8) (w : Frame), s.powered = true →
    let pos := tickAt s.hc ph
    let p := s.ports[i]
    let heard := { p with expiry := some (later pos 24576), frameNo := p.frameNo + 1,
                          recent := w :: p.recent }
    (p.state = .noSignal →
      exec (.frameEdge i ph w) s =
        .next (State.notify
          { s with phase := ph,
                   ports := s.ports.set i { heard with
                     state := .measuring, windowStart := some pos, inWindow := 0, agree := 0, history := [],
                     hasPred := false } }
          .port [.num i.val, .kw .MEASURING, optFld (fun c => .kw (RateClass.kw c)) p.cls,
                 optFld (fun n => .num n) p.ratio, .num p.lockLoss])) ∧
    (p.state ≠ .noSignal →
      exec (.frameEdge i ph w) s =
        .next { s with phase := ph,
                       ports := s.ports.set i { heard with inWindow := min 4096 (p.inWindow + 1) } })) ∧
  ∀ (s : State) (i : PortId), s.powered = true →
    let p := s.ports[i]
    let n := if p.state = .locked ∨ p.state = .relocking then min 65535 (p.lockLoss + 1) else p.lockLoss
    (∀ x, p.expiry = some x → s.reached x = true → ∃ t, exec (.signalExpiry i) s = .next t ∧
      t = { s with phase := t.phase, lanes := t.lanes,
                   ports := s.ports.set i { p with
                     state := .noSignal, expiry := none, windowStart := none, inWindow := 0, history := [],
                     agree := 0, relock := 0, hasPred := false, lockLoss := n },
                   link := s.link.notice (.notice .port
                     [.num i.val, .kw .NO_SIGNAL, optFld (fun c => .kw (RateClass.kw c)) p.cls,
                      optFld (fun n => .num n) p.ratio, .num n]) } ∧
      (∀ k : LaneId, s.lanes[k].onPort i = true →
        t.lanes[k] = { laneFormed s k with valid := false, fade := .silent, fadePos := 0 } ∧
          t.lanes[k].main = s.lanes[k].main ∧ t.lanes[k].backup = s.lanes[k].backup ∧
          t.lanes[k].current = s.lanes[k].current ∧ t.lanes[k].lc = s.lanes[k].lc) ∧
      (∀ k : LaneId, ¬ s.lanes[k].onPort i = true → t.lanes[k] = s.lanes[k])) ∧
    ((∀ x, p.expiry = some x → s.reached x = false) → exec (.signalExpiry i) s = .next s)

/-- R17 to R27, R34 to R36, R45, R46: the close of a window stores the measured ratio and judges the port by it: in LOCKED
against its tracked ratio, in MEASURING and RELOCKING against the window before, and in every state against the range of the
five classes. The lanes on the port become valid or invalid with it: one that becomes valid fades in from the centre depth,
one that is valid before and after keeps its fade, its fade position and its read position, and one that is invalid is SILENT.
The sources and the current source of every lane stay, and nothing else of a lane on the port moves than what its word of the
house sample in progress, fixed first (log entry 3), moves. A port that changes its state sends a PORT notice, with CLASS where
its class has changed, behind nothing but the PAGES notices of the lines its class moves, and one that keeps it sends nothing.
A new class gives every lane on the port its Lc, and every defined programme, in programme-number order, its Lc_pgm and pads,
with T and D_req formed afresh where they changed: the line of a RUNNING one takes them as it takes those of DLY VIDEO, and a
PARKED one that is not SHORT, as none is in a run, changes in nothing else. That the relock count stays at its last value where
RELOCKING falls to MEASURING, and that a lane is centred on the newest frame at the close, are the model's choices (log entries
48 and 61), and so are the PAGES notice marked CUT, the figures of one before a release, the words a release leaves and the
slew count of a slew that ends (43, 70, 47 and 74). A fade position is 0 while no fade runs, by the model's choice (log entry
80). -/
def Obligations.WindowCloseJudgesPort : Prop :=
  ∀ (s : State) (i : PortId) (w e : TickPos), s.powered = true →
    let p := s.ports[i]
    p.state ≠ .noSignal → 4096 ≤ p.inWindow → p.windowStart = some w → p.expiry = some e →
    let edge := e - 24576
    let rm := ticksFrom w edge
    let kept := { p with history := (match p.lastMeas with
                           | some m => (m :: p.history).take 2
                           | none => p.history),
                         lastMeas := some rm, windowStart := some edge, inWindow := 0, hasPred := true }
    let lost := min 65535 (p.lockLoss + 1)
    let agrees := fun (prev : Nat) => ((rm : Int) - prev).natAbs * 50000 ≤ prev
    ∃ t, exec (.windowClose i) s = .next t ∧
      t = { s with ports := t.ports, lanes := t.lanes, pgms := t.pgms, owners := t.owners, link := t.link } ∧
      (∀ q : ProgId, t.pgms[q] = { s.pgms[q] with ctl := t.pgms[q].ctl, dly := t.pgms[q].dly }) ∧
      (∀ j, j ≠ i → t.ports[j] = s.ports[j]) ∧
      (∀ k : LaneId, ¬ s.lanes[k].onPort i = true → t.lanes[k] = s.lanes[k]) ∧
      (∀ k : LaneId, s.lanes[k].onPort i = true →
        (t.lanes[k].valid = true ↔ t.ports[i].state = .locked ∨ t.ports[i].state = .relocking)) ∧
      (t.ports[i].state = p.state → t.link = s.link) ∧
      (∀ k : LaneId, s.lanes[k].onPort i = true →
        let l := s.lanes[k]
        let w := laneFormed s k
        let now := t.lanes[k].valid
        t.lanes[k] = { w with
          lc := t.lanes[k].lc, valid := now
          fade := if now then (if l.valid then w.fade else .fadingIn) else .silent
          fadePos := if now && l.valid then w.fadePos else 0
          readPos := if now && !l.valid then (p.frameNo : Rat) - 32 else w.readPos } ∧
        t.lanes[k].main = l.main ∧ t.lanes[k].backup = l.backup ∧ t.lanes[k].current = l.current) ∧
      (t.ports[i].cls = p.cls → t.pgms = s.pgms ∧ t.owners = s.owners ∧
        (∀ k : LaneId, t.lanes[k].lc = s.lanes[k].lc) ∧
        (t.ports[i].state ≠ p.state → t.link = s.link.notice (.notice .port
          [.num i.val, .kw t.ports[i].state.kw, optFld (fun c => .kw (RateClass.kw c)) p.cls,
           optFld (fun n => .num n) t.ports[i].ratio, .num t.ports[i].lockLoss]))) ∧
      (∀ c, t.ports[i].cls = some c → p.cls ≠ some c →
        let lc := match c with
          | .k32 => 120
          | .k441 => 104
          | .k48 => 96
          | .k882 => 80
          | .k96 => 72
        (∀ k : LaneId, t.lanes[k].lc = if s.lanes[k].onPort i = true then lc else s.lanes[k].lc) ∧
        (∀ q : ProgId,
          let g := s.pgms[q]
          let L := (g.ctl.lanes.map fun k => t.lanes[k].lc).foldl max 0
          let pads := g.ctl.lanes.map fun k => L - t.lanes[k].lc
          (g.ctl.state = .undefined ∨ (L = g.ctl.lcPgm ∧ pads = g.ctl.pads) → t.pgms[q].ctl = g.ctl ∧
            (g.dly.short = false → t.pgms[q].dly = g.dly)) ∧
          (g.ctl.state ≠ .undefined → ¬ (L = g.ctl.lcPgm ∧ pads = g.ctl.pads) →
            t.pgms[q].ctl = { g.ctl with lcPgm := L, pads := pads } ∧
            t.pgms[q].dly.t = (lengthFormed L g.dly).t ∧ t.pgms[q].dly.dReq = (lengthFormed L g.dly).dReq ∧
            t.pgms[q].dly.floor = (lengthFormed L g.dly).floor ∧
            (g.ctl.state = .parked → g.dly.short = false → t.pgms[q].dly = lengthFormed L g.dly))) ∧
        (∃ v : Nat → State,
          v 0 = { s with ports := t.ports, lanes := (v 0).lanes } ∧
          (∀ q : ProgId,
            let L := (s.pgms[q].ctl.lanes.map fun k => t.lanes[k].lc).foldl max 0
            latencyTaken (v q.val) (v (q.val + 1)) q L (s.pgms[q].ctl.lanes.map fun k => L - t.lanes[k].lc)) ∧
          t = { v 8 with lanes := t.lanes, link := t.link } ∧
          t.link = (v 8).link.notice (.notice .port
            [.num i.val, .kw .LOCKED, .kw (RateClass.kw c), optFld (fun n => .num n) t.ports[i].ratio,
             .num t.ports[i].lockLoss, .kw .CLASS])) ∧
        ∃ told : List Line, (∀ x ∈ told, ∃ fields, x = .notice .pages fields) ∧
          t.link = (s.link.notices told).notice (.notice .port
            [.num i.val, .kw .LOCKED, .kw (RateClass.kw c), optFld (fun n => .num n) t.ports[i].ratio,
             .num t.ports[i].lockLoss, .kw .CLASS])) ∧
      (p.state = .locked → inRange rm = false →
        t.ports[i] = { kept with state := .outOfRange, agree := 0, relock := 0, lockLoss := lost }) ∧
      (∀ rt, p.state = .locked → inRange rm = true → p.ratio = some rt → rt < ((rm : Int) - rt).natAbs * 5000 →
        t.ports[i] = { kept with state := .relocking, relock := 0 }) ∧
      (∀ rt, p.state = .locked → inRange rm = true → p.ratio = some rt → ((rm : Int) - rt).natAbs * 5000 ≤ rt →
        t.ports[i] = { kept with ratio := some ((rt : Int) + Int.tdiv ((rm : Int) - rt) 8).toNat }) ∧
      (p.state = .measuring → inRange rm = false →
        t.ports[i] = { kept with state := .outOfRange, agree := 0, relock := 0 }) ∧
      (p.state = .measuring → inRange rm = true → p.hasPred = false → t.ports[i] = kept) ∧
      (∀ prev, p.state = .measuring → inRange rm = true → p.hasPred = true → p.lastMeas = some prev →
        (¬ agrees prev → t.ports[i] = { kept with agree := 0 }) ∧
        (agrees prev → p.agree + 1 < 3 → t.ports[i] = { kept with agree := p.agree + 1 }) ∧
        (∀ a, agrees prev → 3 ≤ p.agree + 1 → p.history.head? = some a →
          t.ports[i] = { kept with state := .locked, ratio := some ((rm + prev + a) / 3),
                                   cls := some (nearestClass ((rm + prev + a) / 3)), agree := 0, relock := 0 })) ∧
      (p.state = .relocking → inRange rm = false →
        t.ports[i] = { kept with state := .outOfRange, agree := 0, relock := 0, lockLoss := lost }) ∧
      (∀ prev, p.state = .relocking → inRange rm = true → p.lastMeas = some prev →
        (agrees prev →
          t.ports[i] = { kept with state := .locked, ratio := some ((rm + prev) / 2),
                                   cls := some (nearestClass ((rm + prev) / 2)), agree := 0, relock := 0 }) ∧
        (¬ agrees prev → 4 ≤ p.relock + 1 →
          t.ports[i] = { kept with state := .measuring, agree := 0, relock := p.relock + 1, lockLoss := lost }) ∧
        (¬ agrees prev → p.relock + 1 < 4 → t.ports[i] = { kept with relock := p.relock + 1 })) ∧
      (p.state = .outOfRange → inRange rm = true → t.ports[i] = { kept with state := .measuring, agree := 0 }) ∧
      (p.state = .outOfRange → inRange rm = false → t.ports[i] = kept)

/-- R32, R34, R36, R46, R64: LANE SET writes the sources of a lane, keeps its current source, and re-evaluates it against the
port that source now names: its validity and its Lc follow that port, a lane left valid stands at the centre, and one that
becomes valid fades in. No other lane changes. While no RUNNING programme holds the lane and each holds the figures of its
lanes, as in a run, no page moves and no notice is sent; a programme whose figures change, which is a PARKED holder of the
lane, holds its Lc_pgm, pads, T, D_req and FLOOR, and every other programme keeps its record. A lane of a RUNNING programme,
and a lane on BACKUP that would lose its backup, refuse with STATE; a lane, port or channel out of range refuses with RANGE,
and words that cannot be read with SYNTAX, before RANGE by the model's reading (log entry 33). A backup left out is NONE. The
word of the house sample in progress is fixed first (log entry 3), and the centre is counted from the newest frame at the
request (log entry 61). A fade position is 0 while no fade runs, by the model's choice (log entry 80). A number with a minus
sign is read also where it is no signed one, and is then out of range or clamped, by the model's choice (log entry 85). -/
def Obligations.LaneSetWritesSources : Prop :=
  ∀ (s : State) (tag : Nat), Ready s → tag ≤ 9999 →
    (∀ args, (∀ t m b, args = [t, m] ∨ args = [t, m, b] →
        Tok.index? .L t = none ∨ readSource m = none ∨ args = [t, m, b] ∧ readSource b = none) →
      exec (.laneSet tag args) s = .next (s.erTo tag .synErr)) ∧
    (∀ t m b, (Tok.index? .L t).isSome → (readSource m).isSome → (readSource b).isSome →
      (beyond .L 24 t ∨ readSource m = some none ∨ readSource b = some none) →
      exec (.laneSet tag [t, m, b]) s = .next (s.erTo tag .range)) ∧
    (∀ t m, exec (.laneSet tag [t, m]) s = exec (.laneSet tag [t, m, .kw .NONE]) s) ∧
    ∀ (t m b : Tok) (k : LaneId) (M B : Option Source),
    Tok.fin? .L 24 t = some k → readSource m = some (some M) → readSource b = some (some B) →
    let l := { s.lanes[k] with main := M, backup := B }
    let running := ∃ p, s.ownerOf k = some p ∧ s.pgms[p].ctl.state = .running
    let stranded := s.lanes[k].current = .backup ∧ B = none
    (running ∨ stranded → exec (.laneSet tag [t, m, b]) s = .next (s.erTo tag .state)) ∧
    (¬ running → ¬ stranded → ∃ u, exec (.laneSet tag [t, m, b]) s = .next u ∧
      (let w := laneFormed s k
       let good := s.sourceGood l
       u.lanes[k] = { w with
         main := M, backup := B, valid := good, lc := s.lcFor l
         fade := if good then (if w.valid then w.fade else .fadingIn) else .silent
         fadePos := if good && w.valid then w.fadePos else 0
         readPos := match l.source with
           | some x => if good then (s.ports[x.port].frameNo : Rat) - 32 else w.readPos
           | none => w.readPos }) ∧
      u.lanes[k].current = s.lanes[k].current ∧
      (s.lanes[k].valid = false → u.lanes[k].valid = true → u.lanes[k].fade = .fadingIn ∧ u.lanes[k].fadePos = 0) ∧
      (∀ j, j ≠ k → u.lanes[j] = s.lanes[j]) ∧
      u.link.fifo.getLast? = some (.reply (some tag) (.ok [] [])) ∧
      u = { s with lanes := u.lanes, pgms := u.pgms, owners := u.owners, link := u.link } ∧
      ((∀ q : ProgId, s.pgms[q].ctl.state = .running → k ∉ s.pgms[q].ctl.lanes ∧
          s.lcOf s.pgms[q].ctl.lanes = s.pgms[q].ctl.lcPgm ∧ s.padsOf s.pgms[q].ctl.lanes = s.pgms[q].ctl.pads) →
        u.owners = s.owners ∧ u.link = s.link.reply (some tag) (.ok [] []) ∧
        ∀ q : ProgId,
          let g := s.pgms[q]
          let lc := u.lcOf g.ctl.lanes
          let pads := u.padsOf g.ctl.lanes
          (k ∉ g.ctl.lanes → lc = s.lcOf g.ctl.lanes ∧ pads = s.padsOf g.ctl.lanes) ∧
          u.pgms[q] =
            if g.ctl.state = .undefined ∨ (lc = g.ctl.lcPgm ∧ pads = g.ctl.pads) then g
            else { g with ctl := { g.ctl with lcPgm := lc, pads := pads }, dly := lengthFormed lc g.dly }))

/-- R35, R52, R114: after the word at fade position 239 a lane is OPEN, and a programme's fade up ends OPEN, or WAITING with
what remains of its pending change; after ramp position 4,799 the multiplier in use is the ramp's end. Where the end is not
reached the event does nothing (log entry 1). A fade position is 0 while no fade runs, by the model's choice (log entry 80).
-/
def Obligations.FadesAndRampsEnd : Prop :=
  ∀ s : State, s.powered = true →
    (∀ k : LaneId, s.lanes[k].fade = .fadingIn → 240 ≤ s.lanes[k].fadePos →
      exec (.laneFadeInEnd k) s =
        .next { s with lanes := s.lanes.set k { s.lanes[k] with fade := .opened, fadePos := 0 } }) ∧
    (∀ k : LaneId, ¬ (s.lanes[k].fade = .fadingIn ∧ 240 ≤ s.lanes[k].fadePos) →
      exec (.laneFadeInEnd k) s = .next s) ∧
    (∀ p : ProgId,
      let c := s.pgms[p].ctl
      let x := c.realParts c.pending
      c.state = .running → c.out = .fadingUp → 240 ≤ c.fadePos →
      exec (.outputFadeUpEnd p) s =
        .next (s.updCtl p fun c =>
          { c with inflight := none, fadePos := 0, pending := x,
                   out := if x = Change.empty then .opened else .waiting })) ∧
    (∀ p : ProgId,
      ¬ (s.pgms[p].ctl.state = .running ∧ s.pgms[p].ctl.out = .fadingUp ∧ 240 ≤ s.pgms[p].ctl.fadePos) →
      exec (.outputFadeUpEnd p) s = .next s) ∧
    (∀ p : ProgId, s.pgms[p].ctl.state = .running → s.pgms[p].ctl.mode = .full → 4800 ≤ s.pgms[p].cor.rampPos →
      exec (.multiplierRampEnd p) s = .next (s.updCor p fun c => { c with multNow := c.rampTo })) ∧
    (∀ p : ProgId,
      ¬ (s.pgms[p].ctl.state = .running ∧ s.pgms[p].ctl.mode = .full ∧ 4800 ≤ s.pgms[p].cor.rampPos) →
      exec (.multiplierRampEnd p) s = .next s)

/-! ### Programmes (03) -/

/-- R40, R33, R64, R78, R98: PGM DEFINE of a programme that is not RUNNING, with a lane list that fits its layout and that no
other programme holds, makes it PARKED with the values of a definition: its gain and its meter at their starting values, and
T, D_req and FLOOR formed for its latency, from the V and O it keeps, or from 0 where it was UNDEFINED. The lanes that join or
leave it go to MAIN: one that was on BACKUP is switched, OPEN on a port that is LOCKED or RELOCKING and invalid on any other,
and one already on MAIN is left as it is (log entry 31). A number out of range is refused with RANGE, words that cannot be
read, or a list that does not fit its layout, with SYNTAX, a RUNNING programme with STATE, and a lane named twice or held
elsewhere with CONFLICT. A word is judged by its place, also where one is missing (log entry 33); the flags of the meter (75),
what an absent item held (11), and the word of the house sample in progress (3) are the model's too. A fade position is 0
while no fade runs, by the model's choice (log entry 80). A number with a minus sign is read also where it is no signed one,
and is then out of range or clamped, by the model's choice (log entry 85). -/
def Obligations.PgmDefineMakesParked : Prop :=
  ∀ (s : State) (tag : Nat), Ready s → tag ≤ 9999 →
    (let outside := fun (args : List Tok) =>
      (∃ t, args[0]? = some t ∧ beyond .P 8 t) ∨
      (∃ t l, args[2]? = some t ∧ Tok.items? .L t = some l ∧ ∃ x ∈ l, x < 0 ∨ 24 ≤ x) ∨
      ∃ t, args[3]? = some t ∧ beyond .PS 16 t
     wordsRefused s tag (fun args => exec (.pgmDefine tag args) s)
      (fun args => ¬ outside args ∧ ∀ t y ks b lay l, args = [t, y, ks, b] → Tok.layout? y = some lay →
        Tok.items? .L ks = some l → l.length = lay.count → Tok.index? .P t = none ∨ Tok.index? .PS b = none) outside) ∧
    ∀ (t y ks b : Tok) (p : ProgId) (lay : Layout) (lanes : List LaneId) (base : PresetId),
    Tok.fin? .P 8 t = some p → Tok.layout? y = some lay →
    (Tok.items? .L ks).bind (asFins 24) = some lanes → Tok.fin? .PS 16 b = some base → lanes.length = lay.count →
    let go := exec (.pgmDefine tag [t, y, ks, b]) s
    let clash := ¬ lanes.Nodup ∨ ∃ k ∈ lanes, ∃ q, s.ownerOf k = some q ∧ q ≠ p
    (s.pgms[p].ctl.state = .running → go = .next (s.erTo tag .state)) ∧
    (s.pgms[p].ctl.state ≠ .running → clash → go = .next (s.erTo tag .conflict)) ∧
    (s.pgms[p].ctl.state ≠ .running → ¬ clash → ∃ u, go = .next u ∧
      u.pgms[p] =
        { ctl :=
            { state := .parked, layout := lay, lanes := lanes, basePreset := base, mode := .full, active := .main,
              revert := none, revertCount := 0, changeovers := 0, lcPgm := u.lcOf lanes, pads := u.padsOf lanes,
              out := .silent, fadePos := 0, fadeHold := false, begunLate := false, inflight := none,
              pending := Change.empty }
          dly := lengthFormed (u.lcOf lanes)
            (if s.pgms[p].ctl.state = .undefined then Delay.undefined else s.pgms[p].dly)
          mtr := Meter.start lanes.length
          cor := Correction.start [base] } ∧
      (s.pgms[p].ctl.state = .undefined →
        u.pgms[p].dly.v = 0 ∧ u.pgms[p].dly.o = 0 ∧ u.pgms[p].dly.motionMode = .auto) ∧
      (∀ q, q ≠ p → u.pgms[q] = s.pgms[q]) ∧
      (∀ k : LaneId, k ∈ lanes ∨ k ∈ s.pgms[p].ctl.lanes → u.lanes[k] = laneSetTo s .main k) ∧
      (∀ k : LaneId, k ∉ lanes → k ∉ s.pgms[p].ctl.lanes → u.lanes[k] = s.lanes[k]) ∧
      u = { s with lanes := u.lanes, pgms := u.pgms,
                   link := s.link.reply (some tag) (.ok [.num u.pgms[p].ctl.lcPgm] []) })

/-- R41, R77: PGM RUN of a PARKED programme is refused with FULL when the pool cannot give a page to each lane. Otherwise it
becomes RUNNING behind a fade up, its line formed from the pages granted, its meter and gain at their starting values with its
stack kept, and SHORT set when the grant is below the need. A number out of range is refused with RANGE, words that are no one
number with SYNTAX, and a programme that is not PARKED with STATE. The house sample in progress carries 0 (log entry 3), the
PAGES notice of a short grant stands before the reply (log entry 17), and the flags of the meter are the model's choice (log
entry 75). A number with a minus sign is read also where it is no signed one, and is then out of range or clamped, by the
model's choice (log entry 85). -/
def Obligations.PgmRunStartsProgramme : Prop :=
  ∀ (s : State) (tag : Nat), Ready s → tag ≤ 9999 →
    oneNumberRefused s tag .P 8 (fun args => exec (.pgmRun tag args) s) ∧
    ∀ (t : Tok) (p : ProgId), Tok.fin? .P 8 t = some p →
    let c := s.pgms[p].ctl
    let d := s.pgms[p].dly.form c.lcPgm
    let k := c.lanes.length
    let pad := maxPad c.pads
    let need := max 1 ((d.dReq + pad + 1023) / 1024)
    let grant := min need (s.freePages / k)
    let len := min d.dReq (grant * 1024 - pad)
    (c.state ≠ .parked → exec (.pgmRun tag [t]) s = .next (s.erTo tag .state)) ∧
    (c.state = .parked → s.freePages < k → exec (.pgmRun tag [t]) s = .next (s.erTo tag .full)) ∧
    (c.state = .parked → 1 ≤ k → k ≤ 8 → k ≤ s.freePages → s.pagesHeld p = 0 →
      ∃ u, exec (.pgmRun tag [t]) s = .next u ∧
      u.pgms[p] =
        { ctl := { c with state := .running, revertCount := 0, out := .fadingUp, fadePos := 0, fadeHold := true,
                          inflight := none },
          dly := { d with dTarget := len, dApp := len, hist := 0, motion := .still, slewCount := 0, jumpPos := 0,
                          pendTarget := none, short := decide (grant < need), lines := List.replicate k [],
                          padsNow := c.pads },
          mtr := Meter.start k,
          cor := { Correction.start s.pgms[p].cor.stack with
                     overflow := s.pgms[p].cor.overflow, underflow := s.pgms[p].cor.underflow } } ∧
      u.pagesHeld p = grant ∧ u.freePages + grant * k = s.freePages ∧
      (∀ q, q ≠ p → u.pgms[q] = s.pgms[q]) ∧
      u.link.fifo.getLast? = some (.reply (some tag)
        (.ok (.num grant :: (if grant < need then [.kw .SHORT] else [])) [])) ∧
      (need ≤ grant → u.link = s.link.reply (some tag) (.ok [.num grant] [])) ∧
      u = { s with pgms := u.pgms, owners := u.owners, link := u.link })

/-- R42, R78, R98, R129, R174: PGM PARK of a RUNNING programme silences it, returns every page of its lines and of its capture
slots, clears its meter and gain, cancels the probe on it, and removes its report; its source, mode, revert policy, changeover
count and stack stay. Every lane keeps its sources and its current source, and nothing of it moves but what its word of the
house sample in progress moves: that word and the word its channel would carry in this house sample are fixed first for the
lanes of the list, and no other lane changes (log entry 3). Every other programme, report and slot is left, and a probe on
another programme. A PAGES notice is sent where SHORT was set, a PROBE notice where the probe was cancelled, and a CAP notice
for each slot freed. A number out of range is refused with RANGE, words that are no one number with SYNTAX, and a programme
that is not RUNNING with STATE. The report goes while the scan has not begun (log entry 25); the notices of a park stand
before its reply, in the order of R42's list (log entries 17, 23 and 57), and the flags of the meter are the model's choice
(log entry 75). Its fade positions and its slew count are 0 then, by the model's choice (log entry 80). A number with a minus
sign is read also where it is no signed one, and is then out of range or clamped, by the model's choice (log entry 85). -/
def Obligations.PgmParkStopsProgramme : Prop :=
  ∀ (s : State) (tag : Nat), Ready s → tag ≤ 9999 →
    oneNumberRefused s tag .P 8 (fun args => exec (.pgmPark tag args) s) ∧
    ∀ (t : Tok) (p : ProgId), Tok.fin? .P 8 t = some p →
    (s.pgms[p].ctl.state ≠ .running → exec (.pgmPark tag [t]) s = .next (s.erTo tag .state)) ∧
    (s.pgms[p].ctl.state = .running → ∃ u, exec (.pgmPark tag [t]) s = .next u ∧
      u.pgms[p] =
        { ctl := { s.pgms[p].ctl with state := .parked, out := .silent, fadePos := 0, fadeHold := false,
                                      inflight := none, pending := Change.empty, revertCount := 0 },
          dly := { s.pgms[p].dly with dTarget := 0, dApp := 0, hist := 0, motion := .still, slewCount := 0,
                                      jumpPos := 0, pendTarget := none, short := false, lines := [],
                                      padsNow := [] },
          mtr := Meter.start s.pgms[p].ctl.lanes.length,
          cor := { Correction.start s.pgms[p].cor.stack with
                     overflow := s.pgms[p].cor.overflow, underflow := s.pgms[p].cor.underflow } } ∧
      (∀ k : LaneId,
        u.lanes[k].main = s.lanes[k].main ∧ u.lanes[k].backup = s.lanes[k].backup ∧
        u.lanes[k].current = s.lanes[k].current ∧
        (k ∉ s.pgms[p].ctl.lanes → u.lanes[k] = s.lanes[k]) ∧
        (k ∈ s.pgms[p].ctl.lanes → u.lanes[k] = { laneFormed s k with outLatch := u.lanes[k].outLatch }) ∧
        (∀ w, s.lanes[k].outLatch = some w → u.lanes[k].outLatch = some w) ∧
        (k ∈ s.pgms[p].ctl.lanes → s.pgms[p].ctl.lanes.Nodup →
          (∀ q, q ≠ p → s.pgms[q].ctl.state = .running → k ∉ s.pgms[q].ctl.lanes) →
          ∀ v, exec .houseSample s = .next v → u.lanes[k].outLatch = some v.pins.out[k])) ∧
      (∀ pos, u.owners.count (.line p pos) = 0) ∧ u.reports[p] = none ∧
      (∀ c : SlotId, s.slots[c].pgm = some p → u.slots[c].state = .free ∧ u.slotPages c = 0 ∨
        s.slots[c].state = .free ∧ u.slots[c] = s.slots[c]) ∧
      (∀ c : SlotId, s.slots[c].pgm ≠ some p → u.slots[c] = s.slots[c]) ∧
      (s.probe.pgm = some p → (s.probe.state = .armed ∨ s.probe.state = .searching) →
        u.probe = { s.probe with state := .cancelled, expiry := none, cancel := some .park }) ∧
      (∀ q, q ≠ p → u.pgms[q].ctl = s.pgms[q].ctl ∧ u.pgms[q].mtr = s.pgms[q].mtr ∧ u.pgms[q].cor = s.pgms[q].cor) ∧
      u.link.fifo.getLast? = some (.reply (some tag) (.ok [] [])) ∧
      u = { s with lanes := u.lanes, pgms := u.pgms, owners := u.owners, probe := u.probe, reports := u.reports,
                   slots := u.slots, link := u.link } ∧
      (∀ q, q ≠ p → u.reports[q] = s.reports[q] ∧ (s.pgms[q].dly.short = false → u.pgms[q] = s.pgms[q])) ∧
      let cancels := s.probe.pgm = some p ∧ (s.probe.state = .armed ∨ s.probe.state = .searching)
      let parks := fun (c : SlotId) => decide (s.slots[c].pgm = some p ∧ s.slots[c].state ≠ .free)
      let freeBy := fun (cs : List SlotId) => s.owners.countP fun o => match o with
        | .free => true
        | .line q _ => decide (q = p)
        | .slot c => decide (c ∈ cs ∧ parks c = true)
      let capLine := fun (c : SlotId) (cs : List SlotId) =>
        let x := s.slots[c]
        if parks c then [Line.notice .cap
          ([.num c.val, .kw .PARKED, .num p.val, optBv x.trigAt] ++ optFlds TrigSource.flds x.trigSrc ++
            [optNat x.actualPre, .num x.post, .num x.ignored, .num (freeBy cs)])] else []
      (¬ cancels → u.probe = s.probe) ∧
      ((∀ q, q ≠ p → s.pgms[q].dly.short = false) →
        let first := if s.pgms[p].dly.short then s.link.notice (.notice .pages
            [.num p.val, .num 0, .num 0, .num 0, .kw .MET, .num (freeBy [])]) else s.link
        let second := if cancels then (probeNotice { s with probe := u.probe, link := first }).link else first
        u.link = (second.notices (capLine 0 [0] ++ capLine 1 [0, 1])).reply (some tag) (.ok [] [])))

/-- R43, R33: PGM DELETE of a PARKED programme makes it UNDEFINED with every item absent, and its lanes go to MAIN: one that
was on BACKUP is switched, OPEN on a port that is LOCKED or RELOCKING and invalid on any other, and one already on MAIN is
left (log entry 31); nothing else changes. A number outside 0..7 is refused with RANGE, words that are no one number with
SYNTAX, a RUNNING or UNDEFINED programme with STATE. What an absent item holds is the model's choice (log entry 11), and the
words of the house sample in progress are fixed first (log entry 3). A fade position is 0 while no fade runs, by the model's
choice (log entry 80). A number with a minus sign is read also where it is no signed one, and is then out of range or clamped,
by the model's choice (log entry 85). -/
def Obligations.PgmDeleteMakesUndefined : Prop :=
  ∀ (s : State) (tag : Nat), Ready s → tag ≤ 9999 →
    oneNumberRefused s tag .P 8 (fun args => exec (.pgmDelete tag args) s) ∧
    ∀ (t : Tok) (p : ProgId), Tok.fin? .P 8 t = some p →
      (s.pgms[p].ctl.state ≠ .parked → exec (.pgmDelete tag [t]) s = .next (s.erTo tag .state)) ∧
      (s.pgms[p].ctl.state = .parked → ∃ u, exec (.pgmDelete tag [t]) s = .next u ∧
        u = { s with lanes := u.lanes, pgms := s.pgms.set p Pgm.undefined,
                     link := s.link.reply (some tag) (.ok [] []) } ∧
        (∀ k : LaneId, k ∈ s.pgms[p].ctl.lanes → u.lanes[k] = laneSetTo s .main k) ∧
        (∀ k : LaneId, k ∉ s.pgms[p].ctl.lanes → u.lanes[k] = s.lanes[k]))

/-- R47 to R49: PGM MODE and PGM SOURCE of a RUNNING programme write the pending change, which takes an OPEN programme to
WAITING when it is a real change, or to its fade down where the boundary of this house sample has been taken (R50). A PARKED
programme takes the mode at once, and a new source with its change counted and its lanes switched, each OPEN on a port that is
LOCKED or RELOCKING and invalid on any other (R33). An UNDEFINED programme, and a change to BACKUP with a lane that has none,
refuse with STATE, a programme out of range with RANGE, and words that cannot be read with SYNTAX, before RANGE by the model's
reading (log entry 33). That a change written beside a fade down which another change of this sample has begun behind its
boundary joins that change, that one begins its fade at once also where that boundary found the programme FADING_UP and it is
OPEN by now, and that the SRC notice stands before the reply, are the model's (log entries 49 and 17); so are a lane left that
is already on the source, and its word of the house sample in progress (31 and 3). A fade position is 0 while no fade runs, by
the model's choice (log entry 80). A number with a minus sign is read also where it is no signed one, and is then out of range
or clamped, by the model's choice (log entry 85). -/
def Obligations.PgmChangesWaitForBoundary : Prop :=
  ∀ (s : State) (tag : Nat), Ready s → tag ≤ 9999 →
    programmeAndWordRefused s tag (fun y => (Tok.mode? y).isSome) (fun args => exec (.pgmMode tag args) s) ∧
    programmeAndWordRefused s tag (fun y => (Tok.sel? y).isSome) (fun args => exec (.pgmSource tag args) s) ∧
    ∀ (t y : Tok) (p : ProgId), Tok.fin? .P 8 t = some p →
    let c := s.pgms[p].ctl
    (∀ m, Tok.mode? y = some m →
      let go := exec (.pgmMode tag [t, y]) s
      (c.state = .undefined → go = .next (s.erTo tag .state)) ∧
      (c.state = .parked → go = .next ((s.updCtl p fun c => { c with mode := m }).okTo tag [])) ∧
      (c.state = .running →
        go = .next ((s.updCtl p fun c =>
          changeTaken s.boundaryHere { c with pending := { c.pending with mode := some m } }).okTo tag []))) ∧
    (∀ z, Tok.sel? y = some z →
      let go := exec (.pgmSource tag [t, y]) s
      let unbacked := z = .backup ∧ ∃ k ∈ c.lanes, s.lanes[k].backup = none
      (c.state = .undefined ∨ unbacked → go = .next (s.erTo tag .state)) ∧
      (c.state = .running → ¬ unbacked →
        go = .next ((s.updCtl p fun c =>
          changeTaken s.boundaryHere
            { c with pending := { c.pending with source := some (z, .request) } }).okTo tag [])) ∧
      (c.state = .parked → ¬ unbacked → c.active = z → go = .next (s.okTo tag [])) ∧
      (c.state = .parked → ¬ unbacked → c.active ≠ z → ∃ u, go = .next u ∧
        u.pgms[p].ctl = { c with active := z, changeovers := min 65535 (c.changeovers + 1),
                                 lcPgm := u.lcOf c.lanes, pads := u.padsOf c.lanes } ∧
        u.pgms[p] = { s.pgms[p] with ctl := u.pgms[p].ctl, dly := u.pgms[p].dly } ∧
        u.pgms[p].dly = (if u.lcOf c.lanes = c.lcPgm ∧ u.padsOf c.lanes = c.pads then s.pgms[p].dly
          else lengthFormed (u.lcOf c.lanes) s.pgms[p].dly) ∧
        (∀ k : LaneId, k ∈ c.lanes → u.lanes[k] = laneSetTo s z k) ∧
        (∀ k : LaneId, k ∉ c.lanes → u.lanes[k] = s.lanes[k]) ∧
        (∀ q, q ≠ p → u.pgms[q] = s.pgms[q]) ∧
        u = { s with lanes := u.lanes, pgms := u.pgms,
                     link := (s.link.notice (.notice .src
                       [.num p.val, .kw z.kw, .kw .REQUEST, .num (min 65535 (c.changeovers + 1)),
                        .num (u.lcOf c.lanes)])).reply (some tag) (.ok [] []) }))

/-- R54, R65: PGM REVERT sets the revert policy, with a hold clamped into 1..600, and zeroes the revert counter; DLY MOTION
writes the motion mode and nothing else, so a motion in progress runs on as it began. Both refuse a number outside 0..7 with
RANGE and an UNDEFINED programme with STATE; DLY MOTION any other keyword with SYNTAX. MTR RESET of a RUNNING programme
empties its bins and its admission count and makes L_i absent (R96). The order RANGE, STATE, SYNTAX of DLY MOTION is the
model's reading (log entry 33). A number with a minus sign is read also where it is no signed one, and is then out of range or
clamped, by the model's choice (log entry 85). -/
def Obligations.ProgrammeSettingsAreWritten : Prop :=
  ∀ (s : State) (tag : Nat) (t : Tok), Ready s → tag ≤ 9999 →
    (∀ n y h x, Tok.index? .P t = some n → (n < 0 ∨ 7 < n) → Tok.int? h = some x →
      exec (.pgmRevert tag [t, .kw .MANUAL]) s = .next (s.erTo tag .range) ∧
      exec (.pgmRevert tag [t, .kw .AUTO, h]) s = .next (s.erTo tag .range) ∧
      exec (.dlyMotion tag [t, y]) s = .next (s.erTo tag .range)) ∧
    ∀ p : ProgId, Tok.fin? .P 8 t = some p →
      (∀ y h x, s.pgms[p].ctl.state = .undefined → Tok.int? h = some x →
        exec (.pgmRevert tag [t, .kw .MANUAL]) s = .next (s.erTo tag .state) ∧
        exec (.pgmRevert tag [t, .kw .AUTO, h]) s = .next (s.erTo tag .state) ∧
        exec (.dlyMotion tag [t, y]) s = .next (s.erTo tag .state)) ∧
      (s.pgms[p].ctl.state ≠ .undefined →
        exec (.pgmRevert tag [t, .kw .MANUAL]) s =
          .next ((s.updCtl p fun c => { c with revert := none, revertCount := 0 }).okTo tag []) ∧
        (∀ h x, Tok.int? h = some x →
          exec (.pgmRevert tag [t, .kw .AUTO, h]) s =
            .next ((s.updCtl p fun c =>
              { c with revert := some (max 1 (min x 600)).toNat, revertCount := 0 }).okTo tag []
                (if x < 1 ∨ 600 < x then [.clamped] else []))) ∧
        (∀ y m, Tok.motion? y = some m →
          exec (.dlyMotion tag [t, y]) s = .next ((s.updDly p fun d => { d with motionMode := m }).okTo tag [])) ∧
        (∀ y, Tok.motion? y = none → exec (.dlyMotion tag [t, y]) s = .next (s.erTo tag .synErr))) ∧
      let go := exec (.mtrReset tag [t]) s
      (s.pgms[p].ctl.state = .undefined → go = .next (s.erTo tag .state)) ∧
      (s.pgms[p].ctl.state = .parked → go = .next (s.okTo tag [])) ∧
      (s.pgms[p].ctl.state = .running →
        go = .next ((s.updMtr p fun m =>
          { m with bins := Vector.replicate 300 0, admitted := 0, li := none }).okTo tag []))

/-- R51, R56, R76, R116: after the last fade-down word the in-flight change is applied and the fade up begins: a mode part
sets the mode, with the multiplier at unity into DELAY and at m_new into FULL and BYPASS; a source part sets the active
source, switches every lane, counts the changeover, zeroes the revert counter, forms the latency afresh, hands new figures to
the line, cancels the probe on the programme, and sends an SRC notice with its cause. The new pads act from the next house
sample, and every other programme keeps its records but for the pages that come free. Where the fade down is not over the
event does nothing (log entry 1). The multiplier in use in BYPASS is the model's choice (log entry 35), and so are the figures
of a PAGES notice, before the release of its event (log entry 70), the slew count of a slew that its target ends (74), and a
word of the house sample in progress that was fixed before and is dropped (3). These are the model's readings, and no rule's:
that a PAGES notice marked CUT shows the need and D_target as they stand after the cut (log entry 43), and that words which
the house sample in progress still reaches stay where a page is released (log entry 47). The order of the PAGES, PROBE and SRC
notices is that of the rule's list. A fade position is 0 while no fade runs, by the model's choice (log entry 80). -/
def Obligations.ChangeoverAppliesInFlight : Prop :=
  ∀ (s : State) (p : ProgId), s.powered = true →
    let c := s.pgms[p].ctl
    let due := c.state = .running ∧ c.out = .fadingDown ∧ 240 ≤ c.fadePos
    (¬ due → exec (.changeoverSwitch p) s = .next s) ∧
    let entered := fun (m : Mode) (r : Correction) => match m with
      | .delay => { r with multNow := 1048576, rampPos := 4800, restart := false }
      | .bypass => { r with multNow := r.mNew, rampPos := 4800, restart := false }
      | .full => { r with mOld := r.mNew, rampTo := r.mNew, multNow := r.mNew, rampPos := 4800, restart := false }
    (∀ m, due → c.inflight = some { source := none, mode := some m } →
      exec (.changeoverSwitch p) s = .next (s.updPgm p fun g => { g with
        ctl := { g.ctl with mode := m, out := .fadingUp, fadePos := 0 }
        cor := entered m g.cor })) ∧
    (∀ z why mo, due → c.inflight = some { source := some (z, why), mode := mo } →
      ∃ u, exec (.changeoverSwitch p) s = .next u ∧
        u.pgms[p].ctl = { c with mode := mo.getD c.mode, active := z, out := .fadingUp, fadePos := 0,
                                 changeovers := min 65535 (c.changeovers + 1), revertCount := 0,
                                 lcPgm := u.lcOf c.lanes, pads := u.padsOf c.lanes } ∧
        u.pgms[p].mtr = s.pgms[p].mtr ∧ u.pgms[p].dly.padsNow = s.pgms[p].dly.padsNow ∧
        (∀ k : LaneId, k ∈ c.lanes → u.lanes[k] = { laneSwitched s z s.lanes[k] with latch := none }) ∧
        (∀ k : LaneId, k ∉ c.lanes → u.lanes[k] = s.lanes[k]) ∧
        (s.probe.pgm = some p → (s.probe.state = .armed ∨ s.probe.state = .searching) →
          u.probe = { s.probe with state := .cancelled, expiry := none, cancel := some .source }) ∧
        u = { s with lanes := u.lanes, pgms := u.pgms, owners := u.owners, probe := u.probe, link := u.link } ∧
        u.pgms[p].cor = (mo.elim s.pgms[p].cor fun m => entered m s.pgms[p].cor) ∧
        (∀ q, q ≠ p → u.pgms[q].ctl = s.pgms[q].ctl ∧ u.pgms[q].mtr = s.pgms[q].mtr ∧ u.pgms[q].cor = s.pgms[q].cor ∧
          (s.pgms[q].dly.short = false → u.pgms[q] = s.pgms[q])) ∧
        let kept := u.lcOf c.lanes = c.lcPgm ∧ u.padsOf c.lanes = c.pads
        let switched := { s with
          lanes := u.lanes
          pgms := s.pgms.set p { s.pgms[p] with
            ctl := { u.pgms[p].ctl with out := c.out, fadePos := c.fadePos }
            cor := u.pgms[p].cor
            dly := if kept then s.pgms[p].dly else lengthFormed (u.lcOf c.lanes) s.pgms[p].dly } }
        ∃ w : State, (kept → w = switched) ∧ (¬ kept → retargeted switched w p) ∧
          let v := if s.probe.pgm = some p ∧ (s.probe.state = .armed ∨ s.probe.state = .searching) then
              probeNotice { w with probe := u.probe }
            else w
          u = ({ v with link := v.link.notice (.notice .src
              ([.num p.val, .kw z.kw] ++ why.flds ++
                [.num (min 65535 (c.changeovers + 1)), .num (u.lcOf c.lanes)])) } : State).updCtl p
            fun c => { c with out := .fadingUp, fadePos := 0 })

/-! ### Delay lines (04) -/

/-- R63, R64, R68: DLY VIDEO writes V and DLY TRIM writes O, each clamped; T and D_req are formed afresh, and FLOOR is set
where T lies below Lc_pgm. A PARKED programme keeps the rest of its record. The line of a RUNNING one is met when its pages
cover the need, and else is SHORT and cut to what its pages hold; what it is granted, the target it takes by its motion state,
and the pages a line left STILL gives back to the arbiter are those of R68, R69 and R71. An UNDEFINED programme is refused
with STATE, a programme out of range with RANGE, and words that cannot be read with SYNTAX, before RANGE by the model's
reading (log entry 33). These are the model's, and no rule's: that a PAGES notice marked CUT shows the need and D_target as
they stand after the cut (log entry 43), and any other the figures before the release of its event (70); that words which the
house sample in progress still reaches stay where a page is released (47); that a slew its target ends leaves the slew count 0
(74); that every write is taken so, also one that changes no length (63); and that the notices of a request stand before its
reply (17). A number with a minus sign is read also where it is no signed one, and is then out of range or clamped, by the
model's choice (log entry 85). -/
def Obligations.VideoAndTrimFormTarget : Prop :=
  ∀ (s : State) (tag : Nat), Ready s → tag ≤ 9999 →
    programmeAndWordRefused s tag (fun y => (Tok.int? y).isSome) (fun args => exec (.dlyVideo tag args) s) ∧
    programmeAndWordRefused s tag (fun y => (Tok.signed? y).isSome) (fun args => exec (.dlyTrim tag args) s) ∧
    ∀ (t y : Tok) (p : ProgId) (x : Int), Tok.fin? .P 8 t = some p →
    let c := s.pgms[p].ctl
    let d := s.pgms[p].dly
    let good := fun (go : Host.Outcome State Fault Refusal) (v : Nat) (o : Int) (changed : Bool) =>
      let T := (max 0 (min ((v : Int) + o) 384120)).toNat
      let D := min (T - c.lcPgm) 384000
      let floor := decide (T < c.lcPgm)
      let reply := Reply.ok ([.num T, .num D] ++ (if floor then [.kw .FLOOR] else []))
        (if changed = true ∨ (v : Int) + o < 0 ∨ 384120 < (v : Int) + o then [.clamped] else [])
      (c.state = .undefined → go = .next (s.erTo tag .state)) ∧
      (c.state = .parked →
        go = .next ((s.updDly p fun d => { d with v := v, o := o, t := T, dReq := D, floor := floor }).sendReply
          (some tag) reply)) ∧
      (c.state = .running → ∃ u, go = .next u ∧
        u.pgms[p].dly.v = v ∧ u.pgms[p].dly.o = o ∧ u.pgms[p].dly.t = T ∧ u.pgms[p].dly.dReq = D ∧
        u.pgms[p].dly.floor = floor ∧ u.pgms[p].dly.motionMode = d.motionMode ∧
        u.link.fifo.getLast? = some (.reply (some tag) reply) ∧
        (∀ q : ProgId, u.pgms[q].ctl = s.pgms[q].ctl ∧ u.pgms[q].mtr = s.pgms[q].mtr ∧ u.pgms[q].cor = s.pgms[q].cor) ∧
        u = { s with pgms := u.pgms, owners := u.owners, link := u.link } ∧
        (∃ w : State, u = w.sendReply (some tag) reply ∧
          retargeted { s with pgms := s.pgms.set p { s.pgms[p] with dly :=
            { d with v := v, o := o, t := T, dReq := D, floor := floor } } } w p) ∧
        let pad := maxPad c.pads
        let held := s.pagesHeld p
        let need := max 1 ((max d.dApp D + pad + 1023) / 1024)
        let pages := held + min (need - held) (s.freePages / c.lanes.length)
        (need ≤ pages → u.pgms[p].dly.short = false ∧ u.pgms[p].dly.dApp = d.dApp ∧
          (d.motion = .still → u.pgms[p].dly.dTarget = D ∧ u.pgms[p].dly.motion = .still)) ∧
        (pages < need → u.pgms[p].dly.short = true ∧ u.pgms[p].dly.dApp = min d.dApp (pages * 1024 - pad) ∧
          (d.motion = .still → u.pgms[p].dly.dTarget = min D (pages * 1024 - pad) ∧
            u.pgms[p].dly.motion = .still)))
    (Tok.int? y = some x →
      let v := (max 0 (min x 384000)).toNat
      good (exec (.dlyVideo tag [t, y]) s) v d.o (decide ((v : Int) ≠ x))) ∧
    (Tok.signed? y = some x →
      let o := max (-48000) (min x 48000)
      good (exec (.dlyTrim tag [t, y]) s) d.v o (decide (o ≠ x)))

/-- R66: with a history that covers D_app, a lane's line delivers the converter word stored D_app + pad house samples
before; while the history is shorter than D_app it delivers 0. -/
def Obligations.DelayLineDelivers : Prop :=
  ∀ (d : Delay) (pages pad pos n : Nat) (words : List (List Sample)) (w : List Sample) (x present : Sample),
    let d1 := words.foldl (fun d w => d.store pages pad w) d
    (∀ v ∈ words, v.length = d.lines.length) → pos < d.lines.length →
    d.dApp + d.padsNow.getD pos 0 = n → 1 ≤ n → n ≤ pages * 1024 → words.reverse[n - 1]? = some w →
    w[pos]? = some x →
    d1.deliver pos present = if d.dApp ≤ d1.hist then x else 0

/-- R61, R69, R70, R73, R75: SLEW_STEP moves D_app by one toward its target and ends the slew there; JUMP_BOTTOM takes D_app
to its target and starts the fade up; JUMP_FADE_UP_END ends the jump STILL, or starts the motion to the target that waited. A
motion that ends releases the pages its line neither keeps nor needs, and the arbiter serves the waiting programmes from them
in order of number. An end that is not reached does nothing (log entry 1); that the waiting list is the programmes with SHORT
set, and that words the house sample in progress still reaches stay, are the model's readings (log entries 22 and 47), and the
slew count of a slew that the target of a service ends is its choice (log entry 74). A fade position is 0 while no fade runs,
by the model's choice (log entry 80). -/
def Obligations.MotionsEnd : Prop :=
  (∀ s : State, arbiter s = [0, 1, 2, 3, 4, 5, 6, 7].foldl serve s ∧ ∀ p : ProgId, served s (serve s p) p) ∧
  ∀ (s : State) (p : ProgId), s.powered = true →
    let d := s.pgms[p].dly
    let run := s.pgms[p].ctl.state = .running
    let frame := fun (u : State) => u = { s with pgms := u.pgms, owners := u.owners, link := u.link } ∧
      (∀ q : ProgId, u.pgms[q].ctl = s.pgms[q].ctl ∧ u.pgms[q].mtr = s.pgms[q].mtr ∧ u.pgms[q].cor = s.pgms[q].cor) ∧
      ∀ q : ProgId, q ≠ p → u.pgms[q].dly.dApp = s.pgms[q].dly.dApp ∧ u.pgms[q].dly.hist = s.pgms[q].dly.hist
    let app := if d.dApp < d.dTarget then d.dApp + 1 else if d.dTarget < d.dApp then d.dApp - 1 else d.dApp
    (run → d.motion = .slewing → 32 ≤ d.slewCount → app ≠ d.dTarget →
      exec (.slewStep p) s = .next (s.updDly p fun d => { d with slewCount := 0, dApp := app })) ∧
    (run → d.motion = .slewing → 32 ≤ d.slewCount → app = d.dTarget →
      ∃ u, exec (.slewStep p) s = .next u ∧ frame u ∧
        released (s.updDly p fun d => { d with slewCount := 0, dApp := app, motion := .still }) u p ∧
        u.pgms[p].dly.dApp = app ∧
        u.pgms[p].dly.motion = .still ∧ u.pgms[p].dly.slewCount = 0) ∧
    (¬ (run ∧ d.motion = .slewing ∧ 32 ≤ d.slewCount) → exec (.slewStep p) s = .next s) ∧
    (run → d.motion = .fadingDown → 240 ≤ d.jumpPos →
      ∃ u, exec (.jumpBottom p) s = .next u ∧ frame u ∧
        (∃ w : State, released (s.updDly p fun d => { d with dApp := d.dTarget }) w p ∧
          u = w.updDly p fun d => { d with motion := .fadingUp, jumpPos := 0 }) ∧
        u.pgms[p].dly.dApp = d.dTarget ∧
        u.pgms[p].dly.motion = .fadingUp ∧ u.pgms[p].dly.jumpPos = 0) ∧
    (¬ (run ∧ d.motion = .fadingDown ∧ 240 ≤ d.jumpPos) → exec (.jumpBottom p) s = .next s) ∧
    (run → d.motion = .fadingUp → 240 ≤ d.jumpPos → d.pendTarget = none →
      exec (.jumpFadeUpEnd p) s = .next (s.updDly p fun d => { d with motion := .still, jumpPos := 0 })) ∧
    (∀ x, run → d.motion = .fadingUp → 240 ≤ d.jumpPos → d.pendTarget = some x →
      (x = d.dApp → ∃ u, exec (.jumpFadeUpEnd p) s = .next u ∧ frame u ∧
        released (s.updDly p fun d => { d with motion := .still, jumpPos := 0, dTarget := x, pendTarget := none }) u p ∧
        u.pgms[p].dly.dApp = d.dApp ∧
        u.pgms[p].dly.motion = .still ∧ u.pgms[p].dly.jumpPos = 0 ∧ u.pgms[p].dly.pendTarget = none) ∧
      (x ≠ d.dApp →
        let slews := d.motionMode = .slew ∨ d.motionMode = .auto ∧ ((x : Int) - d.dApp).natAbs ≤ 960
        exec (.jumpFadeUpEnd p) s = .next (s.updDly p fun d =>
          { d with dTarget := x, pendTarget := none, jumpPos := 0,
                   motion := if slews then .slewing else .fadingDown,
                   slewCount := if slews then 0 else d.slewCount }))) ∧
    (¬ (run ∧ d.motion = .fadingUp ∧ 240 ≤ d.jumpPos) → exec (.jumpFadeUpEnd p) s = .next s)

/-! ### Meter (05) -/

/-- R3, R86, R88, R95, R98, R109: a close that is due forms the report of every RUNNING programme from its meter and gain,
starts the next sub-block, and leaves the scan due; a programme that is not RUNNING is left with no report. A
close that is not due does nothing (log entry 1), and the number of the close at the wrap of HC is the model's reading
(log entry 45). -/
def Obligations.SubBlockCloseFormsReports : Prop :=
  ∀ s : State, s.powered = true →
    (s.closeDue = false → exec .subBlockClose s = .next s) ∧
    (s.closeDue = true → ∃ t, exec .subBlockClose s = .next t ∧
      t = { s with closeDue := false, scanDue := true, pgms := t.pgms, reports := t.reports } ∧
      (∀ p : ProgId, s.pgms[p].ctl.state ≠ .running → t.pgms[p] = s.pgms[p] ∧ t.reports[p] = none) ∧
      ∀ p : ProgId, s.pgms[p].ctl.state = .running →
        let g := s.pgms[p]
        let m := t.pgms[p].mtr
        let c := t.pgms[p].cor
        let n := if s.hc.toNat < 4800 then 2 ^ 48 / 4800 + 1 else s.hc.toNat / 4800
        let ok := decide (g.mtr.covered = true ∧ g.mtr.laneInvalid = false ∧ g.mtr.bypassSeen = false ∧
          4800 ≤ s.hc.toNat)
        t.pgms[p].ctl = g.ctl ∧ t.pgms[p].dly = g.dly ∧
        t.reports[p] = some
          { number := n, valid := ok, lm := m.lm, ls := m.ls, li := m.li,
            admission := ok && decide (∃ x ∈ m.lm, -7000 ≤ x), corr := m.corr, clip := m.clip,
            preset := g.cor.top, gStar := c.gStar, g := c.g, mNew := c.mNew, hold := c.hold } ∧
        m.lastReport = some (n, ok) ∧ m.filters = g.mtr.filters ∧ m.clip = g.mtr.clip ∧
        m.energies = g.mtr.energies.map (fun _ => 0) ∧ m.sum00 = 0 ∧ m.sum11 = 0 ∧ m.sum01 = 0 ∧
        m.covered = true ∧ (m.bypassSeen = true ↔ g.ctl.mode = .bypass) ∧
        (m.laneInvalid = true ↔ ∃ k ∈ g.ctl.lanes, s.laneValidNow k = false))

/-- R85, R88 to R93: at a close a valid sub-block's energy joins the ring, L_m and L_s are formed once the ring holds 4
and 30 entries, and an L_m of −70.00 or above is counted in its bin with L_i formed afresh. A sub-block that is
not valid leaves the ring, the bins and L_i, and makes L_m, L_s and the correlation absent. `LevelsFollowFormulas` holds
the level, the correlation and L_i to their formulas. -/
def Obligations.CloseMeasuresSubBlock : Prop :=
  ∀ (s t : State) (p : ProgId), s.powered = true → s.closeDue = true → exec .subBlockClose s = .next t →
    s.pgms[p].ctl.state = .running →
    let g := s.pgms[p]
    let old := g.mtr
    let m := t.pgms[p].mtr
    let ok := old.covered = true ∧ old.laneInvalid = false ∧ old.bypassSeen = false ∧ 4800 ≤ s.hc.toNat
    let e := ((List.range old.energies.length).map fun i =>
      channelWeight g.ctl.layout i * old.energies.getD i 0).sum / 4800
    let mean := fun (n : Nat) => if m.ring.length < n then none else
      some (levelOf ((m.ring.drop (m.ring.length - n)).sum / n))
    (¬ ok → m.ring = old.ring ∧ m.bins = old.bins ∧ m.admitted = old.admitted ∧ m.li = old.li ∧
      m.lm = none ∧ m.ls = none ∧ m.corr = .absent) ∧
    (ok →
      m.ring = (if old.ring.length < 30 then old.ring ++ [e] else old.ring.drop 1 ++ [e]) ∧
      m.lm = mean 4 ∧ m.ls = mean 30 ∧
      m.corr = (if 2 ≤ old.energies.length then correlation old.sum00 old.sum11 old.sum01 else .absent) ∧
      ((m.lm = none ∨ ∃ x, m.lm = some x ∧ x < -7000) →
        m.bins = old.bins ∧ m.admitted = old.admitted ∧ m.li = old.li) ∧
      ∀ x, m.lm = some x → -7000 ≤ x →
        let b := min 299 ((x + 7000) / 25).toNat
        m.bins[b]? = (old.bins[b]?).map (fun n => min 4294967295 (n + 1)) ∧
        (∀ j, j ≠ b → m.bins[j]? = old.bins[j]?) ∧
        m.admitted = min 4294967295 (old.admitted + 1) ∧ m.li = integratedLevel m.bins.toList)

/-- 05 sections 5.3 and 5.4 (R90, R92, R93): the level of an energy above 0 is 100 × (−0.691 + 10·log10 E) rounded to the
nearest, −12000 where that lies below −12000, and −12000 for an energy of 0. The correlation is 100 × Σx0x1 / √(Σx0² × Σx1²)
truncated toward zero, and undefined where either square sum is 0. L_i is absent for empty bins, the centre of a bin that
stands alone, with its half rounded away from zero, and else the level of the mean energy of the bins whose centre reaches the
gate. That last is stated to 0.51 and not to the 0.5 of a rounding to the nearest, for bins none of whose centres lies within
a millionth of the gate: nearer cases rest on the model's reading (log entry 28). -/
def Obligations.LevelsFollowFormulas : Prop :=
  let level := fun (E : ℝ) => 100 * (-0.691 + 10 * Real.logb 10 E)
  levelOf 0 = -12000 ∧
  (∀ e : ℚ, 0 < e →
    let L : ℝ := level (e : ℝ)
    (L < -12000 → levelOf e = -12000) ∧ (-12000 ≤ L → |L - (levelOf e : ℝ)| < 1 / 2)) ∧
  (∀ a b c : Int, 0 ≤ a → 0 ≤ b → c ^ 2 ≤ a * b →
    let x : ℝ := 100 * (c : ℝ) / Real.sqrt ((a : ℝ) * b)
    (a = 0 ∨ b = 0 → correlation a b c = .undefined) ∧
    (a ≠ 0 → b ≠ 0 → correlation a b c = .value (if 0 ≤ c then ⌊x⌋ else ⌈x⌉))) ∧
  ∀ bins : List Nat, bins.length = 300 → (∀ n ∈ bins, n < 2 ^ 32) →
    let count := fun (i : Nat) => bins.getD i 0
    let centre := fun (i : Nat) => (-7000 + 25 * i + 12.5 : ℝ)
    let energy := fun (i : Nat) => (10 : ℝ) ^ ((centre i / 100 + 0.691) / 10)
    let meanFrom := fun (least : ℝ) =>
      (∑ i ∈ Finset.range 300, if least ≤ centre i then (count i : ℝ) * energy i else 0) /
        ∑ i ∈ Finset.range 300, if least ≤ centre i then (count i : ℝ) else 0
    let gate := level (meanFrom (centre 0)) - 1000
    ((∀ n ∈ bins, n = 0) → integratedLevel bins = none) ∧
    (∀ i : Nat, i < 300 → 0 < count i → (∀ j : Nat, j ≠ i → count j = 0) →
      integratedLevel bins = some (if 280 ≤ i then 25 * (i : Int) - 6987 else 25 * (i : Int) - 6988)) ∧
    ((∃ n ∈ bins, n ≠ 0) → (∀ i : Nat, i < 300 → 0 < count i → 1 / 10 ^ 6 ≤ |centre i - gate|) →
      ∃ L, integratedLevel bins = some L ∧ |level (meanFrom gate) - (L : ℝ)| < 0.51)

/-! ### Presets and gain (06) -/

/-- R103, R108: PRESET SET writes each named field, clamped or cut to a multiple of 10, and replies with the record; every
defined programme with that preset at the top of its stack takes the change. A number outside 0..15 is refused with RANGE. Of
a field named twice the later value stands, with CLAMPED where either was changed, a number may carry a plus sign, and the
multiplier in use in BYPASS: these are the model's choices (log entries 50, 72 and 35). A number with a minus sign is read
also where it is no signed one, and is then out of range or clamped, by the model's choice (log entry 85). -/
def Obligations.PresetSetWritesFields : Prop :=
  ∀ (s : State) (tag : Nat) (t : Tok) (edits : List (Kw × Tok)), Ready s → tag ≤ 9999 → edits ≠ [] →
    (∀ e ∈ edits, e.1 = .MODE ∧ (Tok.gainMode? e.2).isSome ∨
      e.1 ∈ [Kw.TARGET, .BOOST, .CUT, .ATTACK, .RELEASE, .SILENCE] ∧ (Tok.signed? e.2).isSome) →
    let go := exec (.presetSet tag (t :: edits.flatMap fun e => [.kw e.1, e.2])) s
    let num := fun (e : Kw × Tok) => (Tok.signed? e.2).getD 0
    let kept := fun (e : Kw × Tok) =>
      if e.1 = .TARGET then max (-4000) (min (num e) (-500))
      else if e.1 = .BOOST then max 0 (min (num e) 1200)
      else if e.1 = .CUT then max 0 (min (num e) 3000)
      else if e.1 = .SILENCE then max (-7000) (min (num e) (-2000))
      else max 10 (min (num e) 3000) / 10 * 10
    let put := fun (r : Preset) (e : Kw × Tok) =>
      if e.1 = .MODE then { r with mode := (Tok.gainMode? e.2).getD .off }
      else if e.1 = .TARGET then { r with target := kept e }
      else if e.1 = .BOOST then { r with boost := kept e }
      else if e.1 = .CUT then { r with cut := kept e }
      else if e.1 = .ATTACK then { r with attack := kept e }
      else if e.1 = .RELEASE then { r with release := kept e }
      else { r with silence := kept e }
    (∀ n, Tok.index? .PS t = some n → (n < 0 ∨ 15 < n) → go = .next (s.erTo tag .range)) ∧
    ∀ n : PresetId, Tok.fin? .PS 16 t = some n →
      let r := edits.foldl put s.presets[n]
      ∃ u, go = .next u ∧
        u = { s with presets := s.presets.set n r, pgms := u.pgms,
                     link := s.link.reply (some tag)
                       (.ok [.num r.target, .num r.boost, .num r.cut, .num r.attack, .num r.release,
                             .num r.silence, .kw r.mode.kw]
                         (if ∃ e ∈ edits, e.1 ≠ .MODE ∧ kept e ≠ num e then [.clamped] else [])) } ∧
        ∀ p : ProgId, u.pgms[p] =
          if s.pgms[p].ctl.state ≠ .undefined ∧ s.pgms[p].cor.top = n then
            { s.pgms[p] with cor := presetTaken s.pgms[p].ctl r s.pgms[p].cor }
          else s.pgms[p]

/-- R106, R108: a recall replaces the top of a programme's stack; a push adds to it, and at depth 4 loses the bottom entry and
counts an overflow; each is a preset change, and replies with the depth. A programme or preset out of range is refused with
RANGE, words that cannot be read with SYNTAX, before RANGE by the model's reading (log entry 33), and an UNDEFINED programme
with STATE. The multiplier in use in BYPASS is the model's choice (log entry 35). A number with a minus sign is read also
where it is no signed one, and is then out of range or clamped, by the model's choice (log entry 85). -/
def Obligations.RecallAndPushChangePreset : Prop :=
  ∀ (s : State) (tag : Nat), Ready s → tag ≤ 9999 →
    (let refused := fun (request : Nat → List Tok → Instr) =>
      wordsRefused s tag (fun args => exec (request tag args) s)
        (fun args => ∀ t y, args = [t, y] → Tok.index? .P t = none ∨ Tok.index? .PS y = none)
        (fun args => ∃ t y, args = [t, y] ∧ (Tok.index? .P t).isSome ∧ (Tok.index? .PS y).isSome ∧
          (beyond .P 8 t ∨ beyond .PS 16 y))
     refused .presetRecall ∧ refused .presetPush) ∧
    ∀ (t y : Tok) (p : ProgId) (n : PresetId), Tok.fin? .P 8 t = some p → Tok.fin? .PS 16 y = some n →
    let c := s.pgms[p].cor
    let changed := fun (c1 : Correction) =>
      s.updCor p fun _ => presetTaken s.pgms[p].ctl s.presets[n] c1
    (s.pgms[p].ctl.state = .undefined →
      exec (.presetRecall tag [t, y]) s = .next (s.erTo tag .state) ∧
      exec (.presetPush tag [t, y]) s = .next (s.erTo tag .state)) ∧
    (s.pgms[p].ctl.state ≠ .undefined →
      exec (.presetRecall tag [t, y]) s =
        .next (State.okTo (changed { c with stack := c.stack.dropLast ++ [n] }) tag
          [.num (c.stack.length - 1 + 1 : Nat)]) ∧
      (c.stack.length < 4 →
        exec (.presetPush tag [t, y]) s =
          .next (State.okTo (changed { c with stack := c.stack ++ [n] }) tag [.num (c.stack.length + 1 : Nat)])) ∧
      (c.stack.length = 4 →
        exec (.presetPush tag [t, y]) s =
          .next (State.okTo
            (changed { c with stack := c.stack.drop 1 ++ [n], overflow := min 65535 (c.overflow + 1) }) tag
            [.num 4])))

/-- R107, R159: a pop at depth 2 or more removes the top of the stack and is a preset change; at depth 1 a request is refused
with STATE, while a take entry and a release of BREAK change nothing but the underflow count. A release of a BREAK line
rewritten while it was asserted makes no pop (R159). A programme out of range is refused with RANGE, and words that are no one
programme with SYNTAX. The multiplier in use in BYPASS is the model's choice (log entry 35). A number with a minus sign is
read also where it is no signed one, and is then out of range or clamped, by the model's choice (log entry 85). -/
def Obligations.PopReturnsToPreset : Prop :=
  ∀ (s : State) (tag : Nat), Ready s → tag ≤ 9999 →
    oneNumberRefused s tag .P 8 (fun args => exec (.presetPop tag args) s) ∧
    ∀ (t : Tok) (p : ProgId), Tok.fin? .P 8 t = some p →
    let c := s.pgms[p].cor
    let popped := s.updCor p fun _ =>
      presetTaken s.pgms[p].ctl s.presets[c.stack.dropLast.getLastD 0] { c with stack := c.stack.dropLast }
    (s.pgms[p].ctl.state = .undefined ∨ c.stack.length < 2 →
      exec (.presetPop tag [t]) s = .next (s.erTo tag .state)) ∧
    (s.pgms[p].ctl.state ≠ .undefined → 2 ≤ c.stack.length →
      exec (.presetPop tag [t]) s = .next (popped.okTo tag [.num (c.stack.length - 1 : Nat)]) ∧
      applyAction (.pop p) s = (popped, .done)) ∧
    (s.pgms[p].ctl.state ≠ .undefined → c.stack.length < 2 →
      applyAction (.pop p) s =
        (s.updCor p fun c => { c with underflow := min 65535 (c.underflow + 1) }, .state)) ∧
    (∀ (l : LineId) (h : HouseCount) (n : PresetId) (g : Gpi), s.gpis[l] = g → g.cfg.func = .brk [p] n →
      s.pgms[p].ctl.state ≠ .undefined →
      runFunction { line := l, level := false, stamp := h } s =
        if g.rewritten = true then s
        else if 2 ≤ c.stack.length then popped
        else s.updCor p fun c => { c with underflow := min 65535 (c.underflow + 1) })

/-- R113, R115: the multiplier of an applied gain is 10^(G/2000) × 2^20, rounded to the nearest integer with halves up;
the gain stage multiplies a word by a multiplier, divides by 2^20, rounds with halves toward +∞ and saturates, and
a word counts as clipped exactly when saturation changed it. -/
def Obligations.GainArithmeticIsExact : Prop :=
  (∀ g : Int, (multiplierOf g : Int) = ⌊(10 : ℝ) ^ ((g : ℝ) / 2000) * 2 ^ 20 + 1 / 2⌋) ∧
  ∀ (m : Nat) (w : Sample),
    let x : Int := ⌊((w.toInt : ℚ) * m) / 2 ^ 20 + 1 / 2⌋
    (gainWord m w).1.toInt = max (-8388608) (min x 8388607) ∧
    ((gainWord m w).2 = true ↔ x < -8388608 ∨ 8388607 < x)

/-- R30, R31, R34, R35, R44, R66, R67, R73 to R76, R83, R84, R86, R87, R114, R115, R122: the word of a lane at a house
sample is 0 while the lane is invalid; on a 48k port at a ratio of exactly 1,048,576 it is the input word 64 frames
before the read position behind any slip, through the lane's fade-in; and of a high-rate signal that alternates between
two words, which holds nothing but its mean below 24 kHz, it is the mean to the nearest word on either side. An output
channel of a RUNNING programme carries the converter word in BYPASS, the delayed word in DELAY, and the delayed word at
the multiplier in use in FULL, each through the output fade; a delayed word passes the line's jump fade. The words join
the line, the probe and the meter, which runs its filters on them, adds to its sums and notes an invalid lane and
BYPASS; and the counts of fades, ramps and motions go on by one position. That a fade whose end is owed stays at its last
position, that a word fixed earlier in the sample stands, what the converter makes of a signal that repeats, that the read
position of a 48k lane lies 64 frames back, and where a restarted ramp begins, are the model's (log entries 4, 3, 6, 7
and 32). -/
def Obligations.HouseSampleRunsAudioPath : Prop :=
  let up := fun (j : Nat) (w : Sample) => BitVec.ofInt 24 (Int.tdiv (w.toInt * (min j 239 + 1 : Nat)) 240)
  let down := fun (j : Nat) (w : Sample) => BitVec.ofInt 24 (Int.tdiv (w.toInt * (239 - min j 239 : Nat)) 240)
  (∀ (s : State) (k : LaneId),
    let l := s.lanes[k]
    let word := (formLanesOf allLanes s).laneWord k
    (∀ w v, l.latch = some (w, v) → word = w) ∧
    (l.latch = none → l.valid = false ∨ l.source = none → word = 0) ∧
    ∀ x, l.latch = none → l.valid = true → l.source = some x →
      let q := s.ports[x.port]
      let depth : Rat := q.frameNo - l.readPos
      let pos : Rat := if 48 < depth ∨ depth < 16 then q.frameNo - (32 + (depth - depth.floor)) else l.readPos
      let faded := fun (w : Sample) => if l.fade = .fadingIn then up l.fadePos w else w
      (∀ f : Frame, q.cls = some .k48 → q.ratio = some 1048576 →
        q.recent[((q.frameNo : Int) - (pos - 64).floor).toNat]? = some f → word = faded f[x.chan]) ∧
      (∀ w, q.recent ≠ [] → (∀ f ∈ q.recent, f[x.chan] = w) → word = faded w) ∧
      ∀ a b : Sample, (q.cls = some .k882 ∨ q.cls = some .k96) → (∃ r, q.ratio = some r ∧ r < 1048576) →
        4 ≤ q.recent.length →
        (∀ (i : Nat) (f : Frame), q.recent[i]? = some f → f[x.chan] = if i % 2 = 0 then a else b) →
        ∃ m : Sample, word = faded m ∧ (2 * m.toInt - (a.toInt + b.toInt)).natAbs ≤ 1) ∧
  ∀ (s : State) (p : ProgId) (i : Nat) (k : LaneId), s.powered = true →
    let g := s.pgms[p]
    let words := g.ctl.lanes.map fun k => (formLanesOf allLanes s).laneWord k
    g.ctl.state = .running → g.ctl.lanes.Nodup → g.ctl.lanes[i]? = some k → s.lanes[k].outLatch = none →
    (∀ q : ProgId, q ≠ p → s.pgms[q].ctl.state = .running → k ∉ s.pgms[q].ctl.lanes) →
    let late := fun (j : Nat) =>
      let w := g.dly.deliver j (words.getD j 0)
      match g.dly.motion with
      | .fadingDown => down g.dly.jumpPos w
      | .fadingUp => up g.dly.jumpPos w
      | _ => w
    let M := (if g.cor.rampPos < 4800 then
      (g.cor.mOld : Int) + Int.tdiv (((g.cor.rampTo : Int) - g.cor.mOld) * (g.cor.rampPos + 1)) 4800
      else (g.cor.rampTo : Int)).toNat
    let made := match g.ctl.mode with
      | .full => (gainWord M (late i)).1
      | .delay => late i
      | .bypass => words.getD i 0
    ∃ t, exec .houseSample s = .next t ∧
      t.pins.out[k] = (if g.ctl.fadeHold then 0 else match g.ctl.out with
        | .opened | .waiting => made
        | .fadingUp => up g.ctl.fadePos made
        | .fadingDown => down g.ctl.fadePos made
        | .silent => 0) ∧
      t.pgms[p].ctl = (if g.ctl.fadeHold then { g.ctl with fadeHold := false }
        else if g.ctl.out = .fadingUp ∨ g.ctl.out = .fadingDown then
          { g.ctl with fadePos := min 240 (g.ctl.fadePos + 1) }
        else g.ctl) ∧
      t.pgms[p].dly = { g.dly with
        lines := List.zipWith (fun line w => (w :: line).take (s.pagesHeld p * 1024)) g.dly.lines words
        hist := if g.dly.hist < s.pagesHeld p * 1024 - maxPad g.ctl.pads then g.dly.hist + 1 else g.dly.hist
        slewCount := if g.dly.motion = .slewing then min 32 (g.dly.slewCount + 1) else g.dly.slewCount
        jumpPos := if g.dly.motion = .fadingDown ∨ g.dly.motion = .fadingUp then min 240 (g.dly.jumpPos + 1)
          else g.dly.jumpPos
        padsNow := g.ctl.pads } ∧
      (g.ctl.mode = .full →
        t.pgms[p].mtr.clip = min 65535 (g.mtr.clip +
          (List.range words.length).countP fun j => (gainWord M (late j)).2) ∧
        t.pgms[p].cor.multNow = M ∧ t.pgms[p].cor.g = g.cor.g ∧ t.pgms[p].cor.mNew = g.cor.mNew ∧
        (g.cor.restart = false → t.pgms[p].cor.rampPos = min 4800 (g.cor.rampPos + 1) ∧
          t.pgms[p].cor.mOld = g.cor.mOld ∧ t.pgms[p].cor.rampTo = g.cor.rampTo) ∧
        (g.cor.restart = true → t.pgms[p].cor.rampPos = 0 ∧ t.pgms[p].cor.mOld = M ∧
          t.pgms[p].cor.rampTo = g.cor.mNew)) ∧
      (g.ctl.mode ≠ .full → t.pgms[p].cor = g.cor ∧ t.pgms[p].mtr.clip = min 65535 g.mtr.clip) ∧
      (let run := fun (f : Filter) (w : Sample) =>
        let x : ℚ := (w.toInt : ℚ) / 2 ^ 23
        let u := 1.53512485958697 * x - 2.69169618940638 * f.x1 + 1.19839281085285 * f.x2
          + 1.69065929318241 * f.u1 - 0.73248077421585 * f.u2
        let y := u - 2 * f.u1 + f.u2 + 1.99004745483398 * f.y1 - 0.99007225036621 * f.y2
        ({ x1 := x, x2 := f.x1, u1 := u, u2 := f.u1, y1 := y, y2 := f.y1 } : Filter)
       let filters := List.zipWith run g.mtr.filters words
       let added := fun (sum : Int) (i j : Nat) =>
        if 2 ≤ words.length then sum + (words.getD i 0).toInt * (words.getD j 0).toInt else sum
       t.pgms[p].mtr = { g.mtr with
        filters := filters
        energies := List.zipWith (fun e f => e + f.y1 ^ 2) g.mtr.energies filters
        sum00 := added g.mtr.sum00 0 0, sum11 := added g.mtr.sum11 1 1, sum01 := added g.mtr.sum01 0 1
        laneInvalid := g.mtr.laneInvalid || g.ctl.lanes.any fun k => match s.lanes[k].latch with
          | some v => !v.2
          | none => !(s.lanes[k].valid && s.lanes[k].source.isSome)
        bypassSeen := g.mtr.bypassSeen || decide (g.ctl.mode = .bypass)
        clip := t.pgms[p].mtr.clip }) ∧
      ∀ w rest, words = w :: rest → s.probe.pgm = some p →
        (s.probe.state = .armed ∨
          s.probe.state = .searching ∧ (s.hc - s.probe.t.getD s.hc).toNat ≤ s.probe.w) →
        t.probe = { s.probe with ring := (w :: s.probe.ring).take 24000 }

/-- R109 to R112, R114: at a close a RUNNING programme in FULL takes the first hold cause that is true, and with none
forms the desired gain from its levels, moves the applied gain toward it by the tenth of a second its rate
allows, and restarts the ramp; a hold changes nothing but its cause, and so does another process mode. -/
def Obligations.GainStepsAtClose : Prop :=
  ∀ (s t : State) (p : ProgId), s.powered = true → s.closeDue = true → exec .subBlockClose s = .next t →
    s.pgms[p].ctl.state = .running →
    let c := s.pgms[p].cor
    let r := s.presets[c.top]
    let m := t.pgms[p].mtr
    let level := if r.mode = .short then m.ls else m.li
    let absent := r.mode ≠ .off ∧ level = none
    let silent := ∀ x, m.lm = some x → x < r.silence
    let frozen := ∃ n : PointId, s.points[n].cfg.action = .freeze ∧ s.points[n].cfg.subject = .pgm p ∧
      (s.points[n].state = .active ∨ s.points[n].state = .forced)
    let held := ∃ (l : LineId) (ps : List ProgId), s.gpis[l].cfg.func = .hold ps ∧ p ∈ ps ∧ s.gpis[l].level = true
    let go := t.pgms[p].cor
    let want := max (-r.cut) (min (if r.mode = .off then 0 else r.target - level.getD 0) r.boost)
    let next := if want < c.g then max want (c.g - r.attack / 10)
      else if c.g < want then min want (c.g + r.release / 10) else c.g
    let made := if next = c.g then c.mNew else multiplierOf next
    (s.pgms[p].ctl.mode ≠ .full → go = { c with hold := .mode }) ∧
    (s.pgms[p].ctl.mode = .full →
      (absent → go = { c with hold := .absent }) ∧
      (¬ absent → silent → go = { c with hold := .silence }) ∧
      (¬ absent → ¬ silent → frozen → go = { c with hold := .freeze }) ∧
      (¬ absent → ¬ silent → ¬ frozen → held → go = { c with hold := .hold }) ∧
      (¬ absent → ¬ silent → ¬ frozen → ¬ held →
        go = { c with gStar := want, g := next, mNew := made, mOld := c.multNow, rampTo := made, rampPos := 0,
                      restart := false, hold := .nothing }))

/-! ### The probe (07) -/

/-- R121: PRB ARM of an idle probe on a RUNNING programme clamps W, the threshold and the timeout, discards the previous
results, and arms the probe at the present house sample with its timeout expiry. Nothing else changes. A programme or line out
of range is refused with RANGE; behind that a missing word, one that cannot be read or a last word other than TRIM with
SYNTAX, a probe at work with BUSY, and a programme that is not RUNNING with STATE. A number with a minus sign is read also
where it is no signed one, and is then out of range or clamped, by the model's choice (log entry 85). -/
def Obligations.ProbeArms : Prop :=
  ∀ (s : State) (tag : Nat), Ready s → tag ≤ 9999 →
    (let outside := fun (args : List Tok) =>
      (∃ t, args[0]? = some t ∧ beyond .P 8 t) ∨ ∃ l, args[1]? = some l ∧ beyond .G 8 l
     wordsRefused s tag (fun args => exec (.prbArm tag args) s)
      (fun args => ¬ outside args ∧ ∀ t l w th tm,
        args = [t, l, w, th, tm] ∨ args = [t, l, w, th, tm, .kw .TRIM] →
        Tok.index? .P t = none ∨ Tok.index? .G l = none ∨ Tok.int? w = none ∨ Tok.signed? th = none ∨
          Tok.int? tm = none) outside) ∧
    ∀ (t l w th tm : Tok) (p : ProgId) (line : LineId) (W A T : Int),
    Tok.fin? .P 8 t = some p → Tok.fin? .G 8 l = some line → Tok.int? w = some W → Tok.signed? th = some A →
    Tok.int? tm = some T →
    ∀ (args : List Tok) (trim : Bool),
      (args = [t, l, w, th, tm] ∧ trim = false ∨ args = [t, l, w, th, tm, .kw .TRIM] ∧ trim = true) →
      let busy := s.probe.state = .armed ∨ s.probe.state = .searching
      let W1 := (max 480 (min W 24000)).toNat
      let A1 := max (-6000) (min A (-1000))
      let T1 := (max 1 (min T 600)).toNat
      (busy → exec (.prbArm tag args) s = .next (s.erTo tag .busy)) ∧
      (¬ busy → s.pgms[p].ctl.state ≠ .running → exec (.prbArm tag args) s = .next (s.erTo tag .state)) ∧
      (¬ busy → s.pgms[p].ctl.state = .running →
        exec (.prbArm tag args) s =
          .next (State.okTo
            { s with probe :=
                { state := .armed, pgm := some p, marker := some line, w := W1, threshold := A1, timeout := T1,
                  trim := trim, armAt := some s.hc, expiry := some (s.hc + BitVec.ofNat 48 (48000 * T1)),
                  ring := [], t := none, region := none, windows := 0, quiet := 0, onsets := [], seen := 0,
                  cancel := none, trimWritten := none } }
            tag [.num W1, .num A1, .num T1]
            (if (W1 : Int) ≠ W ∨ A1 ≠ A ∨ (T1 : Int) ≠ T then [.clamped] else [])))

/-- R123, R127, R128, R130: a change of the marker line to asserted, delivered at house sample d with timestamp t while the
probe is ARMED, fixes the region start at the latest of t − W, the arm sample and d − 24,000. While t + W lies at or after d
the search goes on, with the whole windows that the ring holds examined at once. Otherwise it ends at the marker, with every
window of the region examined, or none where the region is empty, and `searchEnded` says what its end makes of the part: the
notice, and of a DONE with TRIM the trim and the line. Any other change is ignored. What the line of a trim takes rests on the
model's readings: the need of a PAGES notice after a cut (log entry 43), the words kept at a release (47), the figures before
the release of an event (70), and the slew count of a slew that its target ends (74). The notice writes the programme as its
number alone, by the model's choice (log entry 81). -/
def Obligations.MarkerFixesRegion : Prop :=
  ∀ (s : State) (l : LineId) (t a : HouseCount),
    let p := s.probe
    let u := probeMarker l t s
    let d := s.hc
    let past := (d - t).toNat
    let back := min (min (past + p.w) (d - a).toNat) 24000
    let marked := { p with
      state := ProbeState.searching, t := some t, region := some (d - BitVec.ofNat 48 back), expiry := none }
    (¬ (p.state = .armed ∧ p.marker = some l) → u = s) ∧
    (p.state = .armed → p.marker = some l → p.armAt = some a →
      u.probe.t = some t ∧ u.probe.region = some (d - BitVec.ofNat 48 back) ∧ u.probe.expiry = none ∧
      (past ≤ p.w → u.probe.state = .searching ∧ u = { s with probe := marked.examineHeld d }) ∧
      (p.w < past → u.probe.state = (if u.probe.onsets = [] then .noOnset else .done) ∧
        searchEnded s u (if back + p.w < past then marked else marked.examineHeld d (past - (p.w + 1)))))

/-- R125, R126: when the 48 words of the next window have been taken, ENVELOPE_WINDOW judges it loud or quiet by the
mean square of its words; a loud window behind ten quiet ones is an onset, recorded while the list holds fewer
than four. A window not yet whole does nothing (log entry 1). -/
def Obligations.EnvelopeWindowJudges : Prop :=
  ∀ (s : State) (r t : HouseCount), s.powered = true → s.probe.region = some r → s.probe.t = some t →
    let p := s.probe
    let taken := min (s.hc - r).toNat ((t + BitVec.ofNat 48 p.w - r).toNat + 1)
    let stop := 48 * (p.windows + 1)
    let words := ((p.ring.drop (taken - stop)).take 48).reverse
    let loud := isLoud (words.map fun w => w.toInt.natAbs ^ 2).sum p.threshold
    let u := { p with windows := p.windows + 1, quiet := if loud then 0 else p.quiet + 1,
                      onsets := p.onsets.map fun o => o.extend words }
    (¬ (p.state = .searching ∧ stop ≤ taken) → exec .envelopeWindow s = .next s) ∧
    (p.state = .searching → stop ≤ taken → ¬ (loud = true ∧ 10 ≤ p.quiet) →
      exec .envelopeWindow s = .next { s with probe := u }) ∧
    (p.state = .searching → stop ≤ taken → loud = true → 10 ≤ p.quiet → 4 ≤ p.onsets.length →
      exec .envelopeWindow s = .next { s with probe := { u with seen := p.seen + 1 } }) ∧
    (∀ i w, p.state = .searching → stop ≤ taken → loud = true → 10 ≤ p.quiet → p.onsets.length < 4 →
      words.findIdx? (fun w => reachesThreshold w p.threshold) = some i → words.head? = some w →
      exec .envelopeWindow s =
        .next { s with probe :=
          { u with seen := p.seen + 1,
                   onsets := u.onsets ++ [{ location := (r - t).toInt + 48 * p.windows + i,
                                            peak := greatest w words, left := 4 }] } })

/-- R125, R126: a window is loud exactly when its mean square is at or above the square of 2^23 × 10^(threshold/2000), a
word reaches the threshold exactly when its magnitude does, and the level of a word other than 0 is
2000 × log10(|word| / 2^23) rounded to the nearest. -/
def Obligations.ProbeLevelsAreExact : Prop :=
  ∀ th : Int,
    let A : ℝ := 2 ^ 23 * (10 : ℝ) ^ ((th : ℝ) / 2000)
    (∀ n : Nat, isLoud n th = true ↔ A ^ 2 ≤ (n : ℝ) / 48) ∧
    (∀ w : Sample, reachesThreshold w th = true ↔ A ≤ (w.toInt.natAbs : ℝ)) ∧
    ∀ w : Sample, w ≠ 0 →
      |2000 * Real.logb 10 ((w.toInt.natAbs : ℝ) / 2 ^ 23) - (peakLevel w : ℝ)| ≤ 1 / 2

/-- R124, R127 to R130: the search completes DONE when it found an onset and NO_ONSET when it found none, with the windows the
ring holds examined. A DONE with TRIM writes −m as the trim exactly as DLY TRIM does: O, T, D_req and FLOOR of its programme,
and the line of a RUNNING one, as `searchEnded` and `retargeted` say; no gain, meter or controller record changes. The timeout
expiry ends an ARMED probe in TIMEOUT, and PRB CANCEL a working probe in CANCELLED with cause REQUEST. Each sends a PROBE
notice, of a DONE with TRIM behind nothing but PAGES notices. PRB CANCEL with a word behind it is refused with SYNTAX. An end
that is not reached does nothing (log entry 1), and the notice stands before the reply of PRB CANCEL (17). What the line of a
trim takes rests on the model's readings: the need of a PAGES notice after a cut (43), the words kept at a release (47), the
figures before the release of an event (70), and the slew count of a slew that its target ends (74). The notice writes the
programme as its number alone, by the model's choice (log entry 81). -/
def Obligations.ProbeEnds : Prop :=
  ∀ (s : State) (tag : Nat), Ready s → tag ≤ 9999 →
    let p := s.probe
    let due := p.state = .searching ∧ p.w < (s.hc - p.t.getD s.hc).toNat
    (∀ x words, exec (.prbCancel tag (x :: words)) s = .next (s.erTo tag .synErr)) ∧
    (¬ due → exec .probeSearchComplete s = .next s) ∧
    (due → ∃ u, exec .probeSearchComplete s = .next u ∧ searchEnded s u (p.examineHeld s.hc) ∧
      u.probe.state = (if u.probe.onsets = [] then .noOnset else .done) ∧
      (∀ q : ProgId, u.pgms[q].ctl = s.pgms[q].ctl ∧ u.pgms[q].mtr = s.pgms[q].mtr ∧
        u.pgms[q].cor = s.pgms[q].cor ∧ u.pgms[q].dly.v = s.pgms[q].dly.v ∧
        (some q ≠ p.pgm → u.pgms[q].dly.o = s.pgms[q].dly.o)) ∧
      u = { s with pgms := u.pgms, owners := u.owners, probe := u.probe, link := u.link }) ∧
    (∀ e, p.state = .armed → p.expiry = some e → (s.hc - e).toNat < 2 ^ 47 →
      exec .probeTimeout s =
        .next (probeNotice { s with probe := { p with state := .timeout, expiry := none } })) ∧
    (¬ (p.state = .armed ∧ ∃ e, p.expiry = some e ∧ (s.hc - e).toNat < 2 ^ 47) →
      exec .probeTimeout s = .next s) ∧
    (∀ q, p.state = .armed ∨ p.state = .searching → p.pgm = some q →
      exec (.prbCancel tag []) s =
        .next ((probeNotice { s with probe :=
          { p with state := .cancelled, expiry := none, cancel := some .request } }).okTo tag [])) ∧
    (p.state ≠ .armed → p.state ≠ .searching → exec (.prbCancel tag []) s = .next (s.erTo tag .state))

/-! ### Alarm points (08) -/

/-- R132, R134: ALM SET reads its fields keyword by keyword onto the record the point holds, and writes a sound one with its
numbers clamped, enables the point and returns it to CLEAR with its counts at 0; a point that was up loses its contribution
and sends an EDITED notice. A point, subject, slot or output out of range is refused with RANGE, before any other word is
judged; an unknown keyword, one without a value, a value that cannot be read, and a record without a measure, with a subject
of another kind than its measure needs, or with CHANGEOVER or FREEZE and no programme, with SYNTAX. The notice carries the
record as written and stands before the reply (log entries 40 and 17), with scan number 0 where no scan has been taken (86);
the reply carries the fields of the configuration alone (76); of a field named twice the later value stands, and a number may
carry a plus or a minus sign (52, 72 and 85). That the last scan stays, and that the subject of no programme and no port is the
word NONE, are its choices (83 and 82), and so is where a request with two faults finds the one for RANGE (33). -/
def Obligations.AlmSetWritesPoint : Prop :=
  (∀ (d : PointDraft) (x : Tok) (rest : List Tok),
    let set := fun (c : PointCfg) => PointDraft.fields { d with cfg := c } rest
    let c := d.cfg
    d.fields [] = some d ∧
    (∀ m : Measure, d.fields (.kw .MEASURE :: .kw m.kw :: rest) = set { c with measure := some m }) ∧
    ((∀ m : Measure, x ≠ .kw m.kw) → d.fields (.kw .MEASURE :: x :: rest) = none) ∧
    d.fields (.kw .SUBJECT :: .kw .NONE :: rest) = set { c with subject := .nothing } ∧
    (∀ p : ProgId, d.fields (.kw .SUBJECT :: .name .P p.val :: rest) = set { c with subject := .pgm p }) ∧
    (∀ i : PortId, d.fields (.kw .SUBJECT :: .name .IN i.val :: rest) = set { c with subject := .port i }) ∧
    (x ≠ .kw .NONE → (∀ p : ProgId, x ≠ .name .P p.val) → (∀ i : PortId, x ≠ .name .IN i.val) →
      d.fields (.kw .SUBJECT :: x :: rest) = none) ∧
    (∀ y : Sense, d.fields (.kw .SENSE :: .kw y.kw :: rest) = set { c with sense := y }) ∧
    (x ≠ .kw .ABOVE → x ≠ .kw .BELOW → d.fields (.kw .SENSE :: x :: rest) = none) ∧
    d.fields (.kw .NOTIFY :: .kw .ON :: rest) = set { c with notify := true } ∧
    d.fields (.kw .NOTIFY :: .kw .OFF :: rest) = set { c with notify := false } ∧
    (x ≠ .kw .ON → x ≠ .kw .OFF → d.fields (.kw .NOTIFY :: x :: rest) = none) ∧
    (∀ ls, (Tok.items? .Q x).bind (asFins 8) = some ls →
      d.fields (.kw .GPO :: x :: rest) = set { c with gpo := allLines.filter (· ∈ ls) }) ∧
    ((Tok.items? .Q x).bind (asFins 8) = none → d.fields (.kw .GPO :: x :: rest) = none) ∧
    (∀ n, Tok.signed? x = some n →
      d.fields (.kw .THRESHOLD :: x :: rest) = PointDraft.fields { d with threshold := n } rest ∧
      d.fields (.kw .HYST :: x :: rest) = PointDraft.fields { d with hyst := n } rest ∧
      d.fields (.kw .STRIDE :: x :: rest) = PointDraft.fields { d with stride := n } rest ∧
      d.fields (.kw .PHASE :: x :: rest) = PointDraft.fields { d with phase := n } rest ∧
      d.fields (.kw .RAISE :: x :: rest) = PointDraft.fields { d with raise := n } rest ∧
      d.fields (.kw .CLEAR :: x :: rest) = PointDraft.fields { d with clear := n } rest) ∧
    (∀ k ∈ [Kw.THRESHOLD, .HYST, .STRIDE, .PHASE, .RAISE, .CLEAR], Tok.signed? x = none →
      d.fields (.kw k :: x :: rest) = none) ∧
    d.fields (.kw .ACTION :: .kw .NONE :: rest) = set { c with action := .nothing } ∧
    d.fields (.kw .ACTION :: .kw .CHANGEOVER :: rest) = set { c with action := .changeover } ∧
    d.fields (.kw .ACTION :: .kw .FREEZE :: rest) = set { c with action := .freeze } ∧
    (∀ a, Tok.fin? .C 2 x = some a →
      d.fields (.kw .ACTION :: .kw .CAPTURE :: x :: rest) = set { c with action := .capture a }) ∧
    (Tok.fin? .C 2 x = none → d.fields (.kw .ACTION :: .kw .CAPTURE :: x :: rest) = none) ∧
    (x ∉ [Kw.NONE, .CHANGEOVER, .FREEZE, .CAPTURE].map Tok.kw → d.fields (.kw .ACTION :: x :: rest) = none) ∧
    d.fields [.kw .ACTION, .kw .CAPTURE] = none ∧
    (∀ k, d.fields [.kw k] = none) ∧
    (x ∉ [Kw.MEASURE, .SUBJECT, .SENSE, .NOTIFY, .GPO, .THRESHOLD, .HYST, .STRIDE, .PHASE, .RAISE, .CLEAR,
        .ACTION].map Tok.kw → d.fields (x :: rest) = none) ∧
    almOutside [] = false ∧
    (∀ k, almOutside [.kw k] = false) ∧
    (almOutside (.kw .SUBJECT :: x :: rest) = true ↔
      (∃ n, x = .name .P n ∧ (n < 0 ∨ 7 < n)) ∨ (∃ n, x = .name .IN n ∧ (n < 0 ∨ 5 < n)) ∨ almOutside rest = true) ∧
    (almOutside (.kw .GPO :: x :: rest) = true ↔
      (∃ ns, Tok.items? .Q x = some ns ∧ ∃ n ∈ ns, n < 0 ∨ 7 < n) ∨ almOutside rest = true) ∧
    (almOutside (.kw .CAPTURE :: x :: rest) = true ↔ beyond .C 2 x ∨ almOutside rest = true) ∧
    (x ∉ [Kw.SUBJECT, .GPO, .CAPTURE].map Tok.kw → almOutside (x :: rest) = almOutside rest)) ∧
  ∀ (s : State) (tag : Nat), Ready s → tag ≤ 9999 →
    exec (.almSet tag []) s = .next (s.erTo tag .synErr) ∧
    ∀ (t : Tok) (args : List Tok),
      let go := exec (.almSet tag (t :: args)) s
      (beyond .A 48 t ∨ almOutside args = true → go = .next (s.erTo tag .range)) ∧
      (Tok.index? .A t = none → almOutside args = false → go = .next (s.erTo tag .synErr)) ∧
      ∀ n : PointId, Tok.fin? .A 48 t = some n → almOutside args = false →
        let x := s.points[n]
        let held : PointDraft :=
          { cfg := x.cfg, threshold := x.cfg.threshold, hyst := x.cfg.hyst, stride := x.cfg.stride, phase := x.cfg.phase
            raise := x.cfg.raise, clear := x.cfg.clear }
        (held.fields args = none → go = .next (s.erTo tag .synErr)) ∧
        ∀ d : PointDraft, held.fields args = some d →
          let pgm := ∃ p, d.cfg.subject = .pgm p
          let sound :=
            (∃ m, d.cfg.measure = some m ∧
              ((m = .ref ∨ m = .watch) ∧ d.cfg.subject = .nothing ∨ m = .portlock ∧ (∃ i, d.cfg.subject = .port i) ∨
                m ∈ [Measure.silent, .loud, .drift, .clip, .phase, .pgmlock, .short, .gainlim] ∧ pgm)) ∧
            (d.cfg.action = .changeover ∨ d.cfg.action = .freeze → pgm)
          let limits : Option (Int × Int) := match d.cfg.measure with
            | some .silent | some .loud => some (-12000, 1000)
            | some .drift => some (0, 12000)
            | some .clip => some (0, 65535)
            | some .phase => some (-100, 100)
            | _ => none
          let S := max 1 (min d.stride 16)
          let P := max 0 (min d.phase (S - 1))
          let N := max 1 (min d.raise 50)
          let M := max 1 (min d.clear 50)
          let c0 := { d.cfg with enabled := true, stride := S.toNat, phase := P.toNat, raise := N.toNat,
                                 clear := M.toNat }
          let moved := S ≠ d.stride ∨ P ≠ d.phase ∨ N ≠ d.raise ∨ M ≠ d.clear
          (¬ sound → go = .next (s.erTo tag .synErr)) ∧
          ∀ (c : PointCfg) (clamped : Bool), sound →
            ((∃ lo hi, limits = some (lo, hi) ∧
                c = { c0 with threshold := max lo (min d.threshold hi), hyst := max 0 (min d.hyst 2000) } ∧
                (clamped = true ↔ moved ∨ c.threshold ≠ d.threshold ∨ c.hyst ≠ d.hyst)) ∨
              (limits = none ∧
                c = { c0 with sense := .above, threshold := 0, hyst := 0 } ∧ (clamped = true ↔ moved))) →
            ∃ u flags, go = .next u ∧ (flags = if clamped then [RFlag.clamped] else []) ∧
              u = { s with gpos := u.gpos, link := u.link,
                           points := s.points.set n { x with
                             cfg := c, state := .clear, run := 0, activations := 0, skips := 0,
                             clipReading := none, lastValue := none } } ∧
              u.link.fifo.getLast? = some (.reply (some tag) (.ok (pointShown c) flags)) ∧
              (¬ (x.state = .active ∨ x.state = .clearing ∨ x.state = .forced) →
                u.gpos = s.gpos ∧ u.link = s.link.reply (some tag) (.ok (pointShown c) flags)) ∧
              ((x.state = .active ∨ x.state = .clearing ∨ x.state = .forced) →
                contributionMoved s u n x.cfg.gpo false ∧
                u.link = ((almNotice n .EDITED true { s with points := u.points }).link.reply (some tag)
                  (.ok (pointShown c) flags)))

/-- R133, R146: ALM OFF takes a point out of service and keeps its configuration, latched flag and counts; a point that was up
loses its contribution and sends an OFF notice; a point already OFF changes nothing. ALM ACK clears the latched flag of a
point that is not up, and answers STILL for one that is; ALM ACK ALL does so for every point, with the number of flags cleared
and the number left, and STILL where any is left. The OFF notice stands before the reply by the model's reading (log entry
17). That ALM OFF keeps the clip reading, the last value and the last scan is its choice (log entry 83), and so is scan number
0 in a notice before any scan (86). A number with a minus sign is read also where it is no signed one, and is then out of
range or clamped, by the model's choice (log entry 85). -/
def Obligations.AlmOffAndAckActByState : Prop :=
  (∀ (s : State) (tag : Nat) (t : Tok), Ready s → tag ≤ 9999 →
    let go := exec (.almOff tag [t]) s
    (∀ n, Tok.index? .A t = some n → (n < 0 ∨ 47 < n) → go = .next (s.erTo tag .range)) ∧
    ∀ n : PointId, Tok.fin? .A 48 t = some n →
      let x := s.points[n]
      let y := { x with state := .off, run := 0, cfg := { x.cfg with enabled := false } }
      let off := { s with points := s.points.set n y }
      (x.state = .off → go = .next (s.okTo tag [])) ∧
      (x.state = .clear ∨ x.state = .raising → go = .next (State.okTo off tag [])) ∧
      (x.state = .active ∨ x.state = .clearing ∨ x.state = .forced →
        ∃ u, go = .next (u.okTo tag []) ∧ contributionMoved s u n x.cfg.gpo false ∧
          u = { off with gpos := u.gpos, link := (almNotice n .OFF true off).link })) ∧
  ∀ (s : State) (tag : Nat), Ready s → tag ≤ 9999 →
    (∀ t, (∀ n, Tok.index? .A t = some n → (n < 0 ∨ 47 < n) →
        exec (.almAck tag [t]) s = .next (s.erTo tag .range)) ∧
      ∀ n : PointId, Tok.fin? .A 48 t = some n →
        let x := s.points[n]
        (x.state = .clear ∨ x.state = .raising ∨ x.state = .off →
          exec (.almAck tag [t]) s =
            .next (State.okTo { s with points := s.points.set n { x with latched := false } } tag [])) ∧
        (x.state = .active ∨ x.state = .clearing ∨ x.state = .forced →
          exec (.almAck tag [t]) s = .next (s.okTo tag [] [.still]))) ∧
    let left := s.points.toList.countP fun x => x.latched && x.state.isUp
    ∃ u, exec (.almAck tag [.kw .ALL]) s = .next u ∧
      (∀ n : PointId, u.points[n] =
        if s.points[n].state.isUp then s.points[n] else { s.points[n] with latched := false }) ∧
      u = { s with points := u.points,
                   link := s.link.reply (some tag)
                     (.ok [.num ((s.points.toList.countP fun x => x.latched) - left : Nat), .num left]
                       (if 0 < left then [.still] else [])) }

/-- R144, R145: ALM FORCE ON of a point in service enters FORCED: the run counter 0, the flag latched, the activation counted,
the contribution added, a FORCED notice where notify is ON, and the action run; ALM FORCE OFF returns a FORCED point to CLEAR
with its contribution removed and a CLEARED notice where notify is ON. FORCE ON of a FORCED point changes nothing; in OFF it
is refused with STATE, and so is FORCE OFF of a point not FORCED. Each notice stands before the reply by the model's reading
(log entry 17), and carries scan number 0 before any scan by its choice (86). A number with a minus sign is read also where it
is no signed one, and is then out of range or clamped, by the model's choice (log entry 85). -/
def Obligations.AlmForceHoldsPoint : Prop :=
  ∀ (s : State) (tag : Nat) (t : Tok), Ready s → tag ≤ 9999 →
    let on := exec (.almForceOn tag [t]) s
    let off := exec (.almForceOff tag [t]) s
    (∀ n, Tok.index? .A t = some n → (n < 0 ∨ 47 < n) →
      on = .next (s.erTo tag .range) ∧ off = .next (s.erTo tag .range)) ∧
    ∀ n : PointId, Tok.fin? .A 48 t = some n →
      let x := s.points[n]
      let y := { x with state := .forced, run := 0, latched := true, activations := min 65535 (x.activations + 1) }
      let forced := { s with points := s.points.set n y }
      let freed := { s with points := s.points.set n { x with state := .clear, run := 0, clipReading := none } }
      (x.state = .off → on = .next (s.erTo tag .state)) ∧
      (x.state = .forced → on = .next (s.okTo tag [])) ∧
      (x.state ≠ .off → x.state ≠ .forced →
        ∃ u, on = .next ((runAction n u).okTo tag []) ∧ contributionMoved s u n x.cfg.gpo true ∧
          u = { forced with gpos := u.gpos,
                            link := if x.cfg.notify then (almNotice n .FORCED true forced).link else s.link }) ∧
      (x.state ≠ .forced → off = .next (s.erTo tag .state)) ∧
      (x.state = .forced →
        ∃ u, off = .next (u.okTo tag []) ∧ contributionMoved s u n x.cfg.gpo false ∧
          u = { freed with gpos := u.gpos,
                           link := if x.cfg.notify then (almNotice n .CLEARED true freed).link else s.link })

/-- R55, R134 to R139, R142, R143, R147, R148, R150, R151: a scan that is due raises the scan number by one and spends the
reports; a point that is not due keeps all it holds. A due one is marked with the scan's number, takes the value its
measure has at the scan, and moves by it as `EvaluationMovesPoint` says; a CLIP point keeps the report's count as its
reading. A point that the scan raises joins its contribution, sends a RAISED notice and runs its action: CHANGEOVER
writes a change to BACKUP for a RUNNING programme whose lanes all have a backup, and is counted as skipped otherwise;
CAPTURE sends its slot one trigger. A point that the scan returns to CLEAR takes its contribution back and sends a CLEARED
notice. The revert check follows the points. A scan that is not due does nothing (log entry 1); DRIFT and GAINLIM read
the preset of the report as it stands (log entry 53); a change beside a fade down begun behind this sample's boundary
joins its change (log entry 49). -/
def Obligations.AlarmScanVisitsDuePoints : Prop :=
  ∀ s : State, s.powered = true →
    (s.scanDue = false → exec .alarmScan s = .next s) ∧
    (s.scanDue = true → ∃ t, exec .alarmScan s = .next t ∧
      t.scanNo = s.scanNo + 1 ∧ t.scanDue = false ∧ (∀ p : ProgId, t.reports[p] = none) ∧
      let rises := fun (n : PointId) =>
        decide ((s.points[n].state = .clear ∨ s.points[n].state = .raising) ∧ t.points[n].state = .active)
      let unbacked := fun (p : ProgId) =>
        decide (s.pgms[p].ctl.state ≠ .running ∨ ∃ k ∈ s.pgms[p].ctl.lanes, s.lanes[k].backup = none)
      (∀ n : PointId,
        let x := s.points[n]
        let due := x.state ≠ .off ∧ x.state ≠ .forced ∧ t.scanNo.toNat % x.cfg.stride = x.cfg.phase
        (¬ due → t.points[n] = x) ∧
        (due → t.points[n].lastScan = some t.scanNo ∧ t.points[n].cfg = x.cfg) ∧
        t.points[n].skips =
          if rises n = true ∧ x.cfg.action = .changeover ∧ ∃ p, x.cfg.subject = .pgm p ∧ unbacked p = true then
            min 65535 (x.skips + 1)
          else x.skips) ∧
      (∀ c : SlotId,
        let struck := allPoints.filter fun n => rises n && decide (s.points[n].cfg.action = .capture c)
        t.slots[c] = struck.foldl (fun x n =>
          if x.state = .armed ∧ .alarm n ∈ x.trigs then
            { x with state := .post, trigAt := some s.hc, trigSrc := some (.alarm n),
                     actualPre := some (min x.pre x.recorded) }
          else { x with ignored := min 65535 (x.ignored + 1) }) s.slots[c]) ∧
      (∀ p : ProgId,
        let risen := allPoints.filter fun n => rises n &&
          decide (s.points[n].cfg.action = .changeover ∧ s.points[n].cfg.subject = .pgm p)
        let acted := risen.foldl (fun c n =>
          if unbacked p then c
          else changeTaken s.boundaryHere
            { c with pending := { c.pending with source := some (.backup, .alarm n) } }) s.pgms[p].ctl
        let locked := acted.lanes.all fun k => match s.lanes[k].main with
          | some x => decide (s.ports[x.port].state = .locked)
          | none => false
        t.pgms[p] = { s.pgms[p] with ctl := revertTaken s.boundaryHere locked acted }) ∧
      (∀ n : PointId,
        let x := s.points[n]
        let y := t.points[n]
        let takes := fun (m : Measure) => x.cfg.measure = some m
        x.state ≠ .off → x.state ≠ .forced → t.scanNo.toNat % x.cfg.stride = x.cfg.phase →
        (x.cfg.measure = none → y.lastValue = none) ∧
        (takes .portlock → (∀ i, x.cfg.subject = .port i → y.lastValue = some (.truth (s.ports[i].state ≠ .locked))) ∧
          ((∀ i, x.cfg.subject ≠ .port i) → y.lastValue = none)) ∧
        (takes .ref → y.lastValue = some (.truth (s.ref.state = .lost ∨ s.ref.state = .free))) ∧
        (takes .watch → y.lastValue = some (.truth s.watch.latched)) ∧
        (¬ takes .portlock → ¬ takes .ref → ¬ takes .watch →
          ((∀ p, x.cfg.subject = .pgm p → s.reports[p] = none) → y.lastValue = none) ∧
          ∀ p r, x.cfg.subject = .pgm p → s.reports[p] = some r →
            let preset := s.presets[r.preset]
            (takes .silent → y.lastValue = r.lm.map .num) ∧
            (takes .loud → y.lastValue = r.ls.map .num) ∧
            (takes .drift → y.lastValue = r.li.map fun l => .num (l - preset.target).natAbs) ∧
            (takes .clip → y.lastValue = x.clipReading.map fun c => .num (if r.clip < c then r.clip else r.clip - c : Nat)) ∧
            (takes .phase → y.lastValue = match r.corr with
              | .value c => some (.num c)
              | .undefined | .absent => none) ∧
            (takes .pgmlock → y.lastValue = some (.truth (∃ k ∈ s.pgms[p].ctl.lanes, s.lanes[k].valid = false))) ∧
            (takes .short → y.lastValue = some (.truth (s.pgms[p].dly.short = true ∨ s.pgms[p].dly.floor = true))) ∧
            (takes .gainlim → y.lastValue = some (.truth (r.g = -preset.cut ∨ r.g = preset.boost)))) ∧
        y.clipReading = (if takes .clip then
            some (match x.cfg.subject with
              | .pgm p => (s.reports[p].map Report.clip).getD 0
              | _ => 0)
          else x.clipReading) ∧
        y = (movePoint n y.lastValue { s with points := s.points.set n { x with
              lastValue := y.lastValue, lastScan := some t.scanNo, clipReading := y.clipReading } }).points[n]) ∧
      (let falls := fun (n : PointId) =>
        decide ((s.points[n].state = .active ∨ s.points[n].state = .clearing) ∧ t.points[n].state = .clear)
       (∀ l : LineId, t.gpos[l].cfg = s.gpos[l].cfg ∧ t.gpos[l].pin = s.gpos[l].pin ∧
        ∀ n : PointId, n ∈ t.gpos[l].contrib ↔
          if l ∈ s.points[n].cfg.gpo ∧ rises n = true then True
          else if l ∈ s.points[n].cfg.gpo ∧ falls n = true then False
          else n ∈ s.gpos[l].contrib) ∧
       t.link = s.link.notices (allPoints.flatMap fun n =>
        let x := t.points[n]
        let sends := fun (why st : Kw) => [Line.notice .alm
          [.num n.val, .kw why, .kw st, optFld (fun m => .kw (Measure.kw m)) x.cfg.measure, x.cfg.subject.fld,
           optFld measValFld x.lastValue, .num t.scanNo.toNat, .num x.activations,
           .kw (if x.latched then .SET else .CLEAR)]]
        if x.cfg.notify = true ∧ rises n = true then sends .RAISED .ACTIVE
        else if x.cfg.notify = true ∧ falls n = true then sends .CLEARED .CLEAR
        else [])) ∧
      t = { s with scanNo := t.scanNo, scanDue := false, reports := t.reports, points := t.points,
                   gpos := t.gpos, slots := t.slots, pgms := t.pgms, link := t.link })

/-- R140, R141, with R142 and R143 in part: an evaluation moves a point by its conditions: raising evaluations in a row up to
N make it ACTIVE, latched and counted, clearing ones up to M return it to CLEAR, and any other evaluation ends the run. -/
def Obligations.EvaluationMovesPoint : Prop :=
  ∀ (s : State) (n : PointId) (v : Option MeasVal),
    let x := s.points[n]
    let y := (movePoint n v s).points[n]
    let lo := x.cfg.threshold - x.cfg.hyst
    let hi := x.cfg.threshold + x.cfg.hyst
    let raises := v = some (.truth true) ∨
      ∃ k, v = some (.num k) ∧ if x.cfg.sense = .above then x.cfg.threshold < k else k < x.cfg.threshold
    let clears := v = some (.truth false) ∨
      ∃ k, v = some (.num k) ∧ if x.cfg.sense = .above then k ≤ lo else hi ≤ k
    let up := if x.state = .raising then x.run + 1 else 1
    let down := if x.state = .clearing then x.run + 1 else 1
    y.cfg = x.cfg ∧
    (x.state = .off ∨ x.state = .forced → movePoint n v s = s) ∧
    (x.state = .clear ∨ x.state = .raising →
      (¬ raises → movePoint n v s = { s with points := s.points.set n { x with state := .clear, run := 0 } }) ∧
      (raises → up < x.cfg.raise →
        movePoint n v s = { s with points := s.points.set n { x with state := .raising, run := up } }) ∧
      (raises → x.cfg.raise ≤ up →
        y.state = .active ∧ y.run = 0 ∧ y.latched = true ∧ y.activations = min 65535 (x.activations + 1) ∧
          contributionMoved s (movePoint n v s) n x.cfg.gpo true)) ∧
    (x.state = .active ∨ x.state = .clearing →
      (¬ clears → movePoint n v s = s.updPoint n fun x =>
        { x with state := .active, run := if x.state = .clearing then 0 else x.run }) ∧
      (clears → down < x.cfg.clear →
        movePoint n v s = { s with points := s.points.set n { x with state := .clearing, run := down } }) ∧
      (clears → x.cfg.clear ≤ down →
        y = { x with state := .clear, run := 0 } ∧ contributionMoved s (movePoint n v s) n x.cfg.gpo false))

/-! ### Contact lines (09) -/

/-- R154 to R157, R165: at a sample instant that is due each line's sampled level is debounced, and the changes join
the event FIFO in line order up to 32 records, the rest being lost with the overflow flag set; each is delivered before
the next, to its line's function and, where the line is asserted, to the probe as its marker, and the watcher is
evaluated behind the last. The first instant after a reset only sets the levels. The mark of a rewritten BREAK ends with
the next change to asserted (R159). An instant that is not due does nothing
(log entry 1). -/
def Obligations.GpiInstantDebounces : Prop :=
  ∀ (s : State) (levels : Levels), s.powered = true →
    let sampled := fun (l : LineId) =>
      if s.gpis[l].cfg.polarity = .low then !levels.getLsbD l.val else levels.getLsbD l.val
    let differs := fun (l : LineId) => sampled l ≠ s.gpis[l].level
    let begun := fun (l : LineId) => if s.gpis[l].run = 0 then s.hc else s.gpis[l].runStart.getD s.hc
    let changes := fun (l : LineId) => decide (differs l ∧ s.gpis[l].cfg.debounce ≤ s.gpis[l].run + 1)
    let records := (allLines.filter changes).map fun l =>
      ({ line := l, level := sampled l, stamp := begun l } : GpiEvent)
    (s.gpiDue = false → exec (.gpiSampleInstant levels) s = .next s) ∧
    (s.gpiDue = true → s.gpiFirst = true → ∃ t, exec (.gpiSampleInstant levels) s = .next t ∧
      (∀ l : LineId, t.gpis[l] = { s.gpis[l] with
        level := sampled l, run := 0, runStart := none, rewritten := s.gpis[l].rewritten && s.gpis[l].level }) ∧
      t = { s with gpiDue := false, gpiFirst := false, gpis := t.gpis, pins := { s.pins with gpi := levels },
                   watch := { s.watch with equal := s.watch.cfg.agrees t.gpiLevels } }) ∧
    (s.gpiDue = true → s.gpiFirst = false → ∃ t, exec (.gpiSampleInstant levels) s = .next t ∧
      (∀ l : LineId,
        (¬ differs l → t.gpis[l] = { s.gpis[l] with run := 0, runStart := none }) ∧
        (changes l = true → t.gpis[l] = { s.gpis[l] with
          level := sampled l, run := 0, runStart := none, rewritten := s.gpis[l].rewritten && !sampled l }) ∧
        (differs l → changes l = false →
          t.gpis[l] = { s.gpis[l] with run := s.gpis[l].run + 1, runStart := some (begun l) })) ∧
      (s.gpiFifo.length ≤ 32 → t.gpiFifo = (s.gpiFifo ++ records).take 32 ∧
        (t.gpiOverflow = true ↔ s.gpiOverflow = true ∨ 32 < s.gpiFifo.length + records.length)) ∧
      (records = [] →
        t = { s with gpiDue := false, gpis := t.gpis, pins := { s.pins with gpi := levels } }) ∧
      (records ≠ [] →
        let delivered := fun (u : State) (e : GpiEvent) =>
          let v := runFunction { line := e.line, level := e.level, stamp := e.stamp }
            (if u.gpiFifo.length < 32 then { u with gpiFifo := u.gpiFifo ++ [e] } else { u with gpiOverflow := true })
          if e.level then probeMarker e.line e.stamp v else v
        t = evaluateWatch (records.map GpiEvent.line) (records.foldl delivered
          { s with gpiDue := false, gpis := t.gpis, pins := { s.pins with gpi := levels } })) ∧
      t = { s with gpiDue := false, gpis := t.gpis, pins := { s.pins with gpi := levels },
                   gpiFifo := t.gpiFifo, gpiOverflow := t.gpiOverflow, watch := t.watch, pgms := t.pgms,
                   owners := t.owners, probe := t.probe, slots := t.slots, link := t.link })

/-- R156, R159 to R161, R169: a delivered change acts through its line's function: BREAK pushes its preset on a change to
asserted and pops on a change to released, which a line rewritten while asserted does not; RESET resets the integration,
CAPTURE triggers its slot. A watcher trigger latches the levels of the
first trigger and reaches both slots: a slot takes a trigger of its set while ARMED, and counts any other. The
multiplier in use in BYPASS after a push or a pop is the model's choice (log entry 35), and that the match state stays in
EVENT mode is its reading (log entry 44). -/
def Obligations.ChangesActAndTrigger : Prop :=
  ∀ (s : State) (l : LineId) (up : Bool) (h : HouseCount) (c : SlotId) (src : TrigSource) (changed : List LineId),
    let go := runFunction { line := l, level := up, stamp := h } s
    let f := s.gpis[l].cfg.func
    let x := s.slots[c]
    let fired := if s.watch.cfg.mode = .event then ∃ k ∈ changed, k ∉ s.watch.cfg.mask
      else s.watch.equal = false ∧ s.watch.cfg.agrees s.gpiLevels = true
    let equal := if s.watch.cfg.mode = .event then s.watch.equal else s.watch.cfg.agrees s.gpiLevels
    let w := evaluateWatch changed s
    (f = .nothing ∨ (∃ ps, f = .hold ps) ∨
      up = false ∧ ((∃ ps, f = .reset ps) ∨ (∃ d, f = .capture d) ∨
        s.gpis[l].rewritten = true ∧ ∃ ps n, f = .brk ps n) → go = s) ∧
    (∀ ps n, f = .brk ps n → up = false → s.gpis[l].rewritten = false → ps.Nodup →
      go = { s with pgms := go.pgms } ∧
      ∀ p : ProgId, go.pgms[p] =
        let r := s.pgms[p].cor
        if p ∈ ps ∧ s.pgms[p].ctl.state ≠ .undefined then
          { s.pgms[p] with cor :=
              if 2 ≤ r.stack.length then
                presetTaken s.pgms[p].ctl s.presets[r.stack.dropLast.getLastD 0] { r with stack := r.stack.dropLast }
              else { r with underflow := min 65535 (r.underflow + 1) } }
        else s.pgms[p]) ∧
    (∀ ps n, f = .brk ps n → up = true → ps.Nodup →
      go = { s with pgms := go.pgms } ∧
      ∀ p : ProgId, go.pgms[p] =
        if p ∈ ps ∧ s.pgms[p].ctl.state ≠ .undefined then
          { s.pgms[p] with cor := presetTaken s.pgms[p].ctl s.presets[n] (s.pgms[p].cor.push n) }
        else s.pgms[p]) ∧
    (∀ ps, f = .reset ps → up = true →
      go = { s with pgms := go.pgms } ∧
      ∀ p : ProgId, go.pgms[p] =
        if p ∈ ps ∧ s.pgms[p].ctl.state = .running then
          { s.pgms[p] with mtr := { s.pgms[p].mtr with bins := Vector.replicate 300 0, admitted := 0, li := none } }
        else s.pgms[p]) ∧
    (∀ d, f = .capture d → up = true → go = trigger d (.gpi l) s) ∧
    (x.state = .armed ∧ src ∈ x.trigs →
      trigger c src s = s.updSlot c fun x =>
        { x with state := .post, trigAt := some s.hc, trigSrc := some src,
                 actualPre := some (min x.pre x.recorded) }) ∧
    (¬ (x.state = .armed ∧ src ∈ x.trigs) →
      trigger c src s = s.updSlot c fun x => { x with ignored := min 65535 (x.ignored + 1) }) ∧
    (¬ fired → w = { s with watch := { s.watch with equal := equal } }) ∧
    (fired → w = { s with slots := w.slots, watch := w.watch } ∧
      w.watch = { s.watch with equal := equal, latched := true,
                               word := if s.watch.latched then s.watch.word else some s.gpiLevels } ∧
      ∀ c : SlotId, w.slots[c] = (trigger c .watch s).slots[c])

/-- R158, R159, R162 to R164: GPI SET writes the settings it names onto a line's record, with the debounce count clamped,
keeps its level and run, and replies with the record; GPI POP removes the oldest record; WATCH SET writes what it names and
forms the match state afresh; GPO SET, POLARITY and HOLD write a line's manual level and polarity and the hold mask, and a
line that leaves the mask drives its computed level at once. A line, programme, preset or slot number out of range is refused
with RANGE, before any other word is judged, and a word that cannot be read with SYNTAX. These are the model's: the order
mode, mask, compare word of WATCH SET (log entry 54); that of a GPI setting named twice the later stands, with CLAMPED from
either (65); that naming the function of an asserted BREAK line rewrites it, also with what it was (66); and RANGE before
SYNTAX in WATCH SET and the GPO requests (33). A number with a minus sign is read also where it is no signed one, and is then
out of range or clamped, by the model's choice (log entry 85). -/
def Obligations.ContactSettingsAreWritten : Prop :=
  ∀ (s : State) (tag : Nat), Ready s → tag ≤ 9999 →
    (∀ (t k : Tok) (rest : List Tok) (l : LineId) (c : GpiCfg) (clamped : Bool), Tok.fin? .G 8 t = some l →
      gpiOutside (k :: rest) = false → readGpi (s.gpis[l].cfg, false) (k :: rest) = some (c, clamped) →
      let settings : List Fld := [.kw c.polarity.kw, .num c.debounce]
      let func : List Fld := match c.func with
        | .nothing => [.kw .NONE]
        | .hold ps => [.kw .HOLD, finsFld ps]
        | .brk ps n => [.kw .BREAK, finsFld ps, .num n.val]
        | .reset ps => [.kw .RESET, finsFld ps]
        | .capture x => [.kw .CAPTURE, .num x.val]
      let level : List Fld :=
        [.kw (if s.gpis[l].level then .ASSERTED else .RELEASED), .num s.gpis[l].run, optBv s.gpis[l].runStart]
      let breaks := match s.gpis[l].cfg.func with
        | .brk _ _ => true
        | _ => false
      exec (.gpiSet tag (t :: k :: rest)) s =
        .next (State.okTo { s with gpis := s.gpis.set l { s.gpis[l] with
            cfg := c
            rewritten := s.gpis[l].rewritten || (decide (.kw .FUNCTION ∈ k :: rest) && s.gpis[l].level && breaks) } } tag
          (settings ++ func ++ level)
          (if clamped then [.clamped] else []))) ∧
    (∀ (t : Tok) (rest : List Tok) (c : GpiCfg) (b : Bool),
      (∀ y, Tok.polarity? t = some y →
        readGpi (c, b) (.kw .POLARITY :: t :: rest) = readGpi ({ c with polarity := y }, b) rest) ∧
      (∀ n, Tok.int? t = some n →
        readGpi (c, b) (.kw .DEBOUNCE :: t :: rest) =
          readGpi ({ c with debounce := (max 2 (min n 64)).toNat }, b || decide (n < 2 ∨ 64 < n)) rest) ∧
      readGpi (c, b) (.kw .FUNCTION :: .kw .NONE :: rest) = readGpi ({ c with func := .nothing }, b) rest ∧
      (∀ ps u n, progSet t = some ps → Tok.fin? .PS 16 u = some n →
        readGpi (c, b) (.kw .FUNCTION :: .kw .HOLD :: t :: rest) = readGpi ({ c with func := .hold ps }, b) rest ∧
        readGpi (c, b) (.kw .FUNCTION :: .kw .RESET :: t :: rest) =
          readGpi ({ c with func := .reset ps }, b) rest ∧
        readGpi (c, b) (.kw .FUNCTION :: .kw .BREAK :: t :: u :: rest) =
          readGpi ({ c with func := .brk ps n }, b) rest) ∧
      ∀ d, Tok.fin? .C 2 t = some d →
        readGpi (c, b) (.kw .FUNCTION :: .kw .CAPTURE :: t :: rest) =
          readGpi ({ c with func := .capture d }, b) rest) ∧
    (s.gpiFifo = [] →
      exec (.gpiPop tag []) s =
        .next (State.okTo { s with gpiOverflow := false } tag
          [.dash, .dash, .dash, .num 0, .kw (if s.gpiOverflow then .SET else .CLEAR)])) ∧
    (∀ e rest, s.gpiFifo = e :: rest →
      exec (.gpiPop tag []) s =
        .next (State.okTo { s with gpiFifo := rest, gpiOverflow := if rest = [] then false else s.gpiOverflow } tag
          [.num e.line.val, .num (if e.level then 1 else 0), .num e.stamp.toNat, .num rest.length,
           .kw (if s.gpiOverflow then .SET else .CLEAR)])) ∧
    (∀ (m : Option WatchMode) (mask : Option Tok) (ls : List LineId) (w : Option Levels),
      (∀ t ∈ mask, (Tok.items? .G t).bind (asFins 8) = some ls) →
      let c : WatchCfg := { mode := m.getD s.watch.cfg.mode,
                            mask := if mask.isSome then allLines.filter (· ∈ ls) else s.watch.cfg.mask,
                            compare := w.getD s.watch.cfg.compare }
      exec (.watchSet tag ((m.toList.map fun m => Tok.kw m.kw) ++ mask.toList ++ w.toList.map Tok.digits)) s =
        .next (State.okTo { s with watch := { s.watch with cfg := c, equal := c.agrees s.gpiLevels } } tag [])) ∧
    (∀ (t y : Tok) (l : LineId), Tok.fin? .Q 8 t = some l →
      (∀ b, Tok.bit? y = some b →
        exec (.gpoSet tag [t, y]) s =
          .next (State.okTo (s.updGpo l fun g => { g with cfg := { g.cfg with manual := b } }) tag [])) ∧
      (∀ z, Tok.polarity? y = some z →
        exec (.gpoPolarity tag [t, y]) s =
          .next (State.okTo (s.updGpo l fun g => { g with cfg := { g.cfg with polarity := z } }) tag [])) ∧
      (Tok.bit? y = none → exec (.gpoSet tag [t, y]) s = .next (s.erTo tag .synErr)) ∧
      (Tok.polarity? y = none → exec (.gpoPolarity tag [t, y]) s = .next (s.erTo tag .synErr))) ∧
    (∀ (t : Tok) (rest : List Tok) (n : Int), (n < 0 ∨ 7 < n) →
      (Tok.index? .Q t = some n → exec (.gpoSet tag (t :: rest)) s = .next (s.erTo tag .range) ∧
        exec (.gpoPolarity tag (t :: rest)) s = .next (s.erTo tag .range)) ∧
      (Tok.index? .G t = some n → exec (.gpiSet tag (t :: rest)) s = .next (s.erTo tag .range))) ∧
    (∀ (t : Tok) (rest : List Tok) (l : LineId), Tok.fin? .G 8 t = some l →
      (gpiOutside rest = true → exec (.gpiSet tag (t :: rest)) s = .next (s.erTo tag .range)) ∧
      (gpiOutside rest = false → (rest = [] ∨ readGpi (s.gpis[l].cfg, false) rest = none) →
        exec (.gpiSet tag (t :: rest)) s = .next (s.erTo tag .synErr))) ∧
    (∀ (t u : Tok) (rest : List Tok) (ns : List Int) (n : Int),
      (Tok.items? .P t = some ns → (∃ x ∈ ns, x < 0 ∨ 7 < x) →
        ∀ k ∈ [Kw.HOLD, .RESET, .BREAK], gpiOutside (.kw .FUNCTION :: .kw k :: t :: rest) = true) ∧
      (Tok.index? .PS u = some n → (n < 0 ∨ 15 < n) → gpiOutside (.kw .FUNCTION :: .kw .BREAK :: t :: u :: rest) = true) ∧
      (Tok.index? .C t = some n → (n < 0 ∨ 1 < n) → gpiOutside (.kw .FUNCTION :: .kw .CAPTURE :: t :: rest) = true) ∧
      (Tok.items? .Q t = none → exec (.gpoHold tag [t]) s = .next (s.erTo tag .synErr)) ∧
      (Tok.items? .Q t = some ns → (∃ x ∈ ns, x < 0 ∨ 7 < x) → exec (.gpoHold tag [t]) s = .next (s.erTo tag .range)) ∧
      (Tok.items? .G t = some ns → (∃ x ∈ ns, x < 0 ∨ 7 < x) →
        exec (.watchSet tag (t :: rest)) s = .next (s.erTo tag .range) ∧
        (Tok.items? .G u = none → (∀ w, u ≠ .digits w) →
          exec (.watchSet tag (u :: t :: rest)) s = .next (s.erTo tag .range))) ∧
      (Tok.items? .G t = none → (∀ w, t ≠ .digits w) →
        ((∀ m : WatchMode, t ≠ .kw m.kw) → exec (.watchSet tag [t]) s = .next (s.erTo tag .synErr)) ∧
        ∀ m : WatchMode, exec (.watchSet tag [.kw m.kw, t]) s = .next (s.erTo tag .synErr)) ∧
      ∀ w : Levels, exec (.watchSet tag [.digits w, t]) s = .next (s.erTo tag .synErr)) ∧
    ∀ (t : Tok) (mask : List LineId), (Tok.items? .Q t).bind (asFins 8) = some mask →
      ∃ u : State, exec (.gpoHold tag [t]) s = .next (u.okTo tag []) ∧ u = { s with gpos := u.gpos } ∧
        ∀ l : LineId,
          let g := s.gpos[l]
          let level := g.cfg.manual || decide (g.contrib ≠ [])
          u.gpos[l] = { g with
            cfg := { g.cfg with held := decide (l ∈ mask) }
            pin := if g.cfg.held = true ∧ l ∉ mask then
                (if g.cfg.polarity = .high then level else !level)
              else g.pin }

/-! ### Captures (10) -/

/-- R167: CAP ARM of a FREE slot on a RUNNING programme clamps pre and post, takes the pages for every lane, writes the
settings and arms the slot at the present house sample. A slot, programme, point or line out of range is refused with RANGE;
behind that a missing word, one that cannot be read, an unknown source or an empty trigger set with SYNTAX; a slot in use and
a programme that is not RUNNING with STATE; and a pool with too few pages or a waiting list with FULL. That the waiting list
is the programmes with SHORT set is the model's reading (log entry 22); that the trigger set stands in words of its own, in
the order in which its sources are first named (67 and 56), and that a word is judged by its place, also where one is missing
(73), are its choices. A number with a minus sign is read also where it is no signed one, and is then out of range or clamped,
by the model's choice (log entry 85). -/
def Obligations.CaptureArms : Prop :=
  ∀ (s : State) (tag : Nat), Ready s → tag ≤ 9999 →
    (let sourceBeyond := fun (k x : Tok) => k = .kw .ALARM ∧ beyond .A 48 x ∨ k = .kw .GPI ∧ beyond .G 8 x
     let head := fun (args : List Tok) =>
      (∃ t, args[0]? = some t ∧ beyond .C 2 t) ∨ ∃ y, args[1]? = some y ∧ beyond .P 8 y
     wordsRefused s tag (fun args => exec (.capArm tag args) s)
      (fun args => ¬ head args ∧
        (∀ before k x after, args.drop 5 = before ++ k :: x :: after → ¬ sourceBeyond k x) ∧
        ∀ t y pr po md words, args = t :: y :: pr :: po :: md :: words → words ≠ [] →
          Tok.index? .C t = none ∨ Tok.index? .P y = none ∨ Tok.int? pr = none ∨ Tok.int? po = none ∨
            Tok.slotMode? md = none ∨ readTrigs words = none)
      (fun args => head args ∨ ∃ before k x after, args.drop 5 = before ++ k :: x :: after ∧
        before.getLast? ≠ some (.kw .ALARM) ∧ before.getLast? ≠ some (.kw .GPI) ∧ sourceBeyond k x)) ∧
    ∀ (t y pr po md : Tok) (words : List Tok) (c : SlotId) (p : ProgId) (pre post : Int)
    (m : SlotMode) (trigs : List TrigSource), Tok.fin? .C 2 t = some c →
    Tok.fin? .P 8 y = some p → Tok.int? pr = some pre → Tok.int? po = some post → Tok.slotMode? md = some m →
    words ≠ [] → readTrigs words = some (trigs.map some) →
    let go := exec (.capArm tag (t :: y :: pr :: po :: md :: words)) s
    let a := (max 0 (min pre 240000)).toNat
    let b := (max 4800 (min post 480000)).toNat
    let k := s.pgms[p].ctl.lanes.length
    let each := (a + b + 1023) / 1024
    let busy := s.slots[c].state ≠ .free ∨ s.pgms[p].ctl.state ≠ .running
    let full := s.freePages < each * k ∨ ∃ q : ProgId, s.pgms[q].dly.short = true
    (busy → go = .next (s.erTo tag .state)) ∧
    (¬ busy → full → go = .next (s.erTo tag .full)) ∧
    (¬ busy → ¬ full → ∃ u, go = .next u ∧
      u.slots[c] =
        { state := .armed, pgm := some p, lanes := k, pre := a, post := b, mode := m,
          trigs := u.slots[c].trigs, armAt := some s.hc, recorded := 0, trigAt := none, trigSrc := none,
          actualPre := none, ignored := 0, cursors := List.replicate k 0, rings := List.replicate k [] } ∧
      (∀ z, z ∈ u.slots[c].trigs ↔ z ∈ trigs) ∧ u.slots[c].trigs.Nodup ∧
      (∀ d, d ≠ c → u.slots[d] = s.slots[d]) ∧
      u.slotPages c = s.slotPages c + each * k ∧ u.freePages + each * k = s.freePages ∧
      u = { s with slots := u.slots, owners := u.owners,
                   link := s.link.reply (some tag)
                     (.ok [.num a, .num b, .num each, .num u.freePages]
                       (if (a : Int) ≠ pre ∨ (b : Int) ≠ post then [.clamped] else [])) })

/-- R169 to R174: CAP TRIG answers TAKEN or IGNORED; a POST slot is HELD once its last word is recorded; CAP READ gives the
words from its start and moves that lane's cursor; CAP RELEASE frees a SINGLE slot and re-arms a REPEAT one; CAP FREE frees a
slot in any state and gives back its pages. A slot out of range is refused with RANGE, and so are in CAP READ a lane index
outside those of the slot's programme, or above 7 where there is none, and an offset below 0; words that cannot be read are
refused with SYNTAX, before RANGE by the model's reading (log entry 33); and a slot that is not HELD refuses CAP READ and CAP
RELEASE with STATE. An end that is not reached does nothing (log entry 1); the PAGES notices of a request stand before its
reply (17), a named offset becomes the cursor (58), and a slot that enters FREE keeps its arm sample and its recorded count
(77). A number with a minus sign is read also where it is no signed one, and is then out of range or clamped, by the model's
choice (log entry 85). -/
def Obligations.CaptureRunsItsCourse : Prop :=
  ∀ (s : State) (tag : Nat), Ready s → tag ≤ 9999 →
    oneNumberRefused s tag .C 2 (fun args => exec (.capTrig tag args) s) ∧
    oneNumberRefused s tag .C 2 (fun args => exec (.capRelease tag args) s) ∧
    oneNumberRefused s tag .C 2 (fun args => exec (.capFree tag args) s) ∧
    (let readable := fun (args : List Tok) (t : Tok) => (Tok.index? .C t).isSome ∧ ∃ y n, (Tok.int? y).isSome ∧
      (Tok.int? n).isSome ∧ (args = [t, y, n] ∨ ∃ o, (Tok.int? o).isSome ∧ args = [t, y, o, n])
     wordsRefused s tag (fun args => exec (.capRead tag args) s) (fun args => ∀ t, ¬ readable args t)
      (fun args => ∃ t, readable args t ∧ beyond .C 2 t)) ∧
    ∀ (t : Tok) (c : SlotId), Tok.fin? .C 2 t = some c →
    let x := s.slots[c]
    let len := x.actualPre.getD 0 + x.post
    let freed := { x with state := SlotState.free, cursors := x.cursors.map fun _ => 0, rings := [] }
    let frees := fun (go : Host.Outcome State Fault Refusal) (u : State) (head : List Fld) =>
      go = .next u ∧ u.slots = s.slots.set c freed ∧ u.slotPages c = 0 ∧
      u.link.fifo.getLast? = some (.reply (some tag) (.ok (head ++ [.num u.freePages]) [])) ∧
      (∀ q : ProgId, u.pgms[q].ctl = s.pgms[q].ctl ∧ u.pgms[q].mtr = s.pgms[q].mtr ∧
        u.pgms[q].cor = s.pgms[q].cor ∧ u.pgms[q].dly.dApp = s.pgms[q].dly.dApp) ∧
      u = { s with pgms := u.pgms, owners := u.owners, slots := u.slots, link := u.link }
    (x.state = .armed → .request ∈ x.trigs →
      exec (.capTrig tag [t]) s =
        .next (State.okTo (trigger c .request s) tag [.kw .TAKEN, .kw .POST])) ∧
    (¬ (x.state = .armed ∧ .request ∈ x.trigs) →
      exec (.capTrig tag [t]) s =
        .next (State.okTo (trigger c .request s) tag [.kw .IGNORED, .kw x.state.kw])) ∧
    (∀ h, x.state = .post → x.trigAt = some h →
      (x.post ≤ (s.hc - h).toNat →
        exec (.captureComplete c) s =
          .next (capNotice c .HELD (s.updSlot c fun x =>
            { x with state := .held, cursors := x.cursors.map fun _ => 0 }))) ∧
      ((s.hc - h).toNat < x.post → exec (.captureComplete c) s = .next s)) ∧
    (x.state ≠ .post → exec (.captureComplete c) s = .next s) ∧
    (∀ (y o n : Tok) (j i want : Int), Tok.int? y = some j → Tok.int? o = some i → Tok.int? n = some want →
      let lanes := if x.pgm = none then 8 else x.lanes
      let lost := j < 0 ∨ (lanes : Int) ≤ j
      (lost → exec (.capRead tag [t, y, n]) s = .next (s.erTo tag .range)) ∧
      (lost ∨ i < 0 → exec (.capRead tag [t, y, o, n]) s = .next (s.erTo tag .range)) ∧
      (¬ lost → x.state ≠ .held → exec (.capRead tag [t, y, n]) s = .next (s.erTo tag .state) ∧
        (0 ≤ i → exec (.capRead tag [t, y, o, n]) s = .next (s.erTo tag .state)))) ∧
    (∀ (y o n : Tok) (j i : Nat) (want : Int) (ring : List Sample), x.state = .held → x.pgm ≠ none →
      Tok.int? y = some (j : Int) → Tok.int? n = some want → Tok.int? o = some (i : Int) → j < x.lanes →
      x.rings[j]? = some ring → len ≤ ring.length →
      let count := (max 1 (min want 24)).toNat
      let read := fun (start : Nat) =>
        let words := (((ring.take len).reverse).drop start).take count
        State.okTo (s.updSlot c fun x => { x with cursors := x.cursors.set j (start + words.length) }) tag
          ([.num c.val, .num j, .num start] ++ words.map Fld.hex ++
            (if len ≤ start + words.length then [.kw .END] else []))
          (if (count : Int) ≠ want then [.clamped] else [])
      exec (.capRead tag [t, y, o, n]) s = .next (read i) ∧
      exec (.capRead tag [t, y, n]) s = .next (read (x.cursors.getD j 0))) ∧
    (x.state ≠ .held → exec (.capRelease tag [t]) s = .next (s.erTo tag .state)) ∧
    (x.state = .held → x.mode = .single →
      ∃ u, frees (exec (.capRelease tag [t]) s) u [.kw .FREE]) ∧
    (x.state = .held → x.mode = .repeating →
      exec (.capRelease tag [t]) s =
        .next (State.okTo (s.updSlot c fun x =>
          { x with state := .armed, armAt := some s.hc, recorded := 0, cursors := x.cursors.map fun _ => 0,
                   trigAt := none, trigSrc := none, actualPre := none }) tag
          [.kw .ARMED, .num s.freePages])) ∧
    (x.state = .free →
      exec (.capFree tag [t]) s = .next (s.okTo tag [.num (s.slotPages c), .num s.freePages])) ∧
    (x.state ≠ .free → ∃ u, frees (exec (.capFree tag [t]) s) u [.num (s.slotPages c)])

/-! ### Takes (11) -/

/-- R176 to R178: TAK ADD gives the entry the first id from the next id on that no queued entry holds, and places it behind
every entry due as near or nearer; a frame that has been reached or has passed is accepted LATE for the next one. A programme,
preset or contact output out of range is refused with RANGE, behind that words that cannot be read with SYNTAX, and a full
queue with FULL. TAK CANCEL removes the entry with an id, or is refused with NOSUCH. That a word is judged by its place, so
that behind a due frame left out or an unknown action none is out of range, is the model's choice (log entry 78). A number
with a minus sign is read also where it is no signed one, and is then out of range or clamped, by the model's choice (log
entry 85). -/
def Obligations.TakeQueueAddsAndCancels : Prop :=
  ∀ (s : State) (tag : Nat), Ready s → tag ≤ 9999 →
    (let outside := fun (args : List Tok) => ∃ d k t rest, args = d :: .kw k :: t :: rest ∧
      (k ∈ [Kw.VIDEO, .TRIM, .RECALL, .PUSH, .POP, .RESET, .SOURCE, .MODE] ∧ beyond .P 8 t ∨
        k ∈ [Kw.RECALL, .PUSH] ∧ (∃ n more, rest = n :: more ∧ beyond .PS 16 n) ∨
        k = .GPO ∧ beyond .Q 8 t)
     wordsRefused s tag (fun args => exec (.takAdd tag args) s)
      (fun args => ¬ outside args ∧ ∀ d words, args = d :: words → Tok.due? d = none ∨ readAction words = none)
      outside) ∧
    wordsRefused s tag (fun args => exec (.takCancel tag args) s)
      (fun args => ∀ t, args = [t] → Tok.int? t = none)
      (fun args => ∃ t n, args = [t] ∧ Tok.int? t = some n ∧ (n < 0 ∨ 65535 < n)) ∧
    (∀ (d : Tok) (words : List Tok) (f : DueForm) (a : TakeAction), Tok.due? d = some f →
      readAction words = some a →
      let go := exec (.takAdd tag (d :: words)) s
      let named := match f with
        | .absolute n => n
        | .relative k => s.fc + BitVec.ofNat 32 (max 1 (min k 10000))
      let clamped := match f with
        | .absolute _ => false
        | .relative k => decide (k < 1 ∨ 10000 < k)
      let lead := (named - s.fc).toNat
      let late := decide (lead = 0 ∨ 2 ^ 31 ≤ lead)
      let due := if late then s.fc + 1 else named
      let near := fun (e : TakeEntry) => decide ((e.due - s.fc).toNat ≤ (due - s.fc).toNat)
      (32 ≤ s.takes.length → go = .next (s.erTo tag .full)) ∧
      (s.takes.length < 32 → ∃ j : Nat,
        let e : TakeEntry := { id := s.nextId + BitVec.ofNat 16 j, named := named, due := due, late := late,
                               action := a }
        (∀ x ∈ s.takes, x.id ≠ e.id) ∧ (∀ i < j, ∃ x ∈ s.takes, x.id = s.nextId + BitVec.ofNat 16 i) ∧
        go = .next (State.okTo
          { s with takes := s.takes.takeWhile near ++ e :: s.takes.dropWhile near, nextId := e.id + 1 } tag
          [.num e.id.toNat, .num due.toNat]
          ((if clamped then [.clamped] else []) ++ if late then [.late] else [])))) ∧
    ∀ (t : Tok) (n : Int), Tok.int? t = some n →
      let go := exec (.takCancel tag [t]) s
      (0 ≤ n → n ≤ 65535 → (∀ e ∈ s.takes, (e.id.toNat : Int) ≠ n) → go = .next (s.erTo tag .nosuch)) ∧
      (∀ (before after : List TakeEntry) (e : TakeEntry), s.takes = before ++ e :: after →
        (e.id.toNat : Int) = n → (∀ x ∈ before ++ after, x.id ≠ e.id) →
        go = .next (State.okTo { s with takes := before ++ after } tag [.num e.id.toNat, .num e.due.toNat]))

/-- R180: a take entry acts as its request would: the same state, with DONE where the request is answered OK, CLAMPED where it
is answered OK with CLAMPED, and STATE where it is refused. A SOURCE entry carries the cause TAKE, in the pending change of a
RUNNING programme and in the SRC notice of a PARKED one. That the notices of a request stand before its reply is the model's
reading (log entry 17), and so is what a change beside a fade down begun late joins, and that one which finds its programme
OPEN since this sample's boundary begins at once (49); so are a lane left that is already on the source, and its word of the
house sample in progress (31 and 3). A fade position is 0 while no fade runs, by the model's choice (log entry 80). -/
def Obligations.TakeEntryActsAsItsRequest : Prop :=
  ∀ (s : State) (tag : Nat) (p : ProgId) (n : PresetId) (l : LineId) (v : Int) (m : Mode) (z : SrcSel) (b : Bool),
    Ready s → tag ≤ 9999 →
    let alike := fun (a : TakeAction) (c : Instr) =>
      ∃ fields, exec c s = .next ((applyAction a s).1.sendReply (some tag)
        (match (applyAction a s).2 with
          | .done => .ok fields []
          | .clamped => .ok fields [.clamped]
          | .state => .er .state))
    let P := Tok.num p.val
    alike (.video p v) (.dlyVideo tag [P, .num v]) ∧
    alike (.trim p v) (.dlyTrim tag [P, .num v]) ∧
    alike (.recall p n) (.presetRecall tag [P, .num n.val]) ∧
    alike (.push p n) (.presetPush tag [P, .num n.val]) ∧
    (2 ≤ s.pgms[p].cor.stack.length → alike (.pop p) (.presetPop tag [P])) ∧
    alike (.reset p) (.mtrReset tag [P]) ∧
    alike (.mode p m) (.pgmMode tag [P, .kw m.kw]) ∧
    alike (.gpo l b) (.gpoSet tag [.num l.val, .num (if b then 1 else 0)]) ∧
    ((applyAction (.source p z) s).2 = .state ↔ exec (.pgmSource tag [P, .kw z.kw]) s = .next (s.erTo tag .state)) ∧
    (s.pgms[p].ctl.state = .running → (applyAction (.source p z) s).2 = .done →
      (applyAction (.source p z) s).1 = s.updCtl p fun c =>
        changeTaken s.boundaryHere { c with pending := { c.pending with source := some (z, .take) } }) ∧
    (s.pgms[p].ctl.state = .parked → s.pgms[p].ctl.active = z → applyAction (.source p z) s =
      (s, if z = .backup ∧ ∃ k ∈ s.pgms[p].ctl.lanes, s.lanes[k].backup = none then .state else .done)) ∧
    (s.pgms[p].ctl.state = .parked → s.pgms[p].ctl.active ≠ z → (applyAction (.source p z) s).2 = .done →
      let c := s.pgms[p].ctl
      let u := (applyAction (.source p z) s).1
      u.pgms[p].ctl = { c with active := z, changeovers := min 65535 (c.changeovers + 1),
                               lcPgm := u.lcOf c.lanes, pads := u.padsOf c.lanes } ∧
      u.pgms[p] = { s.pgms[p] with ctl := u.pgms[p].ctl, dly := u.pgms[p].dly } ∧
      u.pgms[p].dly = (if u.lcOf c.lanes = c.lcPgm ∧ u.padsOf c.lanes = c.pads then s.pgms[p].dly
        else lengthFormed (u.lcOf c.lanes) s.pgms[p].dly) ∧
      (∀ k : LaneId, k ∈ c.lanes → u.lanes[k] = laneSetTo s z k) ∧
      (∀ k : LaneId, k ∉ c.lanes → u.lanes[k] = s.lanes[k]) ∧
      (∀ q, q ≠ p → u.pgms[q] = s.pgms[q]) ∧
      u = { s with lanes := u.lanes, pgms := u.pgms,
                   link := s.link.notice (.notice .src
                     [.num p.val, .kw z.kw, .kw .TAKE, .num (min 65535 (c.changeovers + 1)),
                      .num (u.lcOf c.lanes)]) })

/-! ### The link, the profile and the starts (12) -/

/-- R189, R190: a notice goes to the FIFO while the gate is OPEN and the FIFO holds fewer than 40 lines, and else joins the
held-notice list, which loses its oldest line at 16 and counts it. GATE CLOSE closes the gate; GATE OPEN opens
it and sends the held lines, a LOST notice where lines were lost, and its reply. ATN is asserted while a line is
held. -/
def Obligations.GateHoldsNotices : Prop :=
  (∀ (s : State) (k : NoticeKind) (fields : List Fld),
    let x := Line.notice k fields
    (s.link.gateOpen = true → s.link.fifo.length < 40 →
      s.notify k fields = { s with link := { s.link with fifo := s.link.fifo ++ [x] } }) ∧
    (s.link.gateOpen = false ∨ 40 ≤ s.link.fifo.length →
      (s.link.held.length < 16 →
        s.notify k fields = { s with link := { s.link with held := s.link.held ++ [x] } }) ∧
      (16 ≤ s.link.held.length →
        s.notify k fields = { s with link :=
          { s.link with held := s.link.held.tail ++ [x], lost := min 65535 (s.link.lost + 1) } }))) ∧
  (∀ s : State, s.atnPin = (if s.link.held = [] then !s.link.atnHigh else s.link.atnHigh)) ∧
  ∀ (s : State) (tag : Nat), Ready s → tag ≤ 9999 →
    exec (.gateClose tag []) s = .next (State.okTo { s with link := { s.link with gateOpen := false } } tag []) ∧
    exec (.gateOpen tag []) s =
      .next (State.okTo
        { s with link :=
          { s.link with gateOpen := true, held := [], lost := 0,
                        fifo := s.link.fifo ++ s.link.held ++
                          (if 0 < s.link.lost then [.notice .lost [.num s.link.lost]] else []) } }
        tag [.num s.link.held.length, .num s.link.lost])

/-- R192, R193: SAVE snapshots the configuration and enters SAVING, and is refused with BUSY while SAVING; the end of
a save stores the snapshot with its CRC-32, or leaves an image that does not agree, and sends a SAVED notice. The snapshot
holds every item of the table of R192 as it stands: the rate; both sources of each lane; of each defined programme its
layout, lanes, base preset, whether it is RUNNING or PARKED, its mode, revert policy and hold, V, O and motion mode, and of an
UNDEFINED one nothing; the presets; each point's record with its enabled field; each input line's polarity, debounce count and
function; the watcher's mode, mask and compare word; and each output line's polarity, manual level and place in the hold mask.
A power loss while SAVING breaks the image. What else a power loss leaves is the model's choice (log entry 36), and so is that
an end without a save does nothing (log entry 1). -/
def Obligations.SaveWritesProfile : Prop :=
  ∀ (s : State) (tag : Nat), Ready s → tag ≤ 9999 →
    let none := s.profile.saving = .none
    (none → ∃ img : Image,
      exec (.save tag []) s = .next (State.okTo { s with profile := { s.profile with saving := some img } } tag []) ∧
      img.rate = s.ref.rate ∧ img.presets = s.presets ∧
      img.watch = { mode := s.watch.cfg.mode, mask := s.watch.cfg.mask, compare := s.watch.cfg.compare } ∧
      (∀ k : LaneId, img.lanes[k] = (s.lanes[k].main, s.lanes[k].backup)) ∧
      (∀ p : ProgId,
        let c := s.pgms[p].ctl
        let d := s.pgms[p].dly
        img.pgms[p] = if c.state = .undefined then .none
          else some { layout := c.layout, lanes := c.lanes, basePreset := c.basePreset
                      running := decide (c.state = .running), mode := c.mode, revert := c.revert
                      v := d.v, o := d.o, motionMode := d.motionMode }) ∧
      (∀ n : PointId,
        let x := s.points[n].cfg
        img.points[n] = { enabled := x.enabled, measure := x.measure, subject := x.subject, sense := x.sense
                          threshold := x.threshold, hyst := x.hyst, stride := x.stride, phase := x.phase
                          raise := x.raise, clear := x.clear, notify := x.notify, gpo := x.gpo, action := x.action }) ∧
      (∀ l : LineId,
        let x := s.gpis[l].cfg
        let y := s.gpos[l].cfg
        img.gpis[l] = { polarity := x.polarity, debounce := x.debounce, func := x.func } ∧
        img.gpos[l] = { polarity := y.polarity, manual := y.manual, held := y.held })) ∧
    (¬ none → exec (.save tag []) s = .next (s.erTo tag .busy)) ∧
    (∀ img, s.profile.saving = some img →
      let crc := Config.crc32 img
      exec (.saveComplete true) s =
        .next (State.notify
          { s with profile := { store := .image img crc, status := .valid, saving := .none, lastSave := some true } }
          .saved [.kw .OK, .num crc.toNat]) ∧
      exec (.saveComplete false) s =
        .next (State.notify
          { s with profile := { store := .broken, status := .invalid, saving := .none, lastSave := some false } }
          .saved [.kw .FAIL, .num crc.toNat])) ∧
    (∀ ok, none → exec (.saveComplete ok) s = .next s) ∧
    exec .powerLoss s = .next { s with
      powered := false
      profile := { s.profile with store := if none then s.profile.store else .broken, saving := .none } }

/-- R194, R195: a start with cause POWER, PIN or FULL without a VALID image is the reset state with the straps as read
and a HELLO notice, and the rest of a line begun before it is to be discarded; after RESTART FULL the FIFO's lines and
the reply have been sent, and the lines that waited are gone. The reset values that no rule
gives are the model's choices (log entries 8, 11, 13, 20 and 37), and so are the start of a part whose supply is present
and what RESTART FULL leaves on TXD (log entries 19 and 38). -/
def Obligations.StartWithoutImage : Prop :=
  ∀ (s : State) (baud atn : Bool) (tag : Nat),
    let made := fun (cause : StartCause) (b a : Bool) (store : Store) (sent : List Line) =>
      { State.reset with
        cause := cause
        link := { State.reset.link with
          rx := { chars := [], bad := false, tooLong := false,
                  skip := decide (s.link.rx.skip = true ∨ s.link.rx.tooLong = true ∨ s.link.rx.chars ≠ []) }
          fast := b, atnHigh := a, txd := sent
          fifo := [.notice .hello [.kw .OJ_2408, .kw cause.kw, .kw store.status.kw,
            .num (if b then 460800 else 115200)]] }
        profile := { store := store, status := store.status, saving := none, lastSave := none }
        pins := { baudsel := b, atnpol := a, gpi := s.pins.gpi, out := Vector.replicate 24 0 }
        freeSeed := s.freeSeed, pending := s.pending }
    let store := if s.profile.saving = none then s.profile.store else .broken
    (store = .never ∨ store = .broken →
      exec (.powerOn baud atn) s = .next (made .power baud atn store []) ∧
      (s.powered = true → exec (.resetnRelease baud atn) s = .next (made .pin baud atn store [])) ∧
      (Ready s → tag ≤ 9999 → s.profile.saving = none →
        exec (.restartFull tag []) s =
          .next (made .full s.pins.baudsel s.pins.atnpol store
            (s.link.fifo ++ [.reply (some tag) (.ok [] [])])))) ∧
    (Ready s → tag ≤ 9999 → s.profile.saving ≠ none →
      exec (.restartFull tag []) s = .next (s.erTo tag .busy) ∧
      exec (.restartProc tag []) s = .next (s.erTo tag .busy))

/-- R58, R79, R102, R119, R153, R165, R192, R194, R195: a start from a VALID image takes its rate, lane sources, programmes,
presets, points, contact settings and watcher settings from it, and everything else stands at its reset value; each
programme it stores as RUNNING is run, unless the pool has no page for each of its lanes, and every other one it defines
is PARKED. A PAGES notice for each programme left SHORT and a HELLO notice with the cause stand in the FIFO. The starts of
PIN and FULL differ in their cause and straps alone, and in the lines that RESTART FULL has sent. These are the model's, and
no rule's: the straps that stand at RESTART FULL (log entry 20); the settings of the probe and of the slots (37); what an
absent item of an UNDEFINED programme holds (11); the flags of a meter at its start (75); the levels before the first instant
(13); the read positions of the lanes, the start of a part whose supply is present, and the field of the lines that have left
on TXD (8, 19 and 38); and that a programme which finds no pages is left PARKED (46). -/
def Obligations.StartFromImage : Prop :=
  ∀ (s : State) (baud atn : Bool) (img : Image) (crc : BitVec 32), s.profile.store = .image img crc →
    s.profile.saving = none →
    ∃ t, exec (.powerOn baud atn) s = .next t ∧
      (let free := fun (p : ProgId) => 2048 - ((allProgs.filter (· ≤ p)).map fun q =>
        t.pagesHeld q * min 8 t.pgms[q].ctl.lanes.length).sum
       let told := (allProgs.filter fun p => t.pgms[p].dly.short).map fun p =>
        let d := t.pgms[p].dly
        Line.notice .pages [.num p.val, .num (t.pagesHeld p), .num (max 1 ((d.dReq + 1023) / 1024) : Nat),
          .num d.dTarget, .kw .SHORT, .num (free p)]
       let made := fun (why : StartCause) (b a : Bool) (sent : List Line) =>
        { State.reset with
          cause := why, ref := t.ref, lanes := t.lanes, pgms := t.pgms, owners := t.owners, presets := t.presets
          points := t.points, gpis := t.gpis, gpos := t.gpos
          watch := { cfg := img.watch, equal := img.watch.agrees 0, latched := false, word := none }
          link := { State.reset.link with
            rx := { chars := [], bad := false, tooLong := false,
                    skip := decide (s.link.rx.skip = true ∨ s.link.rx.tooLong = true ∨ s.link.rx.chars ≠ []) }
            fast := b, atnHigh := a, txd := sent
            fifo := told ++ [.notice .hello [.kw .OJ_2408, .kw why.kw, .kw .VALID,
              .num (if b then 460800 else 115200)]] }
          profile := { store := .image img crc, status := .valid, saving := none, lastSave := none }
          pins := { baudsel := b, atnpol := a, gpi := s.pins.gpi, out := Vector.replicate 24 0 }
          freeSeed := s.freeSeed, pending := s.pending }
       t = made .power baud atn [] ∧
       (s.powered = true → exec (.resetnRelease baud atn) s = .next (made .pin baud atn [])) ∧
       ∀ tag, Ready s → tag ≤ 9999 → exec (.restartFull tag []) s =
        .next (made .full s.pins.baudsel s.pins.atnpol (s.link.fifo ++ [.reply (some tag) (.ok [] [])]))) ∧
      t.cause = .power ∧ t.hc = 0 ∧ t.fc = 0 ∧ t.ref = Ref.start img.rate img.rate.period ∧
      t.presets = img.presets ∧ t.watch.cfg = img.watch ∧ t.profile.status = .valid ∧ t.takes = [] ∧
      (∀ k : LaneId, t.lanes[k] = Lane.start img.lanes[k].1 img.lanes[k].2) ∧
      (∀ n : PointId, t.points[n] = Point.start img.points[n]) ∧
      (∀ l : LineId, t.gpis[l] = Gpi.start img.gpis[l] ∧ t.gpos[l] = Gpo.start img.gpos[l]) ∧
      ∀ p : ProgId,
        (img.pgms[p] = none → t.pgms[p] = Pgm.undefined) ∧
        ∀ x, img.pgms[p] = some x →
          let g := t.pgms[p]
          g.ctl.layout = x.layout ∧ g.ctl.lanes = x.lanes ∧ g.ctl.basePreset = x.basePreset ∧
          g.ctl.mode = x.mode ∧ g.ctl.revert = x.revert ∧ g.ctl.active = .main ∧ g.ctl.changeovers = 0 ∧
          g.dly.v = x.v ∧ g.dly.o = x.o ∧ g.dly.motionMode = x.motionMode ∧
          g.cor = Correction.start [x.basePreset] ∧ g.mtr = Meter.start x.lanes.length ∧
          (x.running = false → g.ctl.state = .parked ∧ g.ctl.out = .silent) ∧
          (x.running = true → 1 ≤ x.lanes.length →
            g.ctl.state = .running ∧ g.ctl.out = .fadingUp ∨
              g.ctl.state = .parked ∧ t.freePages < x.lanes.length)

/-- R195 with R2, R15, R29, R38, R58, R79, R98, R119, R120, R153, R165, R166, R185, R194: RESTART PROC keeps time, the
reference, the profile, the presets, the link and every setting; it empties the take queue and the event FIFO, frees the
captures, idles the probe, puts every point and port at its start, and every lane on MAIN; a defined programme keeps its state
and its settings, on MAIN with its meter and its gain at their starting values, and a RUNNING one has its line at the length
its D_req and its pages allow, SHORT where the pages fall below the need. The reply comes first, then the PAGES notices, of
each programme left SHORT or freed from it, and the HELLO notice. These are the model's, and no rule's: the PAGES notice of a
programme freed from SHORT (log entry 23) and the free count it carries, without a service behind the pages given back (24);
that a scan still due is dropped (27); the settings of the probe and of the slots (37), the flags of a meter at its start
(75), and the streams and read positions (8); that a line partly received stays in the receive line buffer (79); and that the
house sample in which it is taken carries the restarted lanes (62). A fade position is 0 while no fade runs, by the model's
choice (log entry 80). -/
def Obligations.RestartProcKeepsConfiguration : Prop :=
  ∀ (s : State) (tag : Nat), Ready s → tag ≤ 9999 → s.profile.saving = none →
    ∃ t, exec (.restartProc tag []) s = .next t ∧
      t.cause = .proc ∧ t.takes = [] ∧ t.gpiFifo = [] ∧ t.gpiOverflow = false ∧ t.gpiFirst = true ∧
      t.probe = Probe.reset ∧ t.scanNo = 0 ∧
      (∀ i : PortId, t.ports[i] = Port.reset) ∧
      (∀ k : LaneId, t.lanes[k] = Lane.start s.lanes[k].main s.lanes[k].backup) ∧
      (∀ n : PointId, t.points[n] = Point.start s.points[n].cfg) ∧
      (∀ c : SlotId, t.slots[c] = Slot.reset ∧ t.slotPages c = 0) ∧
      (∀ l : LineId, t.gpis[l] = { s.gpis[l] with run := 0, runStart := none } ∧
        t.gpos[l] = { s.gpos[l] with contrib := [] }) ∧
      t.watch = { s.watch with latched := false, word := none, equal := s.watch.cfg.agrees s.gpiLevels } ∧
      (∀ p : ProgId, s.pgms[p].ctl.state ≠ .undefined →
        let c := s.pgms[p].ctl
        let g := t.pgms[p]
        g.ctl = { c with active := .main, revertCount := 0, changeovers := 0, lcPgm := 96,
                         pads := List.replicate c.lanes.length 0, inflight := none, pending := Change.empty,
                         out := if c.state = .running then .opened else .silent, fadePos := 0,
                         fadeHold := false } ∧
        g.mtr = Meter.start c.lanes.length ∧ g.cor = Correction.start [c.basePreset] ∧
        g.dly.v = s.pgms[p].dly.v ∧ g.dly.o = s.pgms[p].dly.o ∧
        g.dly.motionMode = s.pgms[p].dly.motionMode ∧
        (c.state = .running → g.dly.motion = .still ∧ g.dly.hist = 0 ∧ g.dly.pendTarget = none ∧
          g.dly.dApp = g.dly.dTarget ∧ g.dly.dReq = (lengthFormed 96 s.pgms[p].dly).dReq ∧
          g.dly.short = decide (t.pagesHeld p * 1024 < max 1 g.dly.dReq) ∧
          g.dly.dTarget = min g.dly.dReq (t.pagesHeld p * 1024))) ∧
      (∃ told : List Line, (∀ x ∈ told, ∃ fields, x = .notice .pages fields) ∧
        t.link = (s.link.reply (some tag) (.ok [] [])).notices (told ++
          [.notice .hello [.kw .OJ_2408, .kw .PROC, .kw s.profile.status.kw,
            .num (if s.link.fast then 460800 else 115200)]]) ∧
        ((∀ c : SlotId, s.slotPages c = 0) →
          let runs := fun (p : ProgId) => decide (s.pgms[p].ctl.state = .running)
          let need := fun (p : ProgId) => max 1 ((t.pgms[p].dly.dReq + 1023) / 1024)
          let later := fun (p : ProgId) => ((allProgs.filter fun q => runs q && decide (p < q)).map fun q =>
            (t.pagesHeld q - min (s.pagesHeld q) (need q)) * min 8 s.pgms[q].ctl.lanes.length).sum
          told = (allProgs.filter fun p => runs p && (t.pgms[p].dly.short || s.pgms[p].dly.short)).map fun p =>
            .notice .pages [.num p.val, .num (t.pagesHeld p), .num (need p), .num t.pgms[p].dly.dTarget,
              .kw (if t.pgms[p].dly.short then .SHORT else .MET), .num (t.freePages + later p : Nat)])) ∧
      t = { s with cause := t.cause, ports := t.ports, lanes := t.lanes, pgms := t.pgms, owners := t.owners,
                   probe := t.probe, reports := t.reports, scanDue := false, scanNo := 0, points := t.points,
                   gpis := t.gpis, gpiFirst := true, gpiFifo := [], gpiOverflow := false, watch := t.watch,
                   gpos := t.gpos, slots := t.slots, takes := [], link := t.link }

/-- R186 to R188, R194: a character joins the receive line buffer, a carriage return is discarded, a missing stop bit marks
the line bad, the 161st character makes it too long, and a line feed hands the line on as its command; an empty line,
and the rest of a line begun before the HELLO notice, give nothing. A line is taken while the FIFO holds 40 lines or
fewer and none waits, and waits otherwise; a line too long, a bad line, one without a tag and one with an unknown verb
are answered by name and change nothing else; and each line that leaves on TXD lets the waiting lines in, in order,
while there is room. These are the model's: that characters reach the part outside the queue, and that one without
supply discards them (log entries 15 and 18); that a carriage return or line feed without its stop bit joins the buffer,
and that a bad line of spaces gives nothing (55); that a line which is no request waits too (39); that a tag alone is
answered SYNTAX (59); that a tag with leading zeros is answered with its number (88); and the field of the lines that have
left on TXD (38). -/
def Obligations.LinesAreTakenInOrder : Prop :=
  (∀ (s : State) (c : Char) (framed : Bool),
    let r := s.link.rx
    let u := receiveChar c framed s
    let made := fun (x : Receiver) => { s with link := { s.link with rx := x } }
    let empty : Receiver := { chars := [], bad := false, tooLong := false, skip := false }
    let ends := framed = true ∧ (c = '\r' ∨ c = '\n')
    let gives := fun (i : Instr) => exec i (made empty) = .next u
    (s.powered = true →
      (framed = true → c = '\r' → u = s) ∧
      (framed = true → c = '\n' →
        (r.skip = true ∨ (r.tooLong = false ∧ ∀ x ∈ r.chars, x = ' ') → u = made empty) ∧
        (r.skip = false → r.tooLong = true → gives .lineTooLong) ∧
        ∀ w ws, r.skip = false → r.tooLong = false → lineWords r.chars = w :: ws →
          gives (if r.bad then .badLine (tagOf w) else
            match tagOf w with
            | none => .badLine none
            | some tag => if ws = [] then .badLine (some tag) else readVerb tag ws)) ∧
      (¬ ends → r.skip = true ∨ r.tooLong = true → u = s) ∧
      (¬ ends → r.skip = false → r.tooLong = false → r.chars.length < 160 →
        u = made { r with chars := r.chars ++ [c], bad := r.bad || !framed }) ∧
      (¬ ends → r.skip = false → r.tooLong = false → 160 ≤ r.chars.length →
        u = made { empty with tooLong := true })) ∧
    (s.powered = false →
      let begun := decide (r.skip = true ∨ r.tooLong = true ∨ r.chars ≠ [])
      u = made { empty with skip := if ends then decide (c = '\r') && begun else true })) ∧
  (∀ (s : State) (c : Instr), s.powered = true → isLine c = true → (40 < s.link.fifo.length ∨ s.link.waiting ≠ []) →
    exec c s = .next { s with link := { s.link with waiting := s.link.waiting ++ [c] } }) ∧
  (∀ s : State, Ready s →
    let untagged := fun (e : ErrCode) => { s with link :=
      { s.link with fifo := s.link.fifo ++ [.reply none (.er e)], badLines := min 65535 (s.link.badLines + 1) } }
    exec .lineTooLong s = .next (untagged .toolong) ∧ exec (.badLine none) s = .next (untagged .synErr) ∧
    exec (.unknownVerb none) s = .next (untagged .synErr) ∧
    ∀ tag, tag ≤ 9999 →
      exec (.unknownVerb (some tag)) s = .next (s.erTo tag .verb) ∧
      exec (.badLine (some tag)) s = .next (s.erTo tag .synErr)) ∧
  (∀ (s : State) (c : Instr), Ready s → isLine c = true → exec c s = .next (runLine c s)) ∧
  ∀ s : State, s.powered = true →
    let sent := fun (x : Line) (rest : List Line) => { s with link := { s.link with fifo := rest, txd := [x] } }
    (s.link.fifo = [] → exec .txLineSent s = .next s) ∧
    (∀ x rest, s.link.fifo = x :: rest → (s.link.waiting = [] ∨ 40 < rest.length) →
      exec .txLineSent s = .next (sent x rest)) ∧
    (∀ x rest i w, s.link.fifo = x :: rest → rest.length ≤ 40 → s.link.waiting = i :: w →
      exec .txLineSent s =
        .next (takeWaiting w.length (runLine i ((sent x rest).updLink fun l => { l with waiting := w }))))

/-- R1, R14, R28, R37, R57, R81, R82, R99, R100, R104, R131, R152, R158, R162, R164, R175, R183, R191: each query is answered
OK with the items its rule names, in the order of section 12.4, and changes nothing else but the counts that CLEAR names and,
for WATCH?, the latched flag and word. That an empty onset list gives no field, that a probe without TRIM shows a dash, that
the settings and cursors of a slot never armed show as dashes and 0, the order of a trigger set, and that the need follows
D_app through a slew are the model's (log entries 51, 64, 37, 56 and 71). So are the numbers that name things without their
letters (81), the word NONE for no subject (82), and the last value and last scan that ALM SET and ALM OFF leave (83), and the
read cursors of a slot in one field, joined by commas (87). A number with a minus sign is read also where it is no signed one,
and is then out of range or clamped, by the model's choice (log entry 85). -/
def Obligations.QueriesReportState : Prop :=
  ∀ (s : State) (tag : Nat), Ready s → tag ≤ 9999 →
    let kwOr := fun (o : Option Kw) => optFld Fld.kw o
    exec (.timeQuery tag []) s = .next (s.okTo tag [.num s.hc.toNat, .num s.fc.toNat]) ∧
    exec (.refQuery tag []) s = .next (s.okTo tag
      [.kw s.ref.state.kw, .milli s.ref.rate.milli, .num s.ref.rate.period, .num s.ref.tracked, .num s.ref.count,
       optBv s.ref.lastPulse, .num s.fc.toNat]) ∧
    (∀ t i, Tok.fin? .IN 6 t = some i →
      let p := s.ports[i]
      let fields : List Fld :=
        [.kw p.state.kw, kwOr (p.cls.map RateClass.kw), optNat p.ratio, optNat p.lastMeas,
         (match p.lastMeas with
          | none => .dash
          | some r => if inRange r then .num (deviation r (nearestClass r)) else .dash),
         .num p.agree, .num p.relock, .num p.lockLoss]
      exec (.portQuery tag [t]) s = .next (s.okTo tag fields) ∧
      exec (.portQuery tag [t, .kw .CLEAR]) s =
        .next (State.okTo { s with ports := s.ports.set i { p with lockLoss := 0 } } tag fields)) ∧
    exec (.portQuery tag []) s = .next (s.okTo tag
      (allPorts.flatMap fun i => [.kw s.ports[i].state.kw, kwOr (s.ports[i].cls.map RateClass.kw)])) ∧
    (∀ t k, Tok.fin? .L 24 t = some k →
      let l := s.lanes[k]
      let fields : List Fld :=
        [(match l.main with
          | some x => .src x.port.val x.chan.val
          | none => .kw .NONE),
         (match l.backup with
          | some x => .src x.port.val x.chan.val
          | none => .dash),
         .kw l.current.kw, .kw (if l.valid then .YES else .NO), .kw l.fade.kw, .num l.lc, .num l.slips]
      exec (.laneQuery tag [t]) s = .next (s.okTo tag fields) ∧
      exec (.laneQuery tag [t, .kw .CLEAR]) s =
        .next (State.okTo { s with lanes := s.lanes.set k { l with slips := 0 } } tag fields)) ∧
    exec (.laneQuery tag []) s = .next (s.okTo tag
      (allLanes.flatMap fun k => [.kw s.lanes[k].current.kw, .kw (if s.lanes[k].valid then .YES else .NO)])) ∧
    (∀ t p, Tok.fin? .P 8 t = some p →
      let c := s.pgms[p].ctl
      let d := s.pgms[p].dly
      let m := s.pgms[p].mtr
      let r := s.pgms[p].cor
      let run := fun (n : Nat) => Fld.num (if c.state = .running then (n : Int) else 0)
      let items : List Fld :=
        if c.state = .undefined then
          [.kw .UNDEFINED, .dash, .dash, .dash, .dash, .dash, .dash, .dash, .dash, .num c.changeovers, .dash, .dash,
           .dash, .dash, .dash]
        else
          [.kw c.state.kw, .kw c.layout.kw, finsFld c.lanes, .num c.basePreset.val, .kw c.mode.kw, .kw c.active.kw,
           .kw (if c.revert.isSome then .AUTO else .MANUAL), optNat c.revert, .num c.revertCount,
           .num c.changeovers, .num c.lcPgm, .nums (c.pads.map fun n => (n : Int)), .kw c.out.kw,
           kwOr (c.pending.source.map fun x => x.1.kw), kwOr (c.pending.mode.map Mode.kw)]
      exec (.pgmQuery tag [t]) s = .next (s.okTo tag items) ∧
      exec (.pgmQuery tag [t, .kw .CLEAR]) s =
        .next (State.okTo (s.updCtl p fun c => { c with changeovers := 0 }) tag items) ∧
      (c.state = .undefined →
        exec (.dlyQuery tag [t]) s = .next (s.okTo tag (List.replicate 15 .dash)) ∧
        exec (.presetPgmQuery tag [t]) s = .next (s.okTo tag (List.replicate 8 .dash))) ∧
      (c.state ≠ .undefined →
        exec (.dlyQuery tag [t]) s = .next (s.okTo tag
          [.num d.v, .num d.o, .num d.t, .num c.lcPgm, .num d.dReq, run d.dTarget, run d.dApp,
           run (s.pagesHeld p), run (s.need p), run d.hist, .kw d.motionMode.kw, .kw d.motion.kw,
           optNat d.pendTarget, .kw (if d.short then .SET else .CLEAR), .kw (if d.floor then .SET else .CLEAR)]) ∧
        let fields : List Fld :=
          [finsFld r.stack, .num r.overflow, .num r.underflow, .num r.gStar, .num r.g, .num r.multNow, .num r.mNew,
           .kw r.hold.kw]
        exec (.presetPgmQuery tag [t]) s = .next (s.okTo tag fields) ∧
        exec (.presetPgmQuery tag [t, .kw .CLEAR]) s =
          .next (State.okTo (s.updCor p fun r => { r with overflow := 0, underflow := 0 }) tag fields)) ∧
      let report : List Fld := match m.lastReport with
        | some x => [.num x.1, .kw (if x.2 then .VALID else .INVALID)]
        | none => [.dash, .dash]
      let corr : List Fld := match m.corr with
        | .absent => [.dash]
        | .undefined => [.num 0, .kw .U]
        | .value k => [.num k]
      let levels : List Fld :=
        [.kw c.state.kw, optInt m.lm, optInt m.ls, optInt m.li, .num m.admitted, .num m.ring.length]
      exec (.mtrQuery tag [t]) s = .next (s.okTo tag (levels ++ report ++ corr ++ [.num m.clip])) ∧
      ∀ b n, Tok.int? b = some n →
        let first := (max 0 (min n 299)).toNat
        exec (.mtrBinsQuery tag [t, b]) s = .next (s.okTo tag
          (.num first :: ((m.bins.toList.drop first).take 10).map fun (n : Nat) => .num n)
          (if (first : Int) ≠ n then [.clamped] else []))) ∧
    exec (.pgmQuery tag []) s = .next (s.okTo tag
      (allProgs.flatMap fun (p : ProgId) =>
        let c := s.pgms[p].ctl
        if c.state = .undefined then [.kw .UNDEFINED, .dash, .dash]
        else [.kw c.state.kw, .kw c.mode.kw, .kw c.active.kw])) ∧
    (let short := allProgs.filter fun p => s.pgms[p].dly.short
     exec (.dlyQuery tag []) s = .next (s.okTo tag
      [.num s.freePages, .num s.linePages, .num s.capturePages, if short = [] then .dash else finsFld short])) ∧
    (∀ t n, Tok.fin? .PS 16 t = some n →
      let r := s.presets[n]
      exec (.presetQuery tag [t]) s = .next (s.okTo tag
        [.num r.target, .num r.boost, .num r.cut, .num r.attack, .num r.release, .num r.silence, .kw r.mode.kw])) ∧
    (s.probe.state = .idle →
      exec (.prbQuery tag []) s = .next (s.okTo tag (.kw .IDLE :: List.replicate 14 .dash))) ∧
    (s.probe.state ≠ .idle →
      let r := s.probe
      let head : List Fld :=
        [.kw r.state.kw, optFld finFld r.pgm, optFld finFld r.marker, .num r.w, .num r.threshold, .num r.timeout,
         if r.trim then .kw .TRIM else .dash, optBv r.armAt, optBv r.expiry, .num r.ring.length, optBv r.t,
         optBv r.region, .num r.windows, .num r.seen]
      let onsets : List Fld := r.onsets.flatMap fun o =>
        [.num o.location, .num (peakLevel o.peak), .kw (if 0 < o.peak.toInt then .POS else .NEG)]
      exec (.prbQuery tag []) s =
        .next (s.okTo tag (head ++ onsets ++ [kwOr (r.cancel.map CancelCause.kw)]))) ∧
    (∀ t n, Tok.fin? .A 48 t = some n →
      let x := s.points[n]
      let last : Fld := match x.lastValue with
        | none => .dash
        | some (.num v) => .num v
        | some (.truth b) => .kw (if b then .TRUE else .FALSE)
      let state : List Fld :=
        [.kw x.state.kw, .kw (if x.latched then .SET else .CLEAR), .num x.run, .num x.activations, .num x.skips,
         last, optBv x.lastScan]
      let fields := pointShown x.cfg ++ state
      exec (.almQuery tag [t]) s = .next (s.okTo tag fields) ∧
      exec (.almQuery tag [t, .kw .CLEAR]) s =
        .next (State.okTo { s with points := s.points.set n { x with activations := 0, skips := 0 } } tag fields)) ∧
    exec (.almListQuery tag []) s = .next (s.okTo tag
      (.num s.scanNo.toNat :: allPoints.flatMap fun n =>
        [.kw s.points[n].state.kw, .kw (if s.points[n].latched then .SET else .CLEAR)])) ∧
    (let fifo : List Fld := [.num s.gpiFifo.length, .kw (if s.gpiOverflow then .SET else .CLEAR)]
     exec (.gpiQuery tag []) s = .next (s.okTo tag (.digits s.gpiLevels :: fifo)) ∧
     ∀ t l, Tok.fin? .G 8 t = some l →
      let g := s.gpis[l]
      let settings : List Fld := [.kw g.cfg.polarity.kw, .num g.cfg.debounce]
      let func : List Fld := match g.cfg.func with
        | .nothing => [.kw .NONE]
        | .hold ps => [.kw .HOLD, finsFld ps]
        | .brk ps n => [.kw .BREAK, finsFld ps, .num n.val]
        | .reset ps => [.kw .RESET, finsFld ps]
        | .capture c => [.kw .CAPTURE, .num c.val]
      let level : List Fld := [.kw (if g.level then .ASSERTED else .RELEASED), .num g.run]
      exec (.gpiQuery tag [t]) s = .next (s.okTo tag (settings ++ func ++ level ++ fifo))) ∧
    exec (.watchQuery tag []) s =
      .next (State.okTo { s with watch := { s.watch with latched := false, word := none } } tag
        [.kw s.watch.cfg.mode.kw, finsFld s.watch.cfg.mask, .digits s.watch.cfg.compare,
         .kw (if s.watch.equal then .EQUAL else .NOT_EQUAL), .digits s.gpiLevels,
         .kw (if s.watch.latched then .SET else .CLEAR), optFld Fld.digits s.watch.word]) ∧
    (∀ t l, Tok.fin? .Q 8 t = some l →
      let g := s.gpos[l]
      let bit := fun (b : Bool) => Fld.num (if b then 1 else 0)
      exec (.gpoQuery tag [t]) s = .next (s.okTo tag
        [.kw g.cfg.polarity.kw, bit g.cfg.manual, .num g.contrib.length, optFld finFld g.contrib.head?,
         bit (g.cfg.manual || decide (g.contrib ≠ [])), bit g.pin, .kw (if g.cfg.held then .YES else .NO)])) ∧
    exec (.gpoQuery tag []) s = .next (s.okTo tag
      [.digits s.gpoLevels, finsFld (allLines.filter fun l => s.gpos[l].cfg.held)]) ∧
    (∀ t c, Tok.fin? .C 2 t = some c →
      let x := s.slots[c]
      let set := fun (f : Fld) => if x.pgm = none then .dash else f
      let settings : List Fld :=
        [.kw x.state.kw, optFld finFld x.pgm, set (.num x.lanes), set (.num x.pre), set (.num x.post),
         set (.kw x.mode.kw), set (.trigs x.trigs), .num (s.slotPages c / x.lanes : Nat), optBv x.armAt,
         .num x.recorded, optBv x.trigAt]
      let source : List Fld := match x.trigSrc with
        | none => [.dash]
        | some (.alarm n) => [.kw .ALARM, .num n.val]
        | some .watch => [.kw .WATCH]
        | some (.gpi l) => [.kw .GPI, .num l.val]
        | some .request => [.kw .REQUEST]
      let counts : List Fld :=
        [optNat x.actualPre, .num x.ignored,
         if x.cursors = [] then .num 0 else .nums (x.cursors.map fun n => (n : Int))]
      exec (.capQuery tag [t]) s = .next (s.okTo tag (settings ++ source ++ counts))) ∧
    exec (.capQuery tag []) s = .next (s.okTo tag
      (allSlots.flatMap fun c =>
        [.kw s.slots[c].state.kw, optFld finFld s.slots[c].pgm, .num (s.slotPages c / s.slots[c].lanes : Nat)])) ∧
    (let queue : List Fld := [.num s.fc.toNat, .num s.takes.length, .num s.nextId.toNat]
     let front : List Fld := match s.takes with
      | e :: _ => [.num e.id.toNat, .num e.due.toNat]
      | [] => [.dash, .dash]
     exec (.takQuery tag []) s = .next (s.okTo tag (queue ++ front))) ∧
    (∀ t e, Tok.int? t = some (e.id.toNat : Int) →
      s.takes.find? (fun x => decide (x.id = e.id)) = some e →
      let entry : List Fld :=
        [.num e.id.toNat, .num e.named.toNat, .num e.due.toNat, if e.late then .kw .LATE else .dash, .kw e.action.kw]
      let args : List Fld := match e.action with
        | .video p v => [.num p.val, .num v]
        | .trim p o => [.num p.val, .num o]
        | .recall p n => [.num p.val, .num n.val]
        | .push p n => [.num p.val, .num n.val]
        | .pop p => [.num p.val]
        | .reset p => [.num p.val]
        | .source p z => [.num p.val, .kw z.kw]
        | .mode p m => [.num p.val, .kw m.kw]
        | .gpo l b => [.num l.val, .num (if b then 1 else 0)]
      exec (.takQuery tag [t]) s = .next (s.okTo tag (entry ++ args))) ∧
    (∀ t n, Tok.int? t = some n →
      let k := (max 0 (min n 31)).toNat
      exec (.takListQuery tag [t]) s = .next (s.okTo tag
        (.num k :: ((s.takes.drop k).take 8).flatMap fun e => [.num e.id.toNat, .num e.due.toNat])
        (if (k : Int) ≠ n then [.clamped] else []))) ∧
    (let fields : List Fld :=
      [.kw .OJ_2408, .kw s.cause.kw, .kw s.profile.status.kw,
       .kw (if s.profile.saving.isSome then .SAVING else .IDLE),
       kwOr (s.profile.lastSave.map fun b => if b then .OK else .FAIL),
       .num (if s.link.fast then 460800 else 115200), .kw (if s.link.gateOpen then .OPEN else .CLOSED),
       .num s.link.held.length, .num s.link.lost, .num s.link.badLines]
     exec (.helloQuery tag []) s = .next (s.okTo tag fields) ∧
     exec (.helloQuery tag [.kw .CLEAR]) s =
      .next (State.okTo { s with link := { s.link with badLines := 0 } } tag fields))
end

