-- ==== Sys2Proof/Laws/State.lean ====
section
/-! SUPPORT. The small lemmas of `State`: for each update, what every other field is after it, and what the updated field
is. -/

namespace Sys2Proof.Machine.State

section updPort
variable (s : State) (i : PortId) (f : Port → Port)

@[simp] theorem updPort_powered : (s.updPort i f).powered = s.powered := rfl
@[simp] theorem updPort_cause : (s.updPort i f).cause = s.cause := rfl
@[simp] theorem updPort_hc : (s.updPort i f).hc = s.hc := rfl
@[simp] theorem updPort_phase : (s.updPort i f).phase = s.phase := rfl
@[simp] theorem updPort_fc : (s.updPort i f).fc = s.fc := rfl
@[simp] theorem updPort_closeDue : (s.updPort i f).closeDue = s.closeDue := rfl
@[simp] theorem updPort_gpiDue : (s.updPort i f).gpiDue = s.gpiDue := rfl
@[simp] theorem updPort_boundaryHere : (s.updPort i f).boundaryHere = s.boundaryHere := rfl
@[simp] theorem updPort_ref : (s.updPort i f).ref = s.ref := rfl
@[simp] theorem updPort_lanes : (s.updPort i f).lanes = s.lanes := rfl
@[simp] theorem updPort_pgms : (s.updPort i f).pgms = s.pgms := rfl
@[simp] theorem updPort_owners : (s.updPort i f).owners = s.owners := rfl
@[simp] theorem updPort_presets : (s.updPort i f).presets = s.presets := rfl
@[simp] theorem updPort_probe : (s.updPort i f).probe = s.probe := rfl
@[simp] theorem updPort_reports : (s.updPort i f).reports = s.reports := rfl
@[simp] theorem updPort_scanDue : (s.updPort i f).scanDue = s.scanDue := rfl
@[simp] theorem updPort_scanNo : (s.updPort i f).scanNo = s.scanNo := rfl
@[simp] theorem updPort_points : (s.updPort i f).points = s.points := rfl
@[simp] theorem updPort_gpis : (s.updPort i f).gpis = s.gpis := rfl
@[simp] theorem updPort_gpiFirst : (s.updPort i f).gpiFirst = s.gpiFirst := rfl
@[simp] theorem updPort_gpiFifo : (s.updPort i f).gpiFifo = s.gpiFifo := rfl
@[simp] theorem updPort_gpiOverflow : (s.updPort i f).gpiOverflow = s.gpiOverflow := rfl
@[simp] theorem updPort_watch : (s.updPort i f).watch = s.watch := rfl
@[simp] theorem updPort_gpos : (s.updPort i f).gpos = s.gpos := rfl
@[simp] theorem updPort_slots : (s.updPort i f).slots = s.slots := rfl
@[simp] theorem updPort_takes : (s.updPort i f).takes = s.takes := rfl
@[simp] theorem updPort_nextId : (s.updPort i f).nextId = s.nextId := rfl
@[simp] theorem updPort_link : (s.updPort i f).link = s.link := rfl
@[simp] theorem updPort_profile : (s.updPort i f).profile = s.profile := rfl
@[simp] theorem updPort_pins : (s.updPort i f).pins = s.pins := rfl
@[simp] theorem updPort_freeSeed : (s.updPort i f).freeSeed = s.freeSeed := rfl
@[simp] theorem updPort_pending : (s.updPort i f).pending = s.pending := rfl
theorem updPort_ports : (s.updPort i f).ports = s.ports.set i (f s.ports[i]) := rfl

end updPort

section updLane
variable (s : State) (k : LaneId) (f : Lane → Lane)

@[simp] theorem updLane_powered : (s.updLane k f).powered = s.powered := rfl
@[simp] theorem updLane_cause : (s.updLane k f).cause = s.cause := rfl
@[simp] theorem updLane_hc : (s.updLane k f).hc = s.hc := rfl
@[simp] theorem updLane_phase : (s.updLane k f).phase = s.phase := rfl
@[simp] theorem updLane_fc : (s.updLane k f).fc = s.fc := rfl
@[simp] theorem updLane_closeDue : (s.updLane k f).closeDue = s.closeDue := rfl
@[simp] theorem updLane_gpiDue : (s.updLane k f).gpiDue = s.gpiDue := rfl
@[simp] theorem updLane_boundaryHere : (s.updLane k f).boundaryHere = s.boundaryHere := rfl
@[simp] theorem updLane_ref : (s.updLane k f).ref = s.ref := rfl
@[simp] theorem updLane_ports : (s.updLane k f).ports = s.ports := rfl
@[simp] theorem updLane_pgms : (s.updLane k f).pgms = s.pgms := rfl
@[simp] theorem updLane_owners : (s.updLane k f).owners = s.owners := rfl
@[simp] theorem updLane_presets : (s.updLane k f).presets = s.presets := rfl
@[simp] theorem updLane_probe : (s.updLane k f).probe = s.probe := rfl
@[simp] theorem updLane_reports : (s.updLane k f).reports = s.reports := rfl
@[simp] theorem updLane_scanDue : (s.updLane k f).scanDue = s.scanDue := rfl
@[simp] theorem updLane_scanNo : (s.updLane k f).scanNo = s.scanNo := rfl
@[simp] theorem updLane_points : (s.updLane k f).points = s.points := rfl
@[simp] theorem updLane_gpis : (s.updLane k f).gpis = s.gpis := rfl
@[simp] theorem updLane_gpiFirst : (s.updLane k f).gpiFirst = s.gpiFirst := rfl
@[simp] theorem updLane_gpiFifo : (s.updLane k f).gpiFifo = s.gpiFifo := rfl
@[simp] theorem updLane_gpiOverflow : (s.updLane k f).gpiOverflow = s.gpiOverflow := rfl
@[simp] theorem updLane_watch : (s.updLane k f).watch = s.watch := rfl
@[simp] theorem updLane_gpos : (s.updLane k f).gpos = s.gpos := rfl
@[simp] theorem updLane_slots : (s.updLane k f).slots = s.slots := rfl
@[simp] theorem updLane_takes : (s.updLane k f).takes = s.takes := rfl
@[simp] theorem updLane_nextId : (s.updLane k f).nextId = s.nextId := rfl
@[simp] theorem updLane_link : (s.updLane k f).link = s.link := rfl
@[simp] theorem updLane_profile : (s.updLane k f).profile = s.profile := rfl
@[simp] theorem updLane_pins : (s.updLane k f).pins = s.pins := rfl
@[simp] theorem updLane_freeSeed : (s.updLane k f).freeSeed = s.freeSeed := rfl
@[simp] theorem updLane_pending : (s.updLane k f).pending = s.pending := rfl
theorem updLane_lanes : (s.updLane k f).lanes = s.lanes.set k (f s.lanes[k]) := rfl

end updLane

section updPgm
variable (s : State) (p : ProgId) (f : Pgm → Pgm)

@[simp] theorem updPgm_powered : (s.updPgm p f).powered = s.powered := rfl
@[simp] theorem updPgm_cause : (s.updPgm p f).cause = s.cause := rfl
@[simp] theorem updPgm_hc : (s.updPgm p f).hc = s.hc := rfl
@[simp] theorem updPgm_phase : (s.updPgm p f).phase = s.phase := rfl
@[simp] theorem updPgm_fc : (s.updPgm p f).fc = s.fc := rfl
@[simp] theorem updPgm_closeDue : (s.updPgm p f).closeDue = s.closeDue := rfl
@[simp] theorem updPgm_gpiDue : (s.updPgm p f).gpiDue = s.gpiDue := rfl
@[simp] theorem updPgm_boundaryHere : (s.updPgm p f).boundaryHere = s.boundaryHere := rfl
@[simp] theorem updPgm_ref : (s.updPgm p f).ref = s.ref := rfl
@[simp] theorem updPgm_ports : (s.updPgm p f).ports = s.ports := rfl
@[simp] theorem updPgm_lanes : (s.updPgm p f).lanes = s.lanes := rfl
@[simp] theorem updPgm_owners : (s.updPgm p f).owners = s.owners := rfl
@[simp] theorem updPgm_presets : (s.updPgm p f).presets = s.presets := rfl
@[simp] theorem updPgm_probe : (s.updPgm p f).probe = s.probe := rfl
@[simp] theorem updPgm_reports : (s.updPgm p f).reports = s.reports := rfl
@[simp] theorem updPgm_scanDue : (s.updPgm p f).scanDue = s.scanDue := rfl
@[simp] theorem updPgm_scanNo : (s.updPgm p f).scanNo = s.scanNo := rfl
@[simp] theorem updPgm_points : (s.updPgm p f).points = s.points := rfl
@[simp] theorem updPgm_gpis : (s.updPgm p f).gpis = s.gpis := rfl
@[simp] theorem updPgm_gpiFirst : (s.updPgm p f).gpiFirst = s.gpiFirst := rfl
@[simp] theorem updPgm_gpiFifo : (s.updPgm p f).gpiFifo = s.gpiFifo := rfl
@[simp] theorem updPgm_gpiOverflow : (s.updPgm p f).gpiOverflow = s.gpiOverflow := rfl
@[simp] theorem updPgm_watch : (s.updPgm p f).watch = s.watch := rfl
@[simp] theorem updPgm_gpos : (s.updPgm p f).gpos = s.gpos := rfl
@[simp] theorem updPgm_slots : (s.updPgm p f).slots = s.slots := rfl
@[simp] theorem updPgm_takes : (s.updPgm p f).takes = s.takes := rfl
@[simp] theorem updPgm_nextId : (s.updPgm p f).nextId = s.nextId := rfl
@[simp] theorem updPgm_link : (s.updPgm p f).link = s.link := rfl
@[simp] theorem updPgm_profile : (s.updPgm p f).profile = s.profile := rfl
@[simp] theorem updPgm_pins : (s.updPgm p f).pins = s.pins := rfl
@[simp] theorem updPgm_freeSeed : (s.updPgm p f).freeSeed = s.freeSeed := rfl
@[simp] theorem updPgm_pending : (s.updPgm p f).pending = s.pending := rfl
theorem updPgm_pgms : (s.updPgm p f).pgms = s.pgms.set p (f s.pgms[p]) := rfl

end updPgm

section updCtl
variable (s : State) (p : ProgId) (f : Ctl → Ctl)

@[simp] theorem updCtl_powered : (s.updCtl p f).powered = s.powered := rfl
@[simp] theorem updCtl_cause : (s.updCtl p f).cause = s.cause := rfl
@[simp] theorem updCtl_hc : (s.updCtl p f).hc = s.hc := rfl
@[simp] theorem updCtl_phase : (s.updCtl p f).phase = s.phase := rfl
@[simp] theorem updCtl_fc : (s.updCtl p f).fc = s.fc := rfl
@[simp] theorem updCtl_closeDue : (s.updCtl p f).closeDue = s.closeDue := rfl
@[simp] theorem updCtl_gpiDue : (s.updCtl p f).gpiDue = s.gpiDue := rfl
@[simp] theorem updCtl_boundaryHere : (s.updCtl p f).boundaryHere = s.boundaryHere := rfl
@[simp] theorem updCtl_ref : (s.updCtl p f).ref = s.ref := rfl
@[simp] theorem updCtl_ports : (s.updCtl p f).ports = s.ports := rfl
@[simp] theorem updCtl_lanes : (s.updCtl p f).lanes = s.lanes := rfl
@[simp] theorem updCtl_owners : (s.updCtl p f).owners = s.owners := rfl
@[simp] theorem updCtl_presets : (s.updCtl p f).presets = s.presets := rfl
@[simp] theorem updCtl_probe : (s.updCtl p f).probe = s.probe := rfl
@[simp] theorem updCtl_reports : (s.updCtl p f).reports = s.reports := rfl
@[simp] theorem updCtl_scanDue : (s.updCtl p f).scanDue = s.scanDue := rfl
@[simp] theorem updCtl_scanNo : (s.updCtl p f).scanNo = s.scanNo := rfl
@[simp] theorem updCtl_points : (s.updCtl p f).points = s.points := rfl
@[simp] theorem updCtl_gpis : (s.updCtl p f).gpis = s.gpis := rfl
@[simp] theorem updCtl_gpiFirst : (s.updCtl p f).gpiFirst = s.gpiFirst := rfl
@[simp] theorem updCtl_gpiFifo : (s.updCtl p f).gpiFifo = s.gpiFifo := rfl
@[simp] theorem updCtl_gpiOverflow : (s.updCtl p f).gpiOverflow = s.gpiOverflow := rfl
@[simp] theorem updCtl_watch : (s.updCtl p f).watch = s.watch := rfl
@[simp] theorem updCtl_gpos : (s.updCtl p f).gpos = s.gpos := rfl
@[simp] theorem updCtl_slots : (s.updCtl p f).slots = s.slots := rfl
@[simp] theorem updCtl_takes : (s.updCtl p f).takes = s.takes := rfl
@[simp] theorem updCtl_nextId : (s.updCtl p f).nextId = s.nextId := rfl
@[simp] theorem updCtl_link : (s.updCtl p f).link = s.link := rfl
@[simp] theorem updCtl_profile : (s.updCtl p f).profile = s.profile := rfl
@[simp] theorem updCtl_pins : (s.updCtl p f).pins = s.pins := rfl
@[simp] theorem updCtl_freeSeed : (s.updCtl p f).freeSeed = s.freeSeed := rfl
@[simp] theorem updCtl_pending : (s.updCtl p f).pending = s.pending := rfl

end updCtl

section updDly
variable (s : State) (p : ProgId) (f : Delay → Delay)

@[simp] theorem updDly_powered : (s.updDly p f).powered = s.powered := rfl
@[simp] theorem updDly_cause : (s.updDly p f).cause = s.cause := rfl
@[simp] theorem updDly_hc : (s.updDly p f).hc = s.hc := rfl
@[simp] theorem updDly_phase : (s.updDly p f).phase = s.phase := rfl
@[simp] theorem updDly_fc : (s.updDly p f).fc = s.fc := rfl
@[simp] theorem updDly_closeDue : (s.updDly p f).closeDue = s.closeDue := rfl
@[simp] theorem updDly_gpiDue : (s.updDly p f).gpiDue = s.gpiDue := rfl
@[simp] theorem updDly_boundaryHere : (s.updDly p f).boundaryHere = s.boundaryHere := rfl
@[simp] theorem updDly_ref : (s.updDly p f).ref = s.ref := rfl
@[simp] theorem updDly_ports : (s.updDly p f).ports = s.ports := rfl
@[simp] theorem updDly_lanes : (s.updDly p f).lanes = s.lanes := rfl
@[simp] theorem updDly_owners : (s.updDly p f).owners = s.owners := rfl
@[simp] theorem updDly_presets : (s.updDly p f).presets = s.presets := rfl
@[simp] theorem updDly_probe : (s.updDly p f).probe = s.probe := rfl
@[simp] theorem updDly_reports : (s.updDly p f).reports = s.reports := rfl
@[simp] theorem updDly_scanDue : (s.updDly p f).scanDue = s.scanDue := rfl
@[simp] theorem updDly_scanNo : (s.updDly p f).scanNo = s.scanNo := rfl
@[simp] theorem updDly_points : (s.updDly p f).points = s.points := rfl
@[simp] theorem updDly_gpis : (s.updDly p f).gpis = s.gpis := rfl
@[simp] theorem updDly_gpiFirst : (s.updDly p f).gpiFirst = s.gpiFirst := rfl
@[simp] theorem updDly_gpiFifo : (s.updDly p f).gpiFifo = s.gpiFifo := rfl
@[simp] theorem updDly_gpiOverflow : (s.updDly p f).gpiOverflow = s.gpiOverflow := rfl
@[simp] theorem updDly_watch : (s.updDly p f).watch = s.watch := rfl
@[simp] theorem updDly_gpos : (s.updDly p f).gpos = s.gpos := rfl
@[simp] theorem updDly_slots : (s.updDly p f).slots = s.slots := rfl
@[simp] theorem updDly_takes : (s.updDly p f).takes = s.takes := rfl
@[simp] theorem updDly_nextId : (s.updDly p f).nextId = s.nextId := rfl
@[simp] theorem updDly_link : (s.updDly p f).link = s.link := rfl
@[simp] theorem updDly_profile : (s.updDly p f).profile = s.profile := rfl
@[simp] theorem updDly_pins : (s.updDly p f).pins = s.pins := rfl
@[simp] theorem updDly_freeSeed : (s.updDly p f).freeSeed = s.freeSeed := rfl
@[simp] theorem updDly_pending : (s.updDly p f).pending = s.pending := rfl

end updDly

section updMtr
variable (s : State) (p : ProgId) (f : Meter → Meter)

@[simp] theorem updMtr_powered : (s.updMtr p f).powered = s.powered := rfl
@[simp] theorem updMtr_cause : (s.updMtr p f).cause = s.cause := rfl
@[simp] theorem updMtr_hc : (s.updMtr p f).hc = s.hc := rfl
@[simp] theorem updMtr_phase : (s.updMtr p f).phase = s.phase := rfl
@[simp] theorem updMtr_fc : (s.updMtr p f).fc = s.fc := rfl
@[simp] theorem updMtr_closeDue : (s.updMtr p f).closeDue = s.closeDue := rfl
@[simp] theorem updMtr_gpiDue : (s.updMtr p f).gpiDue = s.gpiDue := rfl
@[simp] theorem updMtr_boundaryHere : (s.updMtr p f).boundaryHere = s.boundaryHere := rfl
@[simp] theorem updMtr_ref : (s.updMtr p f).ref = s.ref := rfl
@[simp] theorem updMtr_ports : (s.updMtr p f).ports = s.ports := rfl
@[simp] theorem updMtr_lanes : (s.updMtr p f).lanes = s.lanes := rfl
@[simp] theorem updMtr_owners : (s.updMtr p f).owners = s.owners := rfl
@[simp] theorem updMtr_presets : (s.updMtr p f).presets = s.presets := rfl
@[simp] theorem updMtr_probe : (s.updMtr p f).probe = s.probe := rfl
@[simp] theorem updMtr_reports : (s.updMtr p f).reports = s.reports := rfl
@[simp] theorem updMtr_scanDue : (s.updMtr p f).scanDue = s.scanDue := rfl
@[simp] theorem updMtr_scanNo : (s.updMtr p f).scanNo = s.scanNo := rfl
@[simp] theorem updMtr_points : (s.updMtr p f).points = s.points := rfl
@[simp] theorem updMtr_gpis : (s.updMtr p f).gpis = s.gpis := rfl
@[simp] theorem updMtr_gpiFirst : (s.updMtr p f).gpiFirst = s.gpiFirst := rfl
@[simp] theorem updMtr_gpiFifo : (s.updMtr p f).gpiFifo = s.gpiFifo := rfl
@[simp] theorem updMtr_gpiOverflow : (s.updMtr p f).gpiOverflow = s.gpiOverflow := rfl
@[simp] theorem updMtr_watch : (s.updMtr p f).watch = s.watch := rfl
@[simp] theorem updMtr_gpos : (s.updMtr p f).gpos = s.gpos := rfl
@[simp] theorem updMtr_slots : (s.updMtr p f).slots = s.slots := rfl
@[simp] theorem updMtr_takes : (s.updMtr p f).takes = s.takes := rfl
@[simp] theorem updMtr_nextId : (s.updMtr p f).nextId = s.nextId := rfl
@[simp] theorem updMtr_link : (s.updMtr p f).link = s.link := rfl
@[simp] theorem updMtr_profile : (s.updMtr p f).profile = s.profile := rfl
@[simp] theorem updMtr_pins : (s.updMtr p f).pins = s.pins := rfl
@[simp] theorem updMtr_freeSeed : (s.updMtr p f).freeSeed = s.freeSeed := rfl
@[simp] theorem updMtr_pending : (s.updMtr p f).pending = s.pending := rfl

end updMtr

section updCor
variable (s : State) (p : ProgId) (f : Correction → Correction)

@[simp] theorem updCor_powered : (s.updCor p f).powered = s.powered := rfl
@[simp] theorem updCor_cause : (s.updCor p f).cause = s.cause := rfl
@[simp] theorem updCor_hc : (s.updCor p f).hc = s.hc := rfl
@[simp] theorem updCor_phase : (s.updCor p f).phase = s.phase := rfl
@[simp] theorem updCor_fc : (s.updCor p f).fc = s.fc := rfl
@[simp] theorem updCor_closeDue : (s.updCor p f).closeDue = s.closeDue := rfl
@[simp] theorem updCor_gpiDue : (s.updCor p f).gpiDue = s.gpiDue := rfl
@[simp] theorem updCor_boundaryHere : (s.updCor p f).boundaryHere = s.boundaryHere := rfl
@[simp] theorem updCor_ref : (s.updCor p f).ref = s.ref := rfl
@[simp] theorem updCor_ports : (s.updCor p f).ports = s.ports := rfl
@[simp] theorem updCor_lanes : (s.updCor p f).lanes = s.lanes := rfl
@[simp] theorem updCor_owners : (s.updCor p f).owners = s.owners := rfl
@[simp] theorem updCor_presets : (s.updCor p f).presets = s.presets := rfl
@[simp] theorem updCor_probe : (s.updCor p f).probe = s.probe := rfl
@[simp] theorem updCor_reports : (s.updCor p f).reports = s.reports := rfl
@[simp] theorem updCor_scanDue : (s.updCor p f).scanDue = s.scanDue := rfl
@[simp] theorem updCor_scanNo : (s.updCor p f).scanNo = s.scanNo := rfl
@[simp] theorem updCor_points : (s.updCor p f).points = s.points := rfl
@[simp] theorem updCor_gpis : (s.updCor p f).gpis = s.gpis := rfl
@[simp] theorem updCor_gpiFirst : (s.updCor p f).gpiFirst = s.gpiFirst := rfl
@[simp] theorem updCor_gpiFifo : (s.updCor p f).gpiFifo = s.gpiFifo := rfl
@[simp] theorem updCor_gpiOverflow : (s.updCor p f).gpiOverflow = s.gpiOverflow := rfl
@[simp] theorem updCor_watch : (s.updCor p f).watch = s.watch := rfl
@[simp] theorem updCor_gpos : (s.updCor p f).gpos = s.gpos := rfl
@[simp] theorem updCor_slots : (s.updCor p f).slots = s.slots := rfl
@[simp] theorem updCor_takes : (s.updCor p f).takes = s.takes := rfl
@[simp] theorem updCor_nextId : (s.updCor p f).nextId = s.nextId := rfl
@[simp] theorem updCor_link : (s.updCor p f).link = s.link := rfl
@[simp] theorem updCor_profile : (s.updCor p f).profile = s.profile := rfl
@[simp] theorem updCor_pins : (s.updCor p f).pins = s.pins := rfl
@[simp] theorem updCor_freeSeed : (s.updCor p f).freeSeed = s.freeSeed := rfl
@[simp] theorem updCor_pending : (s.updCor p f).pending = s.pending := rfl

end updCor

section updPreset
variable (s : State) (n : PresetId) (f : Preset → Preset)

@[simp] theorem updPreset_powered : (s.updPreset n f).powered = s.powered := rfl
@[simp] theorem updPreset_cause : (s.updPreset n f).cause = s.cause := rfl
@[simp] theorem updPreset_hc : (s.updPreset n f).hc = s.hc := rfl
@[simp] theorem updPreset_phase : (s.updPreset n f).phase = s.phase := rfl
@[simp] theorem updPreset_fc : (s.updPreset n f).fc = s.fc := rfl
@[simp] theorem updPreset_closeDue : (s.updPreset n f).closeDue = s.closeDue := rfl
@[simp] theorem updPreset_gpiDue : (s.updPreset n f).gpiDue = s.gpiDue := rfl
@[simp] theorem updPreset_boundaryHere : (s.updPreset n f).boundaryHere = s.boundaryHere := rfl
@[simp] theorem updPreset_ref : (s.updPreset n f).ref = s.ref := rfl
@[simp] theorem updPreset_ports : (s.updPreset n f).ports = s.ports := rfl
@[simp] theorem updPreset_lanes : (s.updPreset n f).lanes = s.lanes := rfl
@[simp] theorem updPreset_pgms : (s.updPreset n f).pgms = s.pgms := rfl
@[simp] theorem updPreset_owners : (s.updPreset n f).owners = s.owners := rfl
@[simp] theorem updPreset_probe : (s.updPreset n f).probe = s.probe := rfl
@[simp] theorem updPreset_reports : (s.updPreset n f).reports = s.reports := rfl
@[simp] theorem updPreset_scanDue : (s.updPreset n f).scanDue = s.scanDue := rfl
@[simp] theorem updPreset_scanNo : (s.updPreset n f).scanNo = s.scanNo := rfl
@[simp] theorem updPreset_points : (s.updPreset n f).points = s.points := rfl
@[simp] theorem updPreset_gpis : (s.updPreset n f).gpis = s.gpis := rfl
@[simp] theorem updPreset_gpiFirst : (s.updPreset n f).gpiFirst = s.gpiFirst := rfl
@[simp] theorem updPreset_gpiFifo : (s.updPreset n f).gpiFifo = s.gpiFifo := rfl
@[simp] theorem updPreset_gpiOverflow : (s.updPreset n f).gpiOverflow = s.gpiOverflow := rfl
@[simp] theorem updPreset_watch : (s.updPreset n f).watch = s.watch := rfl
@[simp] theorem updPreset_gpos : (s.updPreset n f).gpos = s.gpos := rfl
@[simp] theorem updPreset_slots : (s.updPreset n f).slots = s.slots := rfl
@[simp] theorem updPreset_takes : (s.updPreset n f).takes = s.takes := rfl
@[simp] theorem updPreset_nextId : (s.updPreset n f).nextId = s.nextId := rfl
@[simp] theorem updPreset_link : (s.updPreset n f).link = s.link := rfl
@[simp] theorem updPreset_profile : (s.updPreset n f).profile = s.profile := rfl
@[simp] theorem updPreset_pins : (s.updPreset n f).pins = s.pins := rfl
@[simp] theorem updPreset_freeSeed : (s.updPreset n f).freeSeed = s.freeSeed := rfl
@[simp] theorem updPreset_pending : (s.updPreset n f).pending = s.pending := rfl
theorem updPreset_presets : (s.updPreset n f).presets = s.presets.set n (f s.presets[n]) := rfl

end updPreset

section updPoint
variable (s : State) (n : PointId) (f : Point → Point)

@[simp] theorem updPoint_powered : (s.updPoint n f).powered = s.powered := rfl
@[simp] theorem updPoint_cause : (s.updPoint n f).cause = s.cause := rfl
@[simp] theorem updPoint_hc : (s.updPoint n f).hc = s.hc := rfl
@[simp] theorem updPoint_phase : (s.updPoint n f).phase = s.phase := rfl
@[simp] theorem updPoint_fc : (s.updPoint n f).fc = s.fc := rfl
@[simp] theorem updPoint_closeDue : (s.updPoint n f).closeDue = s.closeDue := rfl
@[simp] theorem updPoint_gpiDue : (s.updPoint n f).gpiDue = s.gpiDue := rfl
@[simp] theorem updPoint_boundaryHere : (s.updPoint n f).boundaryHere = s.boundaryHere := rfl
@[simp] theorem updPoint_ref : (s.updPoint n f).ref = s.ref := rfl
@[simp] theorem updPoint_ports : (s.updPoint n f).ports = s.ports := rfl
@[simp] theorem updPoint_lanes : (s.updPoint n f).lanes = s.lanes := rfl
@[simp] theorem updPoint_pgms : (s.updPoint n f).pgms = s.pgms := rfl
@[simp] theorem updPoint_owners : (s.updPoint n f).owners = s.owners := rfl
@[simp] theorem updPoint_presets : (s.updPoint n f).presets = s.presets := rfl
@[simp] theorem updPoint_probe : (s.updPoint n f).probe = s.probe := rfl
@[simp] theorem updPoint_reports : (s.updPoint n f).reports = s.reports := rfl
@[simp] theorem updPoint_scanDue : (s.updPoint n f).scanDue = s.scanDue := rfl
@[simp] theorem updPoint_scanNo : (s.updPoint n f).scanNo = s.scanNo := rfl
@[simp] theorem updPoint_gpis : (s.updPoint n f).gpis = s.gpis := rfl
@[simp] theorem updPoint_gpiFirst : (s.updPoint n f).gpiFirst = s.gpiFirst := rfl
@[simp] theorem updPoint_gpiFifo : (s.updPoint n f).gpiFifo = s.gpiFifo := rfl
@[simp] theorem updPoint_gpiOverflow : (s.updPoint n f).gpiOverflow = s.gpiOverflow := rfl
@[simp] theorem updPoint_watch : (s.updPoint n f).watch = s.watch := rfl
@[simp] theorem updPoint_gpos : (s.updPoint n f).gpos = s.gpos := rfl
@[simp] theorem updPoint_slots : (s.updPoint n f).slots = s.slots := rfl
@[simp] theorem updPoint_takes : (s.updPoint n f).takes = s.takes := rfl
@[simp] theorem updPoint_nextId : (s.updPoint n f).nextId = s.nextId := rfl
@[simp] theorem updPoint_link : (s.updPoint n f).link = s.link := rfl
@[simp] theorem updPoint_profile : (s.updPoint n f).profile = s.profile := rfl
@[simp] theorem updPoint_pins : (s.updPoint n f).pins = s.pins := rfl
@[simp] theorem updPoint_freeSeed : (s.updPoint n f).freeSeed = s.freeSeed := rfl
@[simp] theorem updPoint_pending : (s.updPoint n f).pending = s.pending := rfl
theorem updPoint_points : (s.updPoint n f).points = s.points.set n (f s.points[n]) := rfl

end updPoint

section updGpi
variable (s : State) (l : LineId) (f : Gpi → Gpi)

@[simp] theorem updGpi_powered : (s.updGpi l f).powered = s.powered := rfl
@[simp] theorem updGpi_cause : (s.updGpi l f).cause = s.cause := rfl
@[simp] theorem updGpi_hc : (s.updGpi l f).hc = s.hc := rfl
@[simp] theorem updGpi_phase : (s.updGpi l f).phase = s.phase := rfl
@[simp] theorem updGpi_fc : (s.updGpi l f).fc = s.fc := rfl
@[simp] theorem updGpi_closeDue : (s.updGpi l f).closeDue = s.closeDue := rfl
@[simp] theorem updGpi_gpiDue : (s.updGpi l f).gpiDue = s.gpiDue := rfl
@[simp] theorem updGpi_boundaryHere : (s.updGpi l f).boundaryHere = s.boundaryHere := rfl
@[simp] theorem updGpi_ref : (s.updGpi l f).ref = s.ref := rfl
@[simp] theorem updGpi_ports : (s.updGpi l f).ports = s.ports := rfl
@[simp] theorem updGpi_lanes : (s.updGpi l f).lanes = s.lanes := rfl
@[simp] theorem updGpi_pgms : (s.updGpi l f).pgms = s.pgms := rfl
@[simp] theorem updGpi_owners : (s.updGpi l f).owners = s.owners := rfl
@[simp] theorem updGpi_presets : (s.updGpi l f).presets = s.presets := rfl
@[simp] theorem updGpi_probe : (s.updGpi l f).probe = s.probe := rfl
@[simp] theorem updGpi_reports : (s.updGpi l f).reports = s.reports := rfl
@[simp] theorem updGpi_scanDue : (s.updGpi l f).scanDue = s.scanDue := rfl
@[simp] theorem updGpi_scanNo : (s.updGpi l f).scanNo = s.scanNo := rfl
@[simp] theorem updGpi_points : (s.updGpi l f).points = s.points := rfl
@[simp] theorem updGpi_gpiFirst : (s.updGpi l f).gpiFirst = s.gpiFirst := rfl
@[simp] theorem updGpi_gpiFifo : (s.updGpi l f).gpiFifo = s.gpiFifo := rfl
@[simp] theorem updGpi_gpiOverflow : (s.updGpi l f).gpiOverflow = s.gpiOverflow := rfl
@[simp] theorem updGpi_watch : (s.updGpi l f).watch = s.watch := rfl
@[simp] theorem updGpi_gpos : (s.updGpi l f).gpos = s.gpos := rfl
@[simp] theorem updGpi_slots : (s.updGpi l f).slots = s.slots := rfl
@[simp] theorem updGpi_takes : (s.updGpi l f).takes = s.takes := rfl
@[simp] theorem updGpi_nextId : (s.updGpi l f).nextId = s.nextId := rfl
@[simp] theorem updGpi_link : (s.updGpi l f).link = s.link := rfl
@[simp] theorem updGpi_profile : (s.updGpi l f).profile = s.profile := rfl
@[simp] theorem updGpi_pins : (s.updGpi l f).pins = s.pins := rfl
@[simp] theorem updGpi_freeSeed : (s.updGpi l f).freeSeed = s.freeSeed := rfl
@[simp] theorem updGpi_pending : (s.updGpi l f).pending = s.pending := rfl
theorem updGpi_gpis : (s.updGpi l f).gpis = s.gpis.set l (f s.gpis[l]) := rfl

end updGpi

section updGpo
variable (s : State) (l : LineId) (f : Gpo → Gpo)

@[simp] theorem updGpo_powered : (s.updGpo l f).powered = s.powered := rfl
@[simp] theorem updGpo_cause : (s.updGpo l f).cause = s.cause := rfl
@[simp] theorem updGpo_hc : (s.updGpo l f).hc = s.hc := rfl
@[simp] theorem updGpo_phase : (s.updGpo l f).phase = s.phase := rfl
@[simp] theorem updGpo_fc : (s.updGpo l f).fc = s.fc := rfl
@[simp] theorem updGpo_closeDue : (s.updGpo l f).closeDue = s.closeDue := rfl
@[simp] theorem updGpo_gpiDue : (s.updGpo l f).gpiDue = s.gpiDue := rfl
@[simp] theorem updGpo_boundaryHere : (s.updGpo l f).boundaryHere = s.boundaryHere := rfl
@[simp] theorem updGpo_ref : (s.updGpo l f).ref = s.ref := rfl
@[simp] theorem updGpo_ports : (s.updGpo l f).ports = s.ports := rfl
@[simp] theorem updGpo_lanes : (s.updGpo l f).lanes = s.lanes := rfl
@[simp] theorem updGpo_pgms : (s.updGpo l f).pgms = s.pgms := rfl
@[simp] theorem updGpo_owners : (s.updGpo l f).owners = s.owners := rfl
@[simp] theorem updGpo_presets : (s.updGpo l f).presets = s.presets := rfl
@[simp] theorem updGpo_probe : (s.updGpo l f).probe = s.probe := rfl
@[simp] theorem updGpo_reports : (s.updGpo l f).reports = s.reports := rfl
@[simp] theorem updGpo_scanDue : (s.updGpo l f).scanDue = s.scanDue := rfl
@[simp] theorem updGpo_scanNo : (s.updGpo l f).scanNo = s.scanNo := rfl
@[simp] theorem updGpo_points : (s.updGpo l f).points = s.points := rfl
@[simp] theorem updGpo_gpis : (s.updGpo l f).gpis = s.gpis := rfl
@[simp] theorem updGpo_gpiFirst : (s.updGpo l f).gpiFirst = s.gpiFirst := rfl
@[simp] theorem updGpo_gpiFifo : (s.updGpo l f).gpiFifo = s.gpiFifo := rfl
@[simp] theorem updGpo_gpiOverflow : (s.updGpo l f).gpiOverflow = s.gpiOverflow := rfl
@[simp] theorem updGpo_watch : (s.updGpo l f).watch = s.watch := rfl
@[simp] theorem updGpo_slots : (s.updGpo l f).slots = s.slots := rfl
@[simp] theorem updGpo_takes : (s.updGpo l f).takes = s.takes := rfl
@[simp] theorem updGpo_nextId : (s.updGpo l f).nextId = s.nextId := rfl
@[simp] theorem updGpo_link : (s.updGpo l f).link = s.link := rfl
@[simp] theorem updGpo_profile : (s.updGpo l f).profile = s.profile := rfl
@[simp] theorem updGpo_pins : (s.updGpo l f).pins = s.pins := rfl
@[simp] theorem updGpo_freeSeed : (s.updGpo l f).freeSeed = s.freeSeed := rfl
@[simp] theorem updGpo_pending : (s.updGpo l f).pending = s.pending := rfl
theorem updGpo_gpos : (s.updGpo l f).gpos = s.gpos.set l (f s.gpos[l]) := rfl

end updGpo

section updSlot
variable (s : State) (c : SlotId) (f : Slot → Slot)

@[simp] theorem updSlot_powered : (s.updSlot c f).powered = s.powered := rfl
@[simp] theorem updSlot_cause : (s.updSlot c f).cause = s.cause := rfl
@[simp] theorem updSlot_hc : (s.updSlot c f).hc = s.hc := rfl
@[simp] theorem updSlot_phase : (s.updSlot c f).phase = s.phase := rfl
@[simp] theorem updSlot_fc : (s.updSlot c f).fc = s.fc := rfl
@[simp] theorem updSlot_closeDue : (s.updSlot c f).closeDue = s.closeDue := rfl
@[simp] theorem updSlot_gpiDue : (s.updSlot c f).gpiDue = s.gpiDue := rfl
@[simp] theorem updSlot_boundaryHere : (s.updSlot c f).boundaryHere = s.boundaryHere := rfl
@[simp] theorem updSlot_ref : (s.updSlot c f).ref = s.ref := rfl
@[simp] theorem updSlot_ports : (s.updSlot c f).ports = s.ports := rfl
@[simp] theorem updSlot_lanes : (s.updSlot c f).lanes = s.lanes := rfl
@[simp] theorem updSlot_pgms : (s.updSlot c f).pgms = s.pgms := rfl
@[simp] theorem updSlot_owners : (s.updSlot c f).owners = s.owners := rfl
@[simp] theorem updSlot_presets : (s.updSlot c f).presets = s.presets := rfl
@[simp] theorem updSlot_probe : (s.updSlot c f).probe = s.probe := rfl
@[simp] theorem updSlot_reports : (s.updSlot c f).reports = s.reports := rfl
@[simp] theorem updSlot_scanDue : (s.updSlot c f).scanDue = s.scanDue := rfl
@[simp] theorem updSlot_scanNo : (s.updSlot c f).scanNo = s.scanNo := rfl
@[simp] theorem updSlot_points : (s.updSlot c f).points = s.points := rfl
@[simp] theorem updSlot_gpis : (s.updSlot c f).gpis = s.gpis := rfl
@[simp] theorem updSlot_gpiFirst : (s.updSlot c f).gpiFirst = s.gpiFirst := rfl
@[simp] theorem updSlot_gpiFifo : (s.updSlot c f).gpiFifo = s.gpiFifo := rfl
@[simp] theorem updSlot_gpiOverflow : (s.updSlot c f).gpiOverflow = s.gpiOverflow := rfl
@[simp] theorem updSlot_watch : (s.updSlot c f).watch = s.watch := rfl
@[simp] theorem updSlot_gpos : (s.updSlot c f).gpos = s.gpos := rfl
@[simp] theorem updSlot_takes : (s.updSlot c f).takes = s.takes := rfl
@[simp] theorem updSlot_nextId : (s.updSlot c f).nextId = s.nextId := rfl
@[simp] theorem updSlot_link : (s.updSlot c f).link = s.link := rfl
@[simp] theorem updSlot_profile : (s.updSlot c f).profile = s.profile := rfl
@[simp] theorem updSlot_pins : (s.updSlot c f).pins = s.pins := rfl
@[simp] theorem updSlot_freeSeed : (s.updSlot c f).freeSeed = s.freeSeed := rfl
@[simp] theorem updSlot_pending : (s.updSlot c f).pending = s.pending := rfl
theorem updSlot_slots : (s.updSlot c f).slots = s.slots.set c (f s.slots[c]) := rfl

end updSlot

section setReport
variable (s : State) (p : ProgId) (r : Option Report)

@[simp] theorem setReport_powered : (s.setReport p r).powered = s.powered := rfl
@[simp] theorem setReport_cause : (s.setReport p r).cause = s.cause := rfl
@[simp] theorem setReport_hc : (s.setReport p r).hc = s.hc := rfl
@[simp] theorem setReport_phase : (s.setReport p r).phase = s.phase := rfl
@[simp] theorem setReport_fc : (s.setReport p r).fc = s.fc := rfl
@[simp] theorem setReport_closeDue : (s.setReport p r).closeDue = s.closeDue := rfl
@[simp] theorem setReport_gpiDue : (s.setReport p r).gpiDue = s.gpiDue := rfl
@[simp] theorem setReport_boundaryHere : (s.setReport p r).boundaryHere = s.boundaryHere := rfl
@[simp] theorem setReport_ref : (s.setReport p r).ref = s.ref := rfl
@[simp] theorem setReport_ports : (s.setReport p r).ports = s.ports := rfl
@[simp] theorem setReport_lanes : (s.setReport p r).lanes = s.lanes := rfl
@[simp] theorem setReport_pgms : (s.setReport p r).pgms = s.pgms := rfl
@[simp] theorem setReport_owners : (s.setReport p r).owners = s.owners := rfl
@[simp] theorem setReport_presets : (s.setReport p r).presets = s.presets := rfl
@[simp] theorem setReport_probe : (s.setReport p r).probe = s.probe := rfl
@[simp] theorem setReport_scanDue : (s.setReport p r).scanDue = s.scanDue := rfl
@[simp] theorem setReport_scanNo : (s.setReport p r).scanNo = s.scanNo := rfl
@[simp] theorem setReport_points : (s.setReport p r).points = s.points := rfl
@[simp] theorem setReport_gpis : (s.setReport p r).gpis = s.gpis := rfl
@[simp] theorem setReport_gpiFirst : (s.setReport p r).gpiFirst = s.gpiFirst := rfl
@[simp] theorem setReport_gpiFifo : (s.setReport p r).gpiFifo = s.gpiFifo := rfl
@[simp] theorem setReport_gpiOverflow : (s.setReport p r).gpiOverflow = s.gpiOverflow := rfl
@[simp] theorem setReport_watch : (s.setReport p r).watch = s.watch := rfl
@[simp] theorem setReport_gpos : (s.setReport p r).gpos = s.gpos := rfl
@[simp] theorem setReport_slots : (s.setReport p r).slots = s.slots := rfl
@[simp] theorem setReport_takes : (s.setReport p r).takes = s.takes := rfl
@[simp] theorem setReport_nextId : (s.setReport p r).nextId = s.nextId := rfl
@[simp] theorem setReport_link : (s.setReport p r).link = s.link := rfl
@[simp] theorem setReport_profile : (s.setReport p r).profile = s.profile := rfl
@[simp] theorem setReport_pins : (s.setReport p r).pins = s.pins := rfl
@[simp] theorem setReport_freeSeed : (s.setReport p r).freeSeed = s.freeSeed := rfl
@[simp] theorem setReport_pending : (s.setReport p r).pending = s.pending := rfl
theorem setReport_reports : (s.setReport p r).reports = s.reports.set p r := rfl

end setReport

section updRef
variable (s : State) (f : Ref → Ref)

@[simp] theorem updRef_powered : (s.updRef f).powered = s.powered := rfl
@[simp] theorem updRef_cause : (s.updRef f).cause = s.cause := rfl
@[simp] theorem updRef_hc : (s.updRef f).hc = s.hc := rfl
@[simp] theorem updRef_phase : (s.updRef f).phase = s.phase := rfl
@[simp] theorem updRef_fc : (s.updRef f).fc = s.fc := rfl
@[simp] theorem updRef_closeDue : (s.updRef f).closeDue = s.closeDue := rfl
@[simp] theorem updRef_gpiDue : (s.updRef f).gpiDue = s.gpiDue := rfl
@[simp] theorem updRef_boundaryHere : (s.updRef f).boundaryHere = s.boundaryHere := rfl
@[simp] theorem updRef_ports : (s.updRef f).ports = s.ports := rfl
@[simp] theorem updRef_lanes : (s.updRef f).lanes = s.lanes := rfl
@[simp] theorem updRef_pgms : (s.updRef f).pgms = s.pgms := rfl
@[simp] theorem updRef_owners : (s.updRef f).owners = s.owners := rfl
@[simp] theorem updRef_presets : (s.updRef f).presets = s.presets := rfl
@[simp] theorem updRef_probe : (s.updRef f).probe = s.probe := rfl
@[simp] theorem updRef_reports : (s.updRef f).reports = s.reports := rfl
@[simp] theorem updRef_scanDue : (s.updRef f).scanDue = s.scanDue := rfl
@[simp] theorem updRef_scanNo : (s.updRef f).scanNo = s.scanNo := rfl
@[simp] theorem updRef_points : (s.updRef f).points = s.points := rfl
@[simp] theorem updRef_gpis : (s.updRef f).gpis = s.gpis := rfl
@[simp] theorem updRef_gpiFirst : (s.updRef f).gpiFirst = s.gpiFirst := rfl
@[simp] theorem updRef_gpiFifo : (s.updRef f).gpiFifo = s.gpiFifo := rfl
@[simp] theorem updRef_gpiOverflow : (s.updRef f).gpiOverflow = s.gpiOverflow := rfl
@[simp] theorem updRef_watch : (s.updRef f).watch = s.watch := rfl
@[simp] theorem updRef_gpos : (s.updRef f).gpos = s.gpos := rfl
@[simp] theorem updRef_slots : (s.updRef f).slots = s.slots := rfl
@[simp] theorem updRef_takes : (s.updRef f).takes = s.takes := rfl
@[simp] theorem updRef_nextId : (s.updRef f).nextId = s.nextId := rfl
@[simp] theorem updRef_link : (s.updRef f).link = s.link := rfl
@[simp] theorem updRef_profile : (s.updRef f).profile = s.profile := rfl
@[simp] theorem updRef_pins : (s.updRef f).pins = s.pins := rfl
@[simp] theorem updRef_freeSeed : (s.updRef f).freeSeed = s.freeSeed := rfl
@[simp] theorem updRef_pending : (s.updRef f).pending = s.pending := rfl
theorem updRef_ref : (s.updRef f).ref = f s.ref := rfl

end updRef

section updProbe
variable (s : State) (f : Probe → Probe)

@[simp] theorem updProbe_powered : (s.updProbe f).powered = s.powered := rfl
@[simp] theorem updProbe_cause : (s.updProbe f).cause = s.cause := rfl
@[simp] theorem updProbe_hc : (s.updProbe f).hc = s.hc := rfl
@[simp] theorem updProbe_phase : (s.updProbe f).phase = s.phase := rfl
@[simp] theorem updProbe_fc : (s.updProbe f).fc = s.fc := rfl
@[simp] theorem updProbe_closeDue : (s.updProbe f).closeDue = s.closeDue := rfl
@[simp] theorem updProbe_gpiDue : (s.updProbe f).gpiDue = s.gpiDue := rfl
@[simp] theorem updProbe_boundaryHere : (s.updProbe f).boundaryHere = s.boundaryHere := rfl
@[simp] theorem updProbe_ref : (s.updProbe f).ref = s.ref := rfl
@[simp] theorem updProbe_ports : (s.updProbe f).ports = s.ports := rfl
@[simp] theorem updProbe_lanes : (s.updProbe f).lanes = s.lanes := rfl
@[simp] theorem updProbe_pgms : (s.updProbe f).pgms = s.pgms := rfl
@[simp] theorem updProbe_owners : (s.updProbe f).owners = s.owners := rfl
@[simp] theorem updProbe_presets : (s.updProbe f).presets = s.presets := rfl
@[simp] theorem updProbe_reports : (s.updProbe f).reports = s.reports := rfl
@[simp] theorem updProbe_scanDue : (s.updProbe f).scanDue = s.scanDue := rfl
@[simp] theorem updProbe_scanNo : (s.updProbe f).scanNo = s.scanNo := rfl
@[simp] theorem updProbe_points : (s.updProbe f).points = s.points := rfl
@[simp] theorem updProbe_gpis : (s.updProbe f).gpis = s.gpis := rfl
@[simp] theorem updProbe_gpiFirst : (s.updProbe f).gpiFirst = s.gpiFirst := rfl
@[simp] theorem updProbe_gpiFifo : (s.updProbe f).gpiFifo = s.gpiFifo := rfl
@[simp] theorem updProbe_gpiOverflow : (s.updProbe f).gpiOverflow = s.gpiOverflow := rfl
@[simp] theorem updProbe_watch : (s.updProbe f).watch = s.watch := rfl
@[simp] theorem updProbe_gpos : (s.updProbe f).gpos = s.gpos := rfl
@[simp] theorem updProbe_slots : (s.updProbe f).slots = s.slots := rfl
@[simp] theorem updProbe_takes : (s.updProbe f).takes = s.takes := rfl
@[simp] theorem updProbe_nextId : (s.updProbe f).nextId = s.nextId := rfl
@[simp] theorem updProbe_link : (s.updProbe f).link = s.link := rfl
@[simp] theorem updProbe_profile : (s.updProbe f).profile = s.profile := rfl
@[simp] theorem updProbe_pins : (s.updProbe f).pins = s.pins := rfl
@[simp] theorem updProbe_freeSeed : (s.updProbe f).freeSeed = s.freeSeed := rfl
@[simp] theorem updProbe_pending : (s.updProbe f).pending = s.pending := rfl
theorem updProbe_probe : (s.updProbe f).probe = f s.probe := rfl

end updProbe

section updLink
variable (s : State) (f : Link → Link)

@[simp] theorem updLink_powered : (s.updLink f).powered = s.powered := rfl
@[simp] theorem updLink_cause : (s.updLink f).cause = s.cause := rfl
@[simp] theorem updLink_hc : (s.updLink f).hc = s.hc := rfl
@[simp] theorem updLink_phase : (s.updLink f).phase = s.phase := rfl
@[simp] theorem updLink_fc : (s.updLink f).fc = s.fc := rfl
@[simp] theorem updLink_closeDue : (s.updLink f).closeDue = s.closeDue := rfl
@[simp] theorem updLink_gpiDue : (s.updLink f).gpiDue = s.gpiDue := rfl
@[simp] theorem updLink_boundaryHere : (s.updLink f).boundaryHere = s.boundaryHere := rfl
@[simp] theorem updLink_ref : (s.updLink f).ref = s.ref := rfl
@[simp] theorem updLink_ports : (s.updLink f).ports = s.ports := rfl
@[simp] theorem updLink_lanes : (s.updLink f).lanes = s.lanes := rfl
@[simp] theorem updLink_pgms : (s.updLink f).pgms = s.pgms := rfl
@[simp] theorem updLink_owners : (s.updLink f).owners = s.owners := rfl
@[simp] theorem updLink_presets : (s.updLink f).presets = s.presets := rfl
@[simp] theorem updLink_probe : (s.updLink f).probe = s.probe := rfl
@[simp] theorem updLink_reports : (s.updLink f).reports = s.reports := rfl
@[simp] theorem updLink_scanDue : (s.updLink f).scanDue = s.scanDue := rfl
@[simp] theorem updLink_scanNo : (s.updLink f).scanNo = s.scanNo := rfl
@[simp] theorem updLink_points : (s.updLink f).points = s.points := rfl
@[simp] theorem updLink_gpis : (s.updLink f).gpis = s.gpis := rfl
@[simp] theorem updLink_gpiFirst : (s.updLink f).gpiFirst = s.gpiFirst := rfl
@[simp] theorem updLink_gpiFifo : (s.updLink f).gpiFifo = s.gpiFifo := rfl
@[simp] theorem updLink_gpiOverflow : (s.updLink f).gpiOverflow = s.gpiOverflow := rfl
@[simp] theorem updLink_watch : (s.updLink f).watch = s.watch := rfl
@[simp] theorem updLink_gpos : (s.updLink f).gpos = s.gpos := rfl
@[simp] theorem updLink_slots : (s.updLink f).slots = s.slots := rfl
@[simp] theorem updLink_takes : (s.updLink f).takes = s.takes := rfl
@[simp] theorem updLink_nextId : (s.updLink f).nextId = s.nextId := rfl
@[simp] theorem updLink_profile : (s.updLink f).profile = s.profile := rfl
@[simp] theorem updLink_pins : (s.updLink f).pins = s.pins := rfl
@[simp] theorem updLink_freeSeed : (s.updLink f).freeSeed = s.freeSeed := rfl
@[simp] theorem updLink_pending : (s.updLink f).pending = s.pending := rfl
theorem updLink_link : (s.updLink f).link = f s.link := rfl

end updLink

section updProfile
variable (s : State) (f : Profile → Profile)

@[simp] theorem updProfile_powered : (s.updProfile f).powered = s.powered := rfl
@[simp] theorem updProfile_cause : (s.updProfile f).cause = s.cause := rfl
@[simp] theorem updProfile_hc : (s.updProfile f).hc = s.hc := rfl
@[simp] theorem updProfile_phase : (s.updProfile f).phase = s.phase := rfl
@[simp] theorem updProfile_fc : (s.updProfile f).fc = s.fc := rfl
@[simp] theorem updProfile_closeDue : (s.updProfile f).closeDue = s.closeDue := rfl
@[simp] theorem updProfile_gpiDue : (s.updProfile f).gpiDue = s.gpiDue := rfl
@[simp] theorem updProfile_boundaryHere : (s.updProfile f).boundaryHere = s.boundaryHere := rfl
@[simp] theorem updProfile_ref : (s.updProfile f).ref = s.ref := rfl
@[simp] theorem updProfile_ports : (s.updProfile f).ports = s.ports := rfl
@[simp] theorem updProfile_lanes : (s.updProfile f).lanes = s.lanes := rfl
@[simp] theorem updProfile_pgms : (s.updProfile f).pgms = s.pgms := rfl
@[simp] theorem updProfile_owners : (s.updProfile f).owners = s.owners := rfl
@[simp] theorem updProfile_presets : (s.updProfile f).presets = s.presets := rfl
@[simp] theorem updProfile_probe : (s.updProfile f).probe = s.probe := rfl
@[simp] theorem updProfile_reports : (s.updProfile f).reports = s.reports := rfl
@[simp] theorem updProfile_scanDue : (s.updProfile f).scanDue = s.scanDue := rfl
@[simp] theorem updProfile_scanNo : (s.updProfile f).scanNo = s.scanNo := rfl
@[simp] theorem updProfile_points : (s.updProfile f).points = s.points := rfl
@[simp] theorem updProfile_gpis : (s.updProfile f).gpis = s.gpis := rfl
@[simp] theorem updProfile_gpiFirst : (s.updProfile f).gpiFirst = s.gpiFirst := rfl
@[simp] theorem updProfile_gpiFifo : (s.updProfile f).gpiFifo = s.gpiFifo := rfl
@[simp] theorem updProfile_gpiOverflow : (s.updProfile f).gpiOverflow = s.gpiOverflow := rfl
@[simp] theorem updProfile_watch : (s.updProfile f).watch = s.watch := rfl
@[simp] theorem updProfile_gpos : (s.updProfile f).gpos = s.gpos := rfl
@[simp] theorem updProfile_slots : (s.updProfile f).slots = s.slots := rfl
@[simp] theorem updProfile_takes : (s.updProfile f).takes = s.takes := rfl
@[simp] theorem updProfile_nextId : (s.updProfile f).nextId = s.nextId := rfl
@[simp] theorem updProfile_link : (s.updProfile f).link = s.link := rfl
@[simp] theorem updProfile_pins : (s.updProfile f).pins = s.pins := rfl
@[simp] theorem updProfile_freeSeed : (s.updProfile f).freeSeed = s.freeSeed := rfl
@[simp] theorem updProfile_pending : (s.updProfile f).pending = s.pending := rfl
theorem updProfile_profile : (s.updProfile f).profile = f s.profile := rfl

end updProfile

section updWatch
variable (s : State) (f : Watch → Watch)

@[simp] theorem updWatch_powered : (s.updWatch f).powered = s.powered := rfl
@[simp] theorem updWatch_cause : (s.updWatch f).cause = s.cause := rfl
@[simp] theorem updWatch_hc : (s.updWatch f).hc = s.hc := rfl
@[simp] theorem updWatch_phase : (s.updWatch f).phase = s.phase := rfl
@[simp] theorem updWatch_fc : (s.updWatch f).fc = s.fc := rfl
@[simp] theorem updWatch_closeDue : (s.updWatch f).closeDue = s.closeDue := rfl
@[simp] theorem updWatch_gpiDue : (s.updWatch f).gpiDue = s.gpiDue := rfl
@[simp] theorem updWatch_boundaryHere : (s.updWatch f).boundaryHere = s.boundaryHere := rfl
@[simp] theorem updWatch_ref : (s.updWatch f).ref = s.ref := rfl
@[simp] theorem updWatch_ports : (s.updWatch f).ports = s.ports := rfl
@[simp] theorem updWatch_lanes : (s.updWatch f).lanes = s.lanes := rfl
@[simp] theorem updWatch_pgms : (s.updWatch f).pgms = s.pgms := rfl
@[simp] theorem updWatch_owners : (s.updWatch f).owners = s.owners := rfl
@[simp] theorem updWatch_presets : (s.updWatch f).presets = s.presets := rfl
@[simp] theorem updWatch_probe : (s.updWatch f).probe = s.probe := rfl
@[simp] theorem updWatch_reports : (s.updWatch f).reports = s.reports := rfl
@[simp] theorem updWatch_scanDue : (s.updWatch f).scanDue = s.scanDue := rfl
@[simp] theorem updWatch_scanNo : (s.updWatch f).scanNo = s.scanNo := rfl
@[simp] theorem updWatch_points : (s.updWatch f).points = s.points := rfl
@[simp] theorem updWatch_gpis : (s.updWatch f).gpis = s.gpis := rfl
@[simp] theorem updWatch_gpiFirst : (s.updWatch f).gpiFirst = s.gpiFirst := rfl
@[simp] theorem updWatch_gpiFifo : (s.updWatch f).gpiFifo = s.gpiFifo := rfl
@[simp] theorem updWatch_gpiOverflow : (s.updWatch f).gpiOverflow = s.gpiOverflow := rfl
@[simp] theorem updWatch_gpos : (s.updWatch f).gpos = s.gpos := rfl
@[simp] theorem updWatch_slots : (s.updWatch f).slots = s.slots := rfl
@[simp] theorem updWatch_takes : (s.updWatch f).takes = s.takes := rfl
@[simp] theorem updWatch_nextId : (s.updWatch f).nextId = s.nextId := rfl
@[simp] theorem updWatch_link : (s.updWatch f).link = s.link := rfl
@[simp] theorem updWatch_profile : (s.updWatch f).profile = s.profile := rfl
@[simp] theorem updWatch_pins : (s.updWatch f).pins = s.pins := rfl
@[simp] theorem updWatch_freeSeed : (s.updWatch f).freeSeed = s.freeSeed := rfl
@[simp] theorem updWatch_pending : (s.updWatch f).pending = s.pending := rfl
theorem updWatch_watch : (s.updWatch f).watch = f s.watch := rfl

end updWatch

section updPins
variable (s : State) (f : Pins → Pins)

@[simp] theorem updPins_powered : (s.updPins f).powered = s.powered := rfl
@[simp] theorem updPins_cause : (s.updPins f).cause = s.cause := rfl
@[simp] theorem updPins_hc : (s.updPins f).hc = s.hc := rfl
@[simp] theorem updPins_phase : (s.updPins f).phase = s.phase := rfl
@[simp] theorem updPins_fc : (s.updPins f).fc = s.fc := rfl
@[simp] theorem updPins_closeDue : (s.updPins f).closeDue = s.closeDue := rfl
@[simp] theorem updPins_gpiDue : (s.updPins f).gpiDue = s.gpiDue := rfl
@[simp] theorem updPins_boundaryHere : (s.updPins f).boundaryHere = s.boundaryHere := rfl
@[simp] theorem updPins_ref : (s.updPins f).ref = s.ref := rfl
@[simp] theorem updPins_ports : (s.updPins f).ports = s.ports := rfl
@[simp] theorem updPins_lanes : (s.updPins f).lanes = s.lanes := rfl
@[simp] theorem updPins_pgms : (s.updPins f).pgms = s.pgms := rfl
@[simp] theorem updPins_owners : (s.updPins f).owners = s.owners := rfl
@[simp] theorem updPins_presets : (s.updPins f).presets = s.presets := rfl
@[simp] theorem updPins_probe : (s.updPins f).probe = s.probe := rfl
@[simp] theorem updPins_reports : (s.updPins f).reports = s.reports := rfl
@[simp] theorem updPins_scanDue : (s.updPins f).scanDue = s.scanDue := rfl
@[simp] theorem updPins_scanNo : (s.updPins f).scanNo = s.scanNo := rfl
@[simp] theorem updPins_points : (s.updPins f).points = s.points := rfl
@[simp] theorem updPins_gpis : (s.updPins f).gpis = s.gpis := rfl
@[simp] theorem updPins_gpiFirst : (s.updPins f).gpiFirst = s.gpiFirst := rfl
@[simp] theorem updPins_gpiFifo : (s.updPins f).gpiFifo = s.gpiFifo := rfl
@[simp] theorem updPins_gpiOverflow : (s.updPins f).gpiOverflow = s.gpiOverflow := rfl
@[simp] theorem updPins_watch : (s.updPins f).watch = s.watch := rfl
@[simp] theorem updPins_gpos : (s.updPins f).gpos = s.gpos := rfl
@[simp] theorem updPins_slots : (s.updPins f).slots = s.slots := rfl
@[simp] theorem updPins_takes : (s.updPins f).takes = s.takes := rfl
@[simp] theorem updPins_nextId : (s.updPins f).nextId = s.nextId := rfl
@[simp] theorem updPins_link : (s.updPins f).link = s.link := rfl
@[simp] theorem updPins_profile : (s.updPins f).profile = s.profile := rfl
@[simp] theorem updPins_freeSeed : (s.updPins f).freeSeed = s.freeSeed := rfl
@[simp] theorem updPins_pending : (s.updPins f).pending = s.pending := rfl
theorem updPins_pins : (s.updPins f).pins = f s.pins := rfl

end updPins

section setOwners
variable (s : State) (o : List PageOwner)

@[simp] theorem setOwners_powered : (s.setOwners o).powered = s.powered := rfl
@[simp] theorem setOwners_cause : (s.setOwners o).cause = s.cause := rfl
@[simp] theorem setOwners_hc : (s.setOwners o).hc = s.hc := rfl
@[simp] theorem setOwners_phase : (s.setOwners o).phase = s.phase := rfl
@[simp] theorem setOwners_fc : (s.setOwners o).fc = s.fc := rfl
@[simp] theorem setOwners_closeDue : (s.setOwners o).closeDue = s.closeDue := rfl
@[simp] theorem setOwners_gpiDue : (s.setOwners o).gpiDue = s.gpiDue := rfl
@[simp] theorem setOwners_boundaryHere : (s.setOwners o).boundaryHere = s.boundaryHere := rfl
@[simp] theorem setOwners_ref : (s.setOwners o).ref = s.ref := rfl
@[simp] theorem setOwners_ports : (s.setOwners o).ports = s.ports := rfl
@[simp] theorem setOwners_lanes : (s.setOwners o).lanes = s.lanes := rfl
@[simp] theorem setOwners_pgms : (s.setOwners o).pgms = s.pgms := rfl
@[simp] theorem setOwners_presets : (s.setOwners o).presets = s.presets := rfl
@[simp] theorem setOwners_probe : (s.setOwners o).probe = s.probe := rfl
@[simp] theorem setOwners_reports : (s.setOwners o).reports = s.reports := rfl
@[simp] theorem setOwners_scanDue : (s.setOwners o).scanDue = s.scanDue := rfl
@[simp] theorem setOwners_scanNo : (s.setOwners o).scanNo = s.scanNo := rfl
@[simp] theorem setOwners_points : (s.setOwners o).points = s.points := rfl
@[simp] theorem setOwners_gpis : (s.setOwners o).gpis = s.gpis := rfl
@[simp] theorem setOwners_gpiFirst : (s.setOwners o).gpiFirst = s.gpiFirst := rfl
@[simp] theorem setOwners_gpiFifo : (s.setOwners o).gpiFifo = s.gpiFifo := rfl
@[simp] theorem setOwners_gpiOverflow : (s.setOwners o).gpiOverflow = s.gpiOverflow := rfl
@[simp] theorem setOwners_watch : (s.setOwners o).watch = s.watch := rfl
@[simp] theorem setOwners_gpos : (s.setOwners o).gpos = s.gpos := rfl
@[simp] theorem setOwners_slots : (s.setOwners o).slots = s.slots := rfl
@[simp] theorem setOwners_takes : (s.setOwners o).takes = s.takes := rfl
@[simp] theorem setOwners_nextId : (s.setOwners o).nextId = s.nextId := rfl
@[simp] theorem setOwners_link : (s.setOwners o).link = s.link := rfl
@[simp] theorem setOwners_profile : (s.setOwners o).profile = s.profile := rfl
@[simp] theorem setOwners_pins : (s.setOwners o).pins = s.pins := rfl
@[simp] theorem setOwners_freeSeed : (s.setOwners o).freeSeed = s.freeSeed := rfl
@[simp] theorem setOwners_pending : (s.setOwners o).pending = s.pending := rfl
theorem setOwners_owners : (s.setOwners o).owners = o := rfl

end setOwners

section setTakes
variable (s : State) (t : List TakeEntry)

@[simp] theorem setTakes_powered : (s.setTakes t).powered = s.powered := rfl
@[simp] theorem setTakes_cause : (s.setTakes t).cause = s.cause := rfl
@[simp] theorem setTakes_hc : (s.setTakes t).hc = s.hc := rfl
@[simp] theorem setTakes_phase : (s.setTakes t).phase = s.phase := rfl
@[simp] theorem setTakes_fc : (s.setTakes t).fc = s.fc := rfl
@[simp] theorem setTakes_closeDue : (s.setTakes t).closeDue = s.closeDue := rfl
@[simp] theorem setTakes_gpiDue : (s.setTakes t).gpiDue = s.gpiDue := rfl
@[simp] theorem setTakes_boundaryHere : (s.setTakes t).boundaryHere = s.boundaryHere := rfl
@[simp] theorem setTakes_ref : (s.setTakes t).ref = s.ref := rfl
@[simp] theorem setTakes_ports : (s.setTakes t).ports = s.ports := rfl
@[simp] theorem setTakes_lanes : (s.setTakes t).lanes = s.lanes := rfl
@[simp] theorem setTakes_pgms : (s.setTakes t).pgms = s.pgms := rfl
@[simp] theorem setTakes_owners : (s.setTakes t).owners = s.owners := rfl
@[simp] theorem setTakes_presets : (s.setTakes t).presets = s.presets := rfl
@[simp] theorem setTakes_probe : (s.setTakes t).probe = s.probe := rfl
@[simp] theorem setTakes_reports : (s.setTakes t).reports = s.reports := rfl
@[simp] theorem setTakes_scanDue : (s.setTakes t).scanDue = s.scanDue := rfl
@[simp] theorem setTakes_scanNo : (s.setTakes t).scanNo = s.scanNo := rfl
@[simp] theorem setTakes_points : (s.setTakes t).points = s.points := rfl
@[simp] theorem setTakes_gpis : (s.setTakes t).gpis = s.gpis := rfl
@[simp] theorem setTakes_gpiFirst : (s.setTakes t).gpiFirst = s.gpiFirst := rfl
@[simp] theorem setTakes_gpiFifo : (s.setTakes t).gpiFifo = s.gpiFifo := rfl
@[simp] theorem setTakes_gpiOverflow : (s.setTakes t).gpiOverflow = s.gpiOverflow := rfl
@[simp] theorem setTakes_watch : (s.setTakes t).watch = s.watch := rfl
@[simp] theorem setTakes_gpos : (s.setTakes t).gpos = s.gpos := rfl
@[simp] theorem setTakes_slots : (s.setTakes t).slots = s.slots := rfl
@[simp] theorem setTakes_nextId : (s.setTakes t).nextId = s.nextId := rfl
@[simp] theorem setTakes_link : (s.setTakes t).link = s.link := rfl
@[simp] theorem setTakes_profile : (s.setTakes t).profile = s.profile := rfl
@[simp] theorem setTakes_pins : (s.setTakes t).pins = s.pins := rfl
@[simp] theorem setTakes_freeSeed : (s.setTakes t).freeSeed = s.freeSeed := rfl
@[simp] theorem setTakes_pending : (s.setTakes t).pending = s.pending := rfl
theorem setTakes_takes : (s.setTakes t).takes = t := rfl

end setTakes

section notify
variable (s : State) (k : NoticeKind) (l : List Fld)

@[simp] theorem notify_powered : (s.notify k l).powered = s.powered := rfl
@[simp] theorem notify_cause : (s.notify k l).cause = s.cause := rfl
@[simp] theorem notify_hc : (s.notify k l).hc = s.hc := rfl
@[simp] theorem notify_phase : (s.notify k l).phase = s.phase := rfl
@[simp] theorem notify_fc : (s.notify k l).fc = s.fc := rfl
@[simp] theorem notify_closeDue : (s.notify k l).closeDue = s.closeDue := rfl
@[simp] theorem notify_gpiDue : (s.notify k l).gpiDue = s.gpiDue := rfl
@[simp] theorem notify_boundaryHere : (s.notify k l).boundaryHere = s.boundaryHere := rfl
@[simp] theorem notify_ref : (s.notify k l).ref = s.ref := rfl
@[simp] theorem notify_ports : (s.notify k l).ports = s.ports := rfl
@[simp] theorem notify_lanes : (s.notify k l).lanes = s.lanes := rfl
@[simp] theorem notify_pgms : (s.notify k l).pgms = s.pgms := rfl
@[simp] theorem notify_owners : (s.notify k l).owners = s.owners := rfl
@[simp] theorem notify_presets : (s.notify k l).presets = s.presets := rfl
@[simp] theorem notify_probe : (s.notify k l).probe = s.probe := rfl
@[simp] theorem notify_reports : (s.notify k l).reports = s.reports := rfl
@[simp] theorem notify_scanDue : (s.notify k l).scanDue = s.scanDue := rfl
@[simp] theorem notify_scanNo : (s.notify k l).scanNo = s.scanNo := rfl
@[simp] theorem notify_points : (s.notify k l).points = s.points := rfl
@[simp] theorem notify_gpis : (s.notify k l).gpis = s.gpis := rfl
@[simp] theorem notify_gpiFirst : (s.notify k l).gpiFirst = s.gpiFirst := rfl
@[simp] theorem notify_gpiFifo : (s.notify k l).gpiFifo = s.gpiFifo := rfl
@[simp] theorem notify_gpiOverflow : (s.notify k l).gpiOverflow = s.gpiOverflow := rfl
@[simp] theorem notify_watch : (s.notify k l).watch = s.watch := rfl
@[simp] theorem notify_gpos : (s.notify k l).gpos = s.gpos := rfl
@[simp] theorem notify_slots : (s.notify k l).slots = s.slots := rfl
@[simp] theorem notify_takes : (s.notify k l).takes = s.takes := rfl
@[simp] theorem notify_nextId : (s.notify k l).nextId = s.nextId := rfl
@[simp] theorem notify_profile : (s.notify k l).profile = s.profile := rfl
@[simp] theorem notify_pins : (s.notify k l).pins = s.pins := rfl
@[simp] theorem notify_freeSeed : (s.notify k l).freeSeed = s.freeSeed := rfl
@[simp] theorem notify_pending : (s.notify k l).pending = s.pending := rfl
theorem notify_link : (s.notify k l).link = s.link.notice (.notice k l) := rfl

end notify

section sendReply
variable (s : State) (tag : Option Nat) (r : Reply)

@[simp] theorem sendReply_powered : (s.sendReply tag r).powered = s.powered := rfl
@[simp] theorem sendReply_cause : (s.sendReply tag r).cause = s.cause := rfl
@[simp] theorem sendReply_hc : (s.sendReply tag r).hc = s.hc := rfl
@[simp] theorem sendReply_phase : (s.sendReply tag r).phase = s.phase := rfl
@[simp] theorem sendReply_fc : (s.sendReply tag r).fc = s.fc := rfl
@[simp] theorem sendReply_closeDue : (s.sendReply tag r).closeDue = s.closeDue := rfl
@[simp] theorem sendReply_gpiDue : (s.sendReply tag r).gpiDue = s.gpiDue := rfl
@[simp] theorem sendReply_boundaryHere : (s.sendReply tag r).boundaryHere = s.boundaryHere := rfl
@[simp] theorem sendReply_ref : (s.sendReply tag r).ref = s.ref := rfl
@[simp] theorem sendReply_ports : (s.sendReply tag r).ports = s.ports := rfl
@[simp] theorem sendReply_lanes : (s.sendReply tag r).lanes = s.lanes := rfl
@[simp] theorem sendReply_pgms : (s.sendReply tag r).pgms = s.pgms := rfl
@[simp] theorem sendReply_owners : (s.sendReply tag r).owners = s.owners := rfl
@[simp] theorem sendReply_presets : (s.sendReply tag r).presets = s.presets := rfl
@[simp] theorem sendReply_probe : (s.sendReply tag r).probe = s.probe := rfl
@[simp] theorem sendReply_reports : (s.sendReply tag r).reports = s.reports := rfl
@[simp] theorem sendReply_scanDue : (s.sendReply tag r).scanDue = s.scanDue := rfl
@[simp] theorem sendReply_scanNo : (s.sendReply tag r).scanNo = s.scanNo := rfl
@[simp] theorem sendReply_points : (s.sendReply tag r).points = s.points := rfl
@[simp] theorem sendReply_gpis : (s.sendReply tag r).gpis = s.gpis := rfl
@[simp] theorem sendReply_gpiFirst : (s.sendReply tag r).gpiFirst = s.gpiFirst := rfl
@[simp] theorem sendReply_gpiFifo : (s.sendReply tag r).gpiFifo = s.gpiFifo := rfl
@[simp] theorem sendReply_gpiOverflow : (s.sendReply tag r).gpiOverflow = s.gpiOverflow := rfl
@[simp] theorem sendReply_watch : (s.sendReply tag r).watch = s.watch := rfl
@[simp] theorem sendReply_gpos : (s.sendReply tag r).gpos = s.gpos := rfl
@[simp] theorem sendReply_slots : (s.sendReply tag r).slots = s.slots := rfl
@[simp] theorem sendReply_takes : (s.sendReply tag r).takes = s.takes := rfl
@[simp] theorem sendReply_nextId : (s.sendReply tag r).nextId = s.nextId := rfl
@[simp] theorem sendReply_profile : (s.sendReply tag r).profile = s.profile := rfl
@[simp] theorem sendReply_pins : (s.sendReply tag r).pins = s.pins := rfl
@[simp] theorem sendReply_freeSeed : (s.sendReply tag r).freeSeed = s.freeSeed := rfl
@[simp] theorem sendReply_pending : (s.sendReply tag r).pending = s.pending := rfl
theorem sendReply_link : (s.sendReply tag r).link = s.link.reply tag r := rfl

end sendReply

@[simp] theorem updPort_self (s : State) (i : PortId) (f : Port → Port) : (s.updPort i f).ports[i] = f s.ports[i] := by
  simp [updPort]

theorem updPort_ne (s : State) {i j : PortId} (h : i ≠ j) (f : Port → Port) : (s.updPort i f).ports[j] = s.ports[j] := by
  have h' : (i : Nat) ≠ j := fun e => h (Fin.ext e)
  simp [updPort, h']

@[simp] theorem updLane_self (s : State) (i : LaneId) (f : Lane → Lane) : (s.updLane i f).lanes[i] = f s.lanes[i] := by
  simp [updLane]

theorem updLane_ne (s : State) {i j : LaneId} (h : i ≠ j) (f : Lane → Lane) : (s.updLane i f).lanes[j] = s.lanes[j] := by
  have h' : (i : Nat) ≠ j := fun e => h (Fin.ext e)
  simp [updLane, h']

@[simp] theorem updPgm_self (s : State) (i : ProgId) (f : Pgm → Pgm) : (s.updPgm i f).pgms[i] = f s.pgms[i] := by
  simp [updPgm]

theorem updPgm_ne (s : State) {i j : ProgId} (h : i ≠ j) (f : Pgm → Pgm) : (s.updPgm i f).pgms[j] = s.pgms[j] := by
  have h' : (i : Nat) ≠ j := fun e => h (Fin.ext e)
  simp [updPgm, h']

@[simp] theorem updPoint_self (s : State) (i : PointId) (f : Point → Point) : (s.updPoint i f).points[i] = f s.points[i] := by
  simp [updPoint]

theorem updPoint_ne (s : State) {i j : PointId} (h : i ≠ j) (f : Point → Point) : (s.updPoint i f).points[j] = s.points[j] := by
  have h' : (i : Nat) ≠ j := fun e => h (Fin.ext e)
  simp [updPoint, h']

@[simp] theorem updGpi_self (s : State) (i : LineId) (f : Gpi → Gpi) : (s.updGpi i f).gpis[i] = f s.gpis[i] := by
  simp [updGpi]

theorem updGpi_ne (s : State) {i j : LineId} (h : i ≠ j) (f : Gpi → Gpi) : (s.updGpi i f).gpis[j] = s.gpis[j] := by
  have h' : (i : Nat) ≠ j := fun e => h (Fin.ext e)
  simp [updGpi, h']

@[simp] theorem updGpo_self (s : State) (i : LineId) (f : Gpo → Gpo) : (s.updGpo i f).gpos[i] = f s.gpos[i] := by
  simp [updGpo]

theorem updGpo_ne (s : State) {i j : LineId} (h : i ≠ j) (f : Gpo → Gpo) : (s.updGpo i f).gpos[j] = s.gpos[j] := by
  have h' : (i : Nat) ≠ j := fun e => h (Fin.ext e)
  simp [updGpo, h']

@[simp] theorem updSlot_self (s : State) (i : SlotId) (f : Slot → Slot) : (s.updSlot i f).slots[i] = f s.slots[i] := by
  simp [updSlot]

theorem updSlot_ne (s : State) {i j : SlotId} (h : i ≠ j) (f : Slot → Slot) : (s.updSlot i f).slots[j] = s.slots[j] := by
  have h' : (i : Nat) ≠ j := fun e => h (Fin.ext e)
  simp [updSlot, h']

@[simp] theorem updPreset_self (s : State) (i : PresetId) (f : Preset → Preset) : (s.updPreset i f).presets[i] = f s.presets[i] := by
  simp [updPreset]

theorem updPreset_ne (s : State) {i j : PresetId} (h : i ≠ j) (f : Preset → Preset) : (s.updPreset i f).presets[j] = s.presets[j] := by
  have h' : (i : Nat) ≠ j := fun e => h (Fin.ext e)
  simp [updPreset, h']

@[simp] theorem updCtl_self (s : State) (p : ProgId) (f : Ctl → Ctl) :
    (s.updCtl p f).pgms[p] = { s.pgms[p] with ctl := f s.pgms[p].ctl } := by
  unfold updCtl; exact updPgm_self s p _

theorem updCtl_ne (s : State) {p q : ProgId} (h : p ≠ q) (f : Ctl → Ctl) :
    (s.updCtl p f).pgms[q] = s.pgms[q] := updPgm_ne s h _

@[simp] theorem updDly_self (s : State) (p : ProgId) (f : Delay → Delay) :
    (s.updDly p f).pgms[p] = { s.pgms[p] with dly := f s.pgms[p].dly } := by
  unfold updDly; exact updPgm_self s p _

theorem updDly_ne (s : State) {p q : ProgId} (h : p ≠ q) (f : Delay → Delay) :
    (s.updDly p f).pgms[q] = s.pgms[q] := updPgm_ne s h _

@[simp] theorem updMtr_self (s : State) (p : ProgId) (f : Meter → Meter) :
    (s.updMtr p f).pgms[p] = { s.pgms[p] with mtr := f s.pgms[p].mtr } := by
  unfold updMtr; exact updPgm_self s p _

theorem updMtr_ne (s : State) {p q : ProgId} (h : p ≠ q) (f : Meter → Meter) :
    (s.updMtr p f).pgms[q] = s.pgms[q] := updPgm_ne s h _

@[simp] theorem updCor_self (s : State) (p : ProgId) (f : Correction → Correction) :
    (s.updCor p f).pgms[p] = { s.pgms[p] with cor := f s.pgms[p].cor } := by
  unfold updCor; exact updPgm_self s p _

theorem updCor_ne (s : State) {p q : ProgId} (h : p ≠ q) (f : Correction → Correction) :
    (s.updCor p f).pgms[q] = s.pgms[q] := updPgm_ne s h _

end Sys2Proof.Machine.State
end

