-- ==== Sys2Proof/Laws/Ops.lean ====
section
/-! SUPPORT. What the shared operations can do: searches and clamps, the page pool, the link, and the two ways in which a
command acts. -/

namespace Sys2Proof.Machine

/-! ### Searches and clamps -/

/-- A search never falls below its start. -/
theorem le_findMax (p : Nat → Bool) (lo bits : Nat) : lo ≤ findMax p lo bits := by
  induction bits generalizing lo with
  | zero => exact Nat.le_refl lo
  | succ n ih =>
    unfold findMax
    split
    · exact Nat.le_trans (Nat.le_add_right lo _) (ih _)
    · exact ih lo

/-- A search stays below its start plus the range of its offset. -/
theorem findMax_lt (p : Nat → Bool) (lo bits : Nat) : findMax p lo bits < lo + 2 ^ bits := by
  induction bits generalizing lo with
  | zero => simp [findMax]
  | succ n ih =>
    unfold findMax
    have h := Nat.pow_succ 2 n
    split
    · have := ih (lo + 2 ^ n); omega
    · have := ih lo; omega

/-- What a search finds meets its test, where its start does. -/
theorem findMax_holds (p : Nat → Bool) (lo bits : Nat) (h : p lo = true) : p (findMax p lo bits) = true := by
  induction bits generalizing lo with
  | zero => exact h
  | succ n ih =>
    unfold findMax
    split
    · exact ih _ ‹_›
    · exact ih _ h

/-- For a test that fails from some number on, nothing in range above what a search finds meets it. -/
theorem findMax_largest (p : Nat → Bool) (lo bits : Nat)
    (mono : ∀ a b, a ≤ b → p b = true → p a = true) (x : Nat) (hx : x < lo + 2 ^ bits)
    (h : p x = true) : x ≤ findMax p lo bits := by
  induction bits generalizing lo with
  | zero => simp only [findMax]; omega
  | succ n ih =>
    unfold findMax
    have hp := Nat.pow_succ 2 n
    split
    · exact ih _ (by omega)
    · rename_i hn
      refine ih lo ?_
      by_contra hc
      exact hn (mono _ x (by omega) h)

theorem clampInt_range (lo hi x : Int) (h : lo ≤ hi) : lo ≤ clampInt lo hi x ∧ clampInt lo hi x ≤ hi := by
  unfold clampInt; omega

theorem clampInt_of_mem (lo hi x : Int) (h1 : lo ≤ x) (h2 : x ≤ hi) : clampInt lo hi x = x := by
  unfold clampInt; omega

theorem countUp_le (top n : Nat) : countUp top n ≤ top := Nat.min_le_left _ _

/-! ### The page pool -/

@[simp] theorem attachPages_length (o : PageOwner) (n : Nat) (l : List PageOwner) :
    (attachPages o n l).length = l.length := by
  induction l generalizing n with
  | nil => cases n <;> rfl
  | cons x l ih =>
    cases n with
    | zero => rfl
    | succ n => unfold attachPages; split <;> simp [ih]

@[simp] theorem releasePages_length (o : PageOwner) (n : Nat) (l : List PageOwner) :
    (releasePages o n l).length = l.length := by
  induction l generalizing n with
  | nil => cases n <;> rfl
  | cons x l ih =>
    cases n with
    | zero => rfl
    | succ n => unfold releasePages; split <;> simp [ih]

@[simp] theorem releaseAll_length (o : PageOwner) (l : List PageOwner) : (releaseAll o l).length = l.length := by
  simp [releaseAll]

@[simp] theorem releasePgm_length (p : ProgId) (l : List PageOwner) : (releasePgm p l).length = l.length := by
  simp [releasePgm]

/-- A fold of steps that keep a length keeps it. -/
theorem foldl_length_eq {α β : Type} (f : List α → β → List α) (h : ∀ l x, (f l x).length = l.length)
    (xs : List β) (l : List α) : (xs.foldl f l).length = l.length := by
  induction xs generalizing l with
  | nil => rfl
  | cons x xs ih => simp only [List.foldl_cons, ih, h]

@[simp] theorem attachLanes_length (p : ProgId) (k a : Nat) (l : List PageOwner) :
    (attachLanes p k a l).length = l.length := foldl_length_eq _ (fun _ _ => attachPages_length _ _ _) _ _

@[simp] theorem releaseLanes_length (p : ProgId) (k n : Nat) (l : List PageOwner) :
    (releaseLanes p k n l).length = l.length := foldl_length_eq _ (fun _ _ => releasePages_length _ _ _) _ _

/-- A fold of steps that keep a property keeps it. -/
theorem foldl_keeps {α β : Type} (P : α → Prop) (f : α → β → α) (h : ∀ a x, P a → P (f a x)) (xs : List β)
    (a : α) (ha : P a) : P (xs.foldl f a) := by
  induction xs generalizing a with
  | nil => exact ha
  | cons x xs ih => exact ih _ (h a x ha)

/-! ### The link -/

/-- R189: a notice never takes the FIFO above the larger of what it held and 40 lines. -/
theorem Link.notice_fifo_le (l : Link) (x : Line) : (l.notice x).fifo.length ≤ max l.fifo.length 40 := by
  unfold Link.notice Link.hold Config.takeLevel
  split
  · simp_all
  · split <;> exact Nat.le_max_left _ _

/-- R189: a notice keeps the held-notice list at 16 lines or fewer. -/
theorem Link.notice_held_le (l : Link) (x : Line) (h : l.held.length ≤ 16) : (l.notice x).held.length ≤ 16 := by
  unfold Link.notice Link.hold Config.takeLevel Config.heldMax
  split
  · exact h
  · split <;> simp <;> omega

@[simp] theorem Link.reply_fifo (l : Link) (tag : Option Nat) (r : Reply) :
    (l.reply tag r).fifo = l.fifo ++ [.reply tag r] := rfl

@[simp] theorem Link.reply_held (l : Link) (tag : Option Nat) (r : Reply) : (l.reply tag r).held = l.held := rfl

@[simp] theorem Link.reply_waiting (l : Link) (tag : Option Nat) (r : Reply) :
    (l.reply tag r).waiting = l.waiting := rfl

/-! ### How a command acts -/

theorem event_powered (f : State → State) (s : State) (h : s.powered = true) : event f s = .next (f s) := by
  simp [event, h]

theorem event_unpowered (f : State → State) (s : State) (h : s.powered = false) : event f s = .next s := by
  simp [event, h]

theorem receive_ready (i : Instr) (run : State → State) (s : State) (h : Ready s) :
    receive i run s = .next (run s) := by
  obtain ⟨h1, h2, h3⟩ := h
  simp [receive, h1, h3, Config.takeLevel, h2]

theorem receive_unpowered (i : Instr) (run : State → State) (s : State) (h : s.powered = false) :
    receive i run s = .next s := by
  simp [receive, h]

/-- R187: a request with a readable tag is answered by what its block makes of it. -/
theorem State.answer_tag (s : State) (tag : Nat) (f : State → Answer) (h : tag ≤ 9999) :
    s.answer tag f = (f s).2.sendReply (some tag) (f s).1 := by
  simp [State.answer, h]

/-- R188: a line that a ready part takes with a readable tag is answered by its block. -/
theorem receive_answer (i : Instr) (tag : Nat) (f : State → Answer) (s : State) (h : Ready s) (ht : tag ≤ 9999) :
    receive i (fun s => s.answer tag f) s = .next ((f s).2.sendReply (some tag) (f s).1) := by
  rw [receive_ready _ _ _ h, State.answer_tag _ _ _ ht]

/-- `event` answers a next state, whatever it runs. -/
theorem event_next (f : State → State) (s : State) : ∃ t, event f s = .next t := by
  unfold event; split <;> exact ⟨_, rfl⟩

/-- `receive` answers a next state, whatever it runs. -/
theorem receive_next (i : Instr) (run : State → State) (s : State) : ∃ t, receive i run s = .next t := by
  unfold receive; split
  · exact ⟨_, rfl⟩
  · split <;> exact ⟨_, rfl⟩

/-! ### Arguments -/

theorem asFin_eq_some {n : Nat} {x : Int} {i : Fin n} : asFin n x = some i ↔ x = (i.val : Int) := by
  unfold asFin
  split
  · rename_i h
    constructor
    · intro e
      have := congrArg Fin.val (Option.some.inj e)
      simp only at this
      omega
    · intro e
      congr 1
      exact Fin.ext (by simp only; omega)
  · rename_i h
    have := i.isLt
    simp only [reduceCtorEq, false_iff]
    omega

theorem asFin_eq_none {n : Nat} {x : Int} : asFin n x = none ↔ x < 0 ∨ (n : Int) ≤ x := by
  unfold asFin; split <;> simp <;> omega

theorem Tok.fin?_index {k : NameKind} {n : Nat} {t : Tok} {i : Fin n} (h : Tok.fin? k n t = some i) :
    ∃ x, Tok.index? k t = some x ∧ asFin n x = some i := by
  unfold Tok.fin? at h
  cases hx : Tok.index? k t with
  | none => simp [hx] at h
  | some x => exact ⟨x, rfl, by simpa [hx] using h⟩

/-- An argument that names a thing is handed on as that thing. -/
theorem withIndex_fin {k : NameKind} {n : Nat} {t : Tok} {s : State} {f : Fin n → Answer} {i : Fin n}
    (h : Tok.fin? k n t = some i) : withIndex k n t s f = f i := by
  obtain ⟨x, h1, h2⟩ := Tok.fin?_index h
  simp [withIndex, h1, h2]

/-- An argument that reads as a number outside 0..n − 1 is refused with RANGE. -/
theorem withIndex_range {k : NameKind} {n : Nat} {t : Tok} {s : State} {f : Fin n → Answer} {x : Int}
    (h : Tok.index? k t = some x) (hx : x < 0 ∨ (n : Int) ≤ x) : withIndex k n t s f = refuse .range s := by
  simp [withIndex, h, asFin_eq_none.2 hx]

/-- An argument that cannot be read is refused with SYNTAX. -/
theorem withIndex_none {k : NameKind} {n : Nat} {t : Tok} {s : State} {f : Fin n → Answer}
    (h : Tok.index? k t = none) : withIndex k n t s f = refuse .synErr s := by
  simp [withIndex, h]

theorem outside_fin {k : NameKind} {n : Nat} {t : Tok} {i : Fin n} (h : Tok.fin? k n t = some i) :
    outside k n (some t) = false := by
  obtain ⟨x, h1, h2⟩ := Tok.fin?_index h
  simp [outside, h1, h2]

theorem outside_range {k : NameKind} {n : Nat} {t : Tok} {x : Int} (h : Tok.index? k t = some x)
    (hx : x < 0 ∨ (n : Int) ≤ x) : outside k n (some t) = true := by
  simp [outside, h, asFin_eq_none.2 hx]

/-- The words that a statement calls beyond a range are those that a request answers with RANGE. -/
theorem outside_iff_beyond {k : NameKind} {n : Nat} {t : Tok} : outside k n (some t) = true ↔ beyond k n t := by
  unfold outside beyond
  simp only [Option.bind_some]
  cases Tok.index? k t with
  | none => simp
  | some x => simp [asFin_eq_none]

/-! ### The converter's word (R30) -/

/-- A signal whose value is whole, with no slack, has that value for its word. -/
theorem wordNear_whole (n : Int) (free : Sample) :
    wordNear n 0 free = sampleOf (clampInt (-8388608) 8388607 n) := by
  simp [wordNear]

/-- Content below one unit of a word at every frame has no part in a word. -/
theorem freePart_small {c : RateClass} {ratio : Nat} {age : Rat} {first : Nat} {content : List Rat}
    (h : ∀ x ∈ content, wholePart x = 0) : freePart c ratio age first content = 0 := by
  unfold freePart
  refine List.sum_eq_zero fun y hy => ?_
  obtain ⟨b, hb, rfl⟩ := List.mem_map.1 hy
  obtain ⟨x, hx, hx0⟩ := List.mem_map.1 (List.fst_mem_of_mem_zipIdx hb)
  simp [← hx0, h x hx]

/-- Content below one unit of a word at every frame leaves nothing open to the words yet to come. -/
theorem openToCome_small {age : Rat} {atEdge : List Rat} (h : ∀ x ∈ atEdge, wholePart x = 0) : openToCome age atEdge = 0 := by
  have sizes : atEdge.map (fun x => if wholePart x = 0 then (0 : Rat) else |x|) = atEdge.map fun _ => 0 :=
    List.map_congr_left fun x hx => if_pos (h x hx)
  have zero : ∀ l : List Rat, (∀ y ∈ l, y = 0) → l.foldl max 0 = 0 := by
    intro l hl
    induction l with
    | nil => rfl
    | cons y l ih => rw [List.foldl_cons, hl y (by simp), max_self, ih fun z hz => hl z (List.mem_cons_of_mem y hz)]
  have newest : ((atEdge.map fun _ => (0 : Rat)).take Config.steadySpan).foldl max 0 = 0 := by
    refine zero _ fun y hy => ?_
    obtain ⟨x, _, rfl⟩ := List.mem_map.1 (List.mem_of_mem_take hy)
    rfl
  unfold openToCome
  simp only [sizes, newest]
  rw [zero _ fun y hy => ?_, mul_zero]
  obtain ⟨b, hb, rfl⟩ := List.mem_map.1 hy
  obtain ⟨x, _, hx⟩ := List.mem_map.1 (List.fst_mem_of_mem_zipIdx hb)
  rw [← hx]
  simp

/-- R30: what the words yet to come can do to the signal of a 32k feed that does not repeat. -/
theorem changingSignal_k32 (ratio : Nat) (words : List Sample) (age : Rat)
    (h : 0 ≤ openToCome age (contentAtEdge .k32 ratio words.length words)) :
    |(changingSignal .k32 ratio words age).1 - contentNear .k32 ratio words age| ≤
      openToCome age (contentAtEdge .k32 ratio words.length words) := by
  simp only [changingSignal, if_true]
  rw [abs_le]
  constructor
  · have := le_max_left (contentNear .k32 ratio words age - openToCome age (contentAtEdge .k32 ratio words.length words))
      (min (unityValue words (Config.coming (RateClass.ratio .k32) ratio words) age)
        (contentNear .k32 ratio words age + openToCome age (contentAtEdge .k32 ratio words.length words)))
    linarith
  · have := max_le (by linarith : contentNear .k32 ratio words age -
        openToCome age (contentAtEdge .k32 ratio words.length words) ≤ contentNear .k32 ratio words age +
          openToCome age (contentAtEdge .k32 ratio words.length words))
      (min_le_right (unityValue words (Config.coming (RateClass.ratio .k32) ratio words) age) _)
    linarith

/-! ### An input line (R155, R159) -/

@[simp] theorem Gpi.write_cfg (g : Gpi) (c : GpiCfg) (b : Bool) : (g.write c b).cfg = c := rfl
@[simp] theorem Gpi.write_level (g : Gpi) (c : GpiCfg) (b : Bool) : (g.write c b).level = g.level := rfl
@[simp] theorem Gpi.write_run (g : Gpi) (c : GpiCfg) (b : Bool) : (g.write c b).run = g.run := rfl
@[simp] theorem Gpi.write_runStart (g : Gpi) (c : GpiCfg) (b : Bool) : (g.write c b).runStart = g.runStart := rfl
@[simp] theorem Gpi.write_keeps (g : Gpi) (c : GpiCfg) : g.write c false = { g with cfg := c } := by simp [Gpi.write]

/-- A sample instant leaves a line's settings. -/
theorem Gpi.step_cfg (g : Gpi) (h : HouseCount) (sampled : Bool) : (g.step h sampled).1.cfg = g.cfg := by
  unfold Gpi.step
  split
  · rfl
  · dsimp only
    split <;> rfl

end Sys2Proof.Machine
end

