-- ==== Sys2Proof/Laws/Frames.lean ====
section
/-! SUPPORT. What the delay lines and the pool can do to the state: the operations of 04 change delay records, the owner map
and the link, and nothing else; and what becomes of a written change of source or mode. -/

namespace Sys2Proof.Machine

/-! ### Records of one programme -/

@[simp] theorem getElem_updPgm (s : State) (p q : ProgId) (f : Pgm → Pgm) :
    (s.updPgm p f).pgms[q] = if p = q then f s.pgms[q] else s.pgms[q] := by
  by_cases h : p = q
  · subst h; simp [State.updPgm]
  · have : (p : Nat) ≠ q := fun e => h (Fin.ext e)
    simp [State.updPgm, Vector.getElem_set_ne, this, h]

@[simp] theorem getElem_updDly (s : State) (p q : ProgId) (f : Delay → Delay) :
    (s.updDly p f).pgms[q] = if p = q then { s.pgms[q] with dly := f s.pgms[q].dly } else s.pgms[q] :=
  getElem_updPgm s p q _

@[simp] theorem getElem_updCtl (s : State) (p q : ProgId) (f : Ctl → Ctl) :
    (s.updCtl p f).pgms[q] = if p = q then { s.pgms[q] with ctl := f s.pgms[q].ctl } else s.pgms[q] :=
  getElem_updPgm s p q _

@[simp] theorem getElem_updMtr (s : State) (p q : ProgId) (f : Meter → Meter) :
    (s.updMtr p f).pgms[q] = if p = q then { s.pgms[q] with mtr := f s.pgms[q].mtr } else s.pgms[q] :=
  getElem_updPgm s p q _

@[simp] theorem getElem_updCor (s : State) (p q : ProgId) (f : Correction → Correction) :
    (s.updCor p f).pgms[q] = if p = q then { s.pgms[q] with cor := f s.pgms[q].cor } else s.pgms[q] :=
  getElem_updPgm s p q _

@[simp] theorem getElem_updPgm_val (s : State) (p q : ProgId) (f : Pgm → Pgm) :
    (s.updPgm p f).pgms[q.val] = if p = q then f s.pgms[q.val] else s.pgms[q.val] := getElem_updPgm s p q f

@[simp] theorem getElem_updDly_val (s : State) (p q : ProgId) (f : Delay → Delay) :
    (s.updDly p f).pgms[q.val] =
      if p = q then { s.pgms[q.val] with dly := f s.pgms[q.val].dly } else s.pgms[q.val] := getElem_updPgm s p q _

@[simp] theorem getElem_updCtl_val (s : State) (p q : ProgId) (f : Ctl → Ctl) :
    (s.updCtl p f).pgms[q.val] =
      if p = q then { s.pgms[q.val] with ctl := f s.pgms[q.val].ctl } else s.pgms[q.val] := getElem_updPgm s p q _

@[simp] theorem getElem_updMtr_val (s : State) (p q : ProgId) (f : Meter → Meter) :
    (s.updMtr p f).pgms[q.val] =
      if p = q then { s.pgms[q.val] with mtr := f s.pgms[q.val].mtr } else s.pgms[q.val] := getElem_updPgm s p q _

@[simp] theorem getElem_updCor_val (s : State) (p q : ProgId) (f : Correction → Correction) :
    (s.updCor p f).pgms[q.val] =
      if p = q then { s.pgms[q.val] with cor := f s.pgms[q.val].cor } else s.pgms[q.val] := getElem_updPgm s p q _

@[simp] theorem pagesNotice_pgms (p : ProgId) (c : Bool) (s : State) :
    (pagesNotice p c s).pgms = s.pgms := rfl

@[simp] theorem pagesNotice_owners (p : ProgId) (c : Bool) (s : State) :
    (pagesNotice p c s).owners = s.owners := rfl

/-- Two tables of programmes with equal records are equal. -/
theorem pgms_ext {a b : Vector Pgm 8} (h : ∀ q : ProgId, a[q] = b[q]) : a = b :=
  Vector.ext fun i hi => h ⟨i, hi⟩

/-! ### Changes of source and mode -/

/-- R50: what the controller makes of a written change is what the rules give. -/
theorem Ctl.settle_eq (c : Ctl) (here : Bool) : c.settle here = changeTaken here c := by
  obtain ⟨st, ly, ln, bp, m, ac, rv, rc, co, lc, pd, out, fp, fh, bl, inf, ⟨ps, pm⟩⟩ := c
  by_cases h : here = true ∧ bl = true ∧ out = .fadingDown ∧ fp = 0
  · obtain ⟨rfl, rfl, rfl, rfl⟩ := h
    generalize hx : inf.getD Change.empty = x
    obtain ⟨xs, xm⟩ := x
    cases ps <;> cases pm <;>
      simp [Ctl.settle, changeTaken, Ctl.backToWaiting, Ctl.beginLate, Ctl.atBoundary, Ctl.realParts, hx] <;>
      split_ifs <;> simp_all
  · have hb : (here && decide (bl = true ∧ out = .fadingDown ∧ fp = 0)) = false := by simpa using h
    simp only [Ctl.settle, changeTaken, if_neg h, hb]
    by_cases ho : out = .opened
    · subst ho
      cases here
      · simp
      · simp [Ctl.beginLate, Ctl.atBoundary, Ctl.realParts]
        split_ifs <;> simp_all
    · simp [ho]

/-! ### The link after notices -/

/-- R189: what notices can do to the link: lines join the FIFO up to 40, or the held-notice list. -/
structure Link.Noticed (l m : Link) : Prop where
  rest : m = { l with fifo := m.fifo, held := m.held, lost := m.lost }
  fifo : m.fifo.length ≤ max l.fifo.length 40
  held : l.held.length ≤ 16 → m.held.length ≤ 16

theorem Link.Noticed.refl (l : Link) : l.Noticed l := ⟨rfl, Nat.le_max_left _ _, id⟩

theorem Link.Noticed.trans {l m n : Link} (h : l.Noticed m) (k : m.Noticed n) : l.Noticed n :=
  ⟨by rw [k.rest, h.rest], by have := h.fifo; have := k.fifo; omega, fun a => k.held (h.held a)⟩

theorem Link.notice_noticed (l : Link) (x : Line) : l.Noticed (l.notice x) := by
  refine ⟨?_, l.notice_fifo_le x, l.notice_held_le x⟩
  unfold Link.notice Link.hold
  split
  · rfl
  · split <;> rfl

theorem State.notify_eq (s : State) (k : NoticeKind) (f : List Fld) :
    s.notify k f = { s with link := s.link.notice (.notice k f) } := rfl

/-! ### Delay records, pages and the link -/

/-- `t` is `s` but for delay records, page owners and notices. -/
structure DlyMoves (s t : State) : Prop where
  rest : t = { s with pgms := t.pgms, owners := t.owners, link := t.link }
  pgm : ∀ q : ProgId, t.pgms[q] = { s.pgms[q] with dly := t.pgms[q].dly }
  pages : t.owners.length = s.owners.length
  link : s.link.Noticed t.link

theorem DlyMoves.refl (s : State) : DlyMoves s s := ⟨rfl, fun _ => rfl, rfl, .refl _⟩

theorem DlyMoves.trans {s t u : State} (h : DlyMoves s t) (k : DlyMoves t u) : DlyMoves s u :=
  ⟨by rw [k.rest, h.rest], fun q => by rw [k.pgm q, h.pgm q], k.pages.trans h.pages, h.link.trans k.link⟩

theorem DlyMoves.updDly (s : State) (p : ProgId) (f : Delay → Delay) : DlyMoves s (s.updDly p f) :=
  ⟨rfl, fun q => by rw [getElem_updDly]; split <;> rfl, rfl, .refl _⟩

theorem DlyMoves.setOwners (s : State) (o : List PageOwner) (h : o.length = s.owners.length) :
    DlyMoves s (s.setOwners o) :=
  ⟨rfl, fun _ => rfl, h, .refl _⟩

theorem DlyMoves.notify (s : State) (k : NoticeKind) (f : List Fld) : DlyMoves s (s.notify k f) :=
  ⟨rfl, fun _ => rfl, rfl, s.link.notice_noticed _⟩

theorem DlyMoves.ctl {s t : State} (h : DlyMoves s t) (q : ProgId) : t.pgms[q].ctl = s.pgms[q].ctl := by
  rw [h.pgm q]

theorem DlyMoves.mtr {s t : State} (h : DlyMoves s t) (q : ProgId) : t.pgms[q].mtr = s.pgms[q].mtr := by
  rw [h.pgm q]

theorem DlyMoves.cor {s t : State} (h : DlyMoves s t) (q : ProgId) : t.pgms[q].cor = s.pgms[q].cor := by
  rw [h.pgm q]

/-- A fold of steps that move only delay records does so too. -/
theorem DlyMoves.foldl {α : Type} (f : State → α → State) (h : ∀ s x, DlyMoves s (f s x)) (xs : List α)
    (s : State) : DlyMoves s (xs.foldl f s) := by
  induction xs generalizing s with
  | nil => exact .refl s
  | cons x xs ih => exact (h s x).trans (ih _)

theorem formLength_moves (p : ProgId) (s : State) : DlyMoves s (formLength p s) := .updDly _ _ _

theorem pagesNotice_moves (p : ProgId) (c : Bool) (s : State) : DlyMoves s (pagesNotice p c s) :=
  .notify _ _ _

theorem serve_moves (s : State) (p : ProgId) : DlyMoves s (serve s p) := by
  unfold serve
  dsimp only
  split
  · exact .refl s
  split
  · refine .trans (.trans ?_ (.updDly _ _ _)) (pagesNotice_moves _ _ _)
    exact .setOwners _ _ (attachLanes_length _ _ _ _)
  split
  · exact .refl s
  · refine .trans (.trans ?_ (.updDly _ _ _)) (pagesNotice_moves _ _ _)
    exact .setOwners _ _ (attachLanes_length _ _ _ _)

theorem arbiter_moves (s : State) : DlyMoves s (arbiter s) := .foldl _ serve_moves _ _

theorem releaseExcess_moves (p : ProgId) (s : State) : DlyMoves s (releaseExcess p s) := by
  unfold releaseExcess
  dsimp only
  split
  · exact .refl s
  · refine .trans (.trans ?_ (.updDly _ _ _)) (arbiter_moves _)
    exact .setOwners _ _ (releaseLanes_length _ _ _ _)

theorem takeTarget_moves (p : ProgId) (n : Nat) (report : State → State) (h : ∀ s, DlyMoves s (report s))
    (s : State) : DlyMoves s (takeTarget p n report s) := by
  unfold takeTarget
  dsimp only
  split
  · exact .trans (.trans (.updDly _ _ _) (h _)) (releaseExcess_moves _ _)
  · exact .trans (.updDly _ _ _) (h _)

theorem retarget_moves (p : ProgId) (s : State) : DlyMoves s (retarget p s) := by
  unfold retarget
  dsimp only
  split
  · refine .trans (.trans (.trans (.setOwners _ _ (attachLanes_length _ _ _ _)) (.updDly _ _ _)) (.updDly _ _ _))
      (takeTarget_moves _ _ _ ?_ _)
    intro u
    split
    · exact pagesNotice_moves _ _ _
    · exact .refl u
  · exact .trans (.trans (.trans (.setOwners _ _ (attachLanes_length _ _ _ _)) (.updDly _ _ _)) (.updDly _ _ _))
      (takeTarget_moves _ _ _ (fun u => pagesNotice_moves _ _ u) _)

theorem handOver_moves (p : ProgId) (s : State) : DlyMoves s (handOver p s) := by
  unfold handOver
  dsimp only
  split
  · exact .trans (formLength_moves _ _) (retarget_moves _ _)
  · exact formLength_moves _ _

theorem slewStep_moves (p : ProgId) (s : State) : DlyMoves s (slewStep p s) := by
  unfold slewStep
  extract_lets d app s1
  split
  · split
    · exact .trans (.trans (.updDly _ _ _) (.updDly _ _ _)) (releaseExcess_moves _ _)
    · exact .updDly _ _ _
  · exact .refl s

theorem jumpBottom_moves (p : ProgId) (s : State) : DlyMoves s (jumpBottom p s) := by
  unfold jumpBottom
  dsimp only
  split
  · exact (DlyMoves.updDly _ _ _).trans ((releaseExcess_moves _ _).trans (DlyMoves.updDly _ _ _))
  · exact .refl s

theorem jumpFadeUpEnd_moves (p : ProgId) (s : State) : DlyMoves s (jumpFadeUpEnd p s) := by
  unfold jumpFadeUpEnd
  dsimp only
  split
  · split
    · exact .updDly _ _ _
    · split
      · exact (DlyMoves.updDly _ _ _).trans (releaseExcess_moves _ _)
      · exact (DlyMoves.updDly _ _ _).trans (DlyMoves.updDly _ _ _)
  · exact .refl s

theorem lineBoundary_moves (s : State) : DlyMoves s (lineBoundary s) := by
  refine .foldl _ (fun s p => ?_) _ _
  dsimp only
  split
  · exact .updDly _ _ _
  · exact .refl s

theorem writeVideo_moves (p : ProgId) (v : Int) (s : State) : DlyMoves s (writeVideo p v s).1 :=
  (DlyMoves.updDly _ _ _).trans (handOver_moves _ _)

theorem writeTrim_moves (p : ProgId) (o : Int) (s : State) : DlyMoves s (writeTrim p o s).1 :=
  (DlyMoves.updDly _ _ _).trans (handOver_moves _ _)

end Sys2Proof.Machine
end

