-- ==== Sys2Proof/Laws/Pages.lean ====
section
/-! SUPPORT. What attaching and releasing pages does to the count of every owner (R59, R60), and the figures of a line in the
form the statements give them. -/

namespace Sys2Proof.Machine

/-! ### Counts -/

/-- R59: what an attachment of `n` pages does to the count of every owner. -/
theorem attachPages_count (o x : PageOwner) (n : Nat) (l : List PageOwner) (ho : o ≠ .free) :
    (attachPages o n l).count x =
      if x = o then l.count o + min n (l.count .free)
      else if x = .free then l.count .free - min n (l.count .free) else l.count x := by
  induction l generalizing n with
  | nil => simp [attachPages]
  | cons y l ih =>
    cases n with
    | zero => simp only [attachPages]; split <;> simp_all
    | succ n =>
      simp only [attachPages]
      have ih1 := ih n
      have ih2 := ih (n + 1)
      clear ih
      split <;> rename_i hy <;> simp only [List.count_cons, beq_iff_eq, ih1, ih2] <;> clear ih1 ih2 <;>
        by_cases h2 : x = o <;> by_cases h3 : x = .free <;> by_cases h4 : y = x <;> simp_all <;>
        first | omega | (intro h; simp_all)

/-- R59: what a release of `n` pages does to the count of every owner. -/
theorem releasePages_count (o x : PageOwner) (n : Nat) (l : List PageOwner) (ho : o ≠ .free) :
    (releasePages o n l).count x =
      if x = o then l.count o - n
      else if x = .free then l.count .free + min n (l.count o) else l.count x := by
  induction l generalizing n with
  | nil => simp [releasePages]
  | cons y l ih =>
    cases n with
    | zero => simp only [releasePages]; split <;> simp_all
    | succ n =>
      simp only [releasePages]
      have ih1 := ih n
      have ih2 := ih (n + 1)
      clear ih
      split <;> rename_i hy <;> simp only [List.count_cons, beq_iff_eq, ih1, ih2] <;> clear ih1 ih2 <;>
        by_cases h2 : x = o <;> by_cases h3 : x = .free <;> by_cases h4 : y = x <;> simp_all <;>
        first | omega | (intro h; simp_all)

theorem attachFold_count (p : ProgId) (a : Nat) (ks : List (Fin 8)) (hk : ks.Nodup) (l : List PageOwner)
    (h : a * ks.length ≤ l.count .free) (x : PageOwner) (hx : x ≠ .free) :
    (ks.foldl (fun l pos => attachPages (.line p pos) a l) l).count x =
      if ∃ pos ∈ ks, x = .line p pos then l.count x + a else l.count x := by
  induction ks generalizing l with
  | nil => simp
  | cons k ks ih =>
    simp only [List.nodup_cons, List.length_cons] at hk h
    have ha : a ≤ l.count .free := by nlinarith
    rw [List.foldl_cons, ih hk.2 _ (by
      rw [attachPages_count _ _ _ _ (by simp)]; simp [Nat.min_eq_left ha]; nlinarith [Nat.sub_add_cancel ha])]
    rw [attachPages_count _ _ _ _ (by simp)]
    by_cases h1 : x = .line p k
    · subst h1; simp [hk.1, Nat.min_eq_left ha]
    · simp [h1, hx]

theorem releaseFold_count (p : ProgId) (n : Nat) (ks : List (Fin 8)) (hk : ks.Nodup) (l : List PageOwner)
    (x : PageOwner) (hx : x ≠ .free) :
    (ks.foldl (fun l pos => releasePages (.line p pos) n l) l).count x =
      if ∃ pos ∈ ks, x = .line p pos then l.count x - n else l.count x := by
  induction ks generalizing l with
  | nil => simp
  | cons k ks ih =>
    simp only [List.nodup_cons] at hk
    rw [List.foldl_cons, ih hk.2, releasePages_count _ _ _ _ (by simp)]
    by_cases h1 : x = .line p k
    · subst h1; simp [hk.1]
    · simp [h1, hx]

/-- The lane positions of a programme. -/
theorem positions_nodup (k : Nat) : (positions k).Nodup :=
  List.Nodup.sublist (List.take_sublist _ _) (by decide)

theorem positions_length (k : Nat) : (positions k).length ≤ k := by simp [positions]

theorem mem_positions (k : Nat) (pos : Fin 8) : pos ∈ positions k ↔ pos.val < k := by
  rcases k with _ | _ | _ | _ | _ | _ | _ | _ | k <;> revert pos <;> try decide
  intro pos
  have h : positions (k + 1 + 1 + 1 + 1 + 1 + 1 + 1 + 1) = allLines := List.take_of_length_le (by
    have : allLines.length = 8 := by decide
    omega)
  rw [h]
  have : pos ∈ allLines := by revert pos; decide
  simp [this]; omega

/-- R60: an attachment of `a` pages to each of `k` lanes that the pool can give. -/
theorem attachLanes_count (p : ProgId) (k a : Nat) (l : List PageOwner) (h : a * k ≤ l.count .free) (x : PageOwner)
    (hx : x ≠ .free) :
    (attachLanes p k a l).count x = if ∃ pos : Fin 8, pos.val < k ∧ x = .line p pos then l.count x + a else l.count x := by
  unfold attachLanes
  rw [attachFold_count p a _ (positions_nodup k) l
    (Nat.le_trans (Nat.mul_le_mul_left a (positions_length k)) h) x hx]
  simp only [mem_positions]

/-- R59: a release of `n` pages from each of `k` lanes. -/
theorem releaseLanes_count (p : ProgId) (k n : Nat) (l : List PageOwner) (x : PageOwner) (hx : x ≠ .free) :
    (releaseLanes p k n l).count x = if ∃ pos : Fin 8, pos.val < k ∧ x = .line p pos then l.count x - n else l.count x := by
  unfold releaseLanes
  rw [releaseFold_count p n _ (positions_nodup k) l x hx]
  simp only [mem_positions]

theorem grantFor_le (s : State) (k a : Nat) : s.grantFor k a * k ≤ s.freePages :=
  Nat.le_trans (Nat.mul_le_mul_right k (Nat.min_le_right _ _)) (Nat.div_mul_le_self _ _)

/-! ### Lines -/

/-- R71: a new target, as the statements give it. -/
theorem Delay.place_eq (d : Delay) (t : Nat) : d.place t = aimed d t := by
  unfold Delay.place aimed
  cases h : d.motion <;> simp
  all_goals try split
  all_goals (cases d; simp_all)

/-- R68: the pages for a length and a pad, as the statements give them. -/
theorem pagesFor_eq (n pad : Nat) : pagesFor n pad = max 1 ((n + pad + 1023) / 1024) := by
  unfold pagesFor ceilDiv
  rw [show Config.pageWords = 1024 from rfl, Nat.add_sub_assoc (by omega)]

/-- R68: the need of a line, as the statements give it. -/
theorem State.need_eq (s : State) (p : ProgId) :
    s.need p = max 1 ((max s.pgms[p].dly.dApp s.pgms[p].dly.dReq + maxPad s.pgms[p].ctl.pads + 1023) / 1024) := by
  simp only [State.need, State.padMax, pagesFor_eq]


/-- Reading a programme behind the writing of one. -/
theorem getElem_set_pgm (v : Vector Pgm 8) (p q : ProgId) (g : Pgm) :
    (v.set p g)[q] = if q = p then g else v[q] := by
  simp only [Fin.getElem_fin, Vector.getElem_set]
  by_cases h : q = p
  · subst h; simp
  · rw [if_neg h, if_neg (fun e => h (Fin.ext e.symm))]

/-- R60: pages attached that the pool can give. -/
theorem pagesBecome_attach (s u : State) (p : ProgId) (n : Nat)
    (h : n * s.pgms[p].ctl.lanes.length ≤ s.freePages)
    (hu : u.owners = attachLanes p s.pgms[p].ctl.lanes.length n s.owners) : pagesBecome s u p (· + n) := by
  refine ⟨by rw [hu]; simp, fun c => ?_, fun q pos => ?_⟩
  · simp only [State.slotPages, hu]
    rw [attachLanes_count _ _ _ _ h _ (by simp)]; simp
  · rw [hu, attachLanes_count _ _ _ _ h _ (by simp)]
    by_cases hq : q = p
    · subst hq; simp
    · simp [hq]

/-- R59: pages released. -/
theorem pagesBecome_release (s u : State) (p : ProgId) (n : Nat)
    (hu : u.owners = releaseLanes p s.pgms[p].ctl.lanes.length n s.owners) : pagesBecome s u p (· - n) := by
  refine ⟨by rw [hu]; simp, fun c => ?_, fun q pos => ?_⟩
  · simp only [State.slotPages, hu]
    rw [releaseLanes_count _ _ _ _ _ (by simp)]; simp
  · rw [hu, releaseLanes_count _ _ _ _ _ (by simp)]
    by_cases hq : q = p
    · subst hq; simp
    · simp [hq]

end Sys2Proof.Machine
end

