-- ==== Sys2Proof/Laws/Lanes.lean ====
section
/-! SUPPORT. What the operations on lanes do to the state: the words of the house sample in progress are fixed (R30, R31, R34,
R35), a port's lanes follow its state (R34), and a programme takes the figures of its lanes (R46, R64, R68). -/

namespace Sys2Proof.Machine

/-! ### Records of one lane -/

@[simp] theorem getElem_updLane (s : State) (j k : LaneId) (f : Lane → Lane) :
    (s.updLane j f).lanes[k] = if j = k then f s.lanes[k] else s.lanes[k] := by
  by_cases h : j = k
  · subst h; simp [State.updLane]
  · have : (j : Nat) ≠ k := fun e => h (Fin.ext e)
    simp [State.updLane, Vector.getElem_set_ne, this, h]

/-- Two tables of lanes with equal records are equal. -/
theorem lanes_ext {a b : Vector Lane 24} (h : ∀ k : LaneId, a[k] = b[k]) : a = b :=
  Vector.ext fun i hi => h ⟨i, hi⟩

/-- Two states that differ in their lanes at most, and whose lanes are equal, are equal. -/
theorem State.ext_lanes {s t u : State} (ht : t = { s with lanes := t.lanes }) (hu : u = { s with lanes := u.lanes })
    (h : ∀ k : LaneId, t.lanes[k] = u.lanes[k]) : t = u := by
  rw [ht, hu, lanes_ext h]

/-- A lane that a step leaves as it is. -/
theorem updLane_self (s : State) (k : LaneId) (f : Lane → Lane) (h : f s.lanes[k] = s.lanes[k]) : s.updLane k f = s :=
  State.ext_lanes (s := s) rfl rfl fun j => by rw [getElem_updLane]; split <;> simp_all

/-- What a fold does that changes each lane of a list by the ports alone. -/
theorem foldl_updLane (f : Vector Port 6 → Lane → Lane) (g : State → LaneId → State)
    (hg : ∀ s k, g s k = s.updLane k (f s.ports)) (ks : List LaneId) (hk : ks.Nodup) (s : State) :
    ks.foldl g s = { s with lanes := (ks.foldl g s).lanes } ∧
      ∀ k : LaneId, (ks.foldl g s).lanes[k] = if k ∈ ks then f s.ports s.lanes[k] else s.lanes[k] := by
  induction ks generalizing s with
  | nil => exact ⟨rfl, fun k => by simp⟩
  | cons j ks ih =>
    obtain ⟨h1, h2⟩ := List.nodup_cons.1 hk
    obtain ⟨e, hl⟩ := ih h2 (g s j)
    have hp : (g s j).ports = s.ports := by rw [hg]; rfl
    refine ⟨?_, fun k => ?_⟩
    · rw [List.foldl_cons, e, hg]; rfl
    · rw [List.foldl_cons, hl k, hp, hg, getElem_updLane]
      by_cases hj : j = k
      · subst hj; simp [h1]
      · simp [hj, Ne.symm hj]

/-! ### The words of the house sample in progress (R30, R31, R35) -/

/-- Forming a word moves the read position, the slip count, the fade position and the latch of a lane, and nothing else of it. -/
theorem Lane.form_frame (ports : Vector Port 6) (l : Lane) :
    ∃ r n f w, Lane.form ports l = { l with readPos := r, slips := n, fadePos := f, latch := w } := by
  have slip : ∀ (l : Lane) (p : Port), ∃ r n, l.slip p = { l with readPos := r, slips := n } := by
    intro l p; unfold Lane.slip; dsimp only; split <;> exact ⟨_, _, rfl⟩
  have fade : ∀ (l : Lane) (w : Sample), ∃ f, (l.fadeWord w).1 = { l with fadePos := f } := by
    intro l w; unfold Lane.fadeWord; split <;> exact ⟨_, rfl⟩
  unfold Lane.form
  split
  · exact ⟨_, _, _, _, rfl⟩
  · split
    · rename_i x _ _
      obtain ⟨r, n, hs⟩ := slip l ports[x.port]
      obtain ⟨f, hf⟩ := fade { l with readPos := r, slips := n } (converterWord ports[x.port] x.chan
        { l with readPos := r, slips := n })
      simp only [Lane.convert, hs, hf]
      exact ⟨_, _, _, _, rfl⟩
    · exact ⟨_, _, _, _, rfl⟩

/-- The word a lane has once its word is formed. -/
theorem formLane_word (s : State) (k : LaneId) :
    (formLane s k).laneWord k = ((Lane.form s.ports s.lanes[k]).latch.getD (0, false)).1 := by
  unfold State.laneWord formLane
  rw [getElem_updLane, if_pos rfl]
  cases (Lane.form s.ports s.lanes[k]).latch <;> rfl

/-- What forming a word does to a lane is what the statements say. -/
theorem laneFormed_eq (s : State) (k : LaneId) : laneFormed s k = Lane.form s.ports s.lanes[k] := by
  unfold laneFormed
  rw [formLane_word]
  generalize s.lanes[k] = l
  cases hl : l.latch with
  | some w => simp [Lane.form, hl]
  | none =>
    cases hv : l.valid with
    | false => simp [Lane.form, hl, hv]
    | true =>
      cases hs : l.source with
      | none => simp [Lane.form, hl, hv, hs]
      | some x =>
        simp only [Lane.form, hl, hv, hs, Lane.convert, Lane.slip, Lane.depth, Lane.fadeWord, Config.unity,
          Config.centreDepth, Config.count16, Config.fadeLen, countUp]
        split_ifs <;> cases hf : l.fade <;> simp_all

/-- Fixing the words of some lanes changes those lanes, and nothing else. -/
theorem formLanesOf_eq (s : State) (ks : List LaneId) (hk : ks.Nodup) :
    formLanesOf ks s = { s with lanes := (formLanesOf ks s).lanes } ∧
      ∀ k : LaneId, (formLanesOf ks s).lanes[k] = if k ∈ ks then laneFormed s k else s.lanes[k] := by
  obtain ⟨h1, h2⟩ := foldl_updLane Lane.form formLane (fun _ _ => rfl) ks hk s
  exact ⟨h1, fun k => by rw [laneFormed_eq]; exact h2 k⟩

/-! ### The lanes on a port (R34, R36) -/

/-- Every lane is among `allLanes` once. -/
theorem allLanes_nodup : allLanes.Nodup := by decide

theorem mem_allLanes (k : LaneId) : k ∈ allLanes := by revert k; decide

/-- What a step does, by the ports alone, to every lane on a port. -/
theorem foldl_lanesOn (i : PortId) (f : Vector Port 6 → Lane → Lane) (g : State → LaneId → State)
    (hg : ∀ s k, g s k = s.updLane k (f s.ports)) (s : State) :
    let t := allLanes.foldl (fun s k => if s.lanes[k].onPort i then g s k else s) s
    t = { s with lanes := t.lanes } ∧
      ∀ k : LaneId, t.lanes[k] = if s.lanes[k].onPort i then f s.ports s.lanes[k] else s.lanes[k] := by
  obtain ⟨h1, h2⟩ := foldl_updLane (fun ports l => if l.onPort i then f ports l else l)
    (fun s k => if s.lanes[k].onPort i then g s k else s) (fun s k => by
      split
      · rename_i h
        rw [hg]
        simp only [State.updLane, if_pos h]
      · rename_i h
        exact (updLane_self s k _ (by rw [if_neg h])).symm) allLanes allLanes_nodup s
  exact ⟨h1, fun k => by rw [h2 k, if_pos (mem_allLanes k)]⟩

/-- The words of every lane on a port are fixed. -/
theorem formLanesOn_eq (i : PortId) (s : State) :
    formLanesOn i s = { s with lanes := (formLanesOn i s).lanes } ∧
      ∀ k : LaneId, (formLanesOn i s).lanes[k] = if s.lanes[k].onPort i then laneFormed s k else s.lanes[k] := by
  obtain ⟨h1, h2⟩ := foldl_lanesOn i Lane.form formLane (fun _ _ => rfl) s
  exact ⟨h1, fun k => by rw [laneFormed_eq]; exact h2 k⟩

theorem State.sourceGood_eq (s : State) (l : Lane) :
    s.sourceGood l = l.source.elim false fun x => s.ports[x.port].state.good := by
  unfold State.sourceGood; cases l.source <;> rfl

/-- R34: every lane on a port follows it. -/
theorem settleLanesOn_eq (i : PortId) (s : State) :
    settleLanesOn i s = { s with lanes := (settleLanesOn i s).lanes } ∧
      ∀ k : LaneId, (settleLanesOn i s).lanes[k] =
        if s.lanes[k].onPort i then s.lanes[k].settle (s.sourceGood s.lanes[k]) (s.portOf s.lanes[k]) else s.lanes[k] := by
  have h := foldl_lanesOn i
    (fun ports l => l.settle (l.source.elim false fun x => ports[x.port].state.good) (l.source.map fun x => ports[x.port]))
    (fun s k => s.updLane k fun l => l.settle (s.sourceGood l) (s.portOf l))
    (fun s k => by simp only [State.sourceGood_eq, State.portOf]) s
  refine ⟨h.1, fun k => ?_⟩
  rw [State.sourceGood_eq]
  exact h.2 k

/-! ### The figures of a programme (R46, R64, R68) -/

/-- R64: T, D_req and FLOOR, as the statements give them. -/
theorem Delay.form_eq (d : Delay) (lc : Nat) : d.form lc = lengthFormed lc d := rfl

/-- R69: the release at the end of a motion, as the statements give it. -/
theorem releaseExcess_released (p : ProgId) (s : State) : released s (releaseExcess p s) p := by
  have pages_eq : ∀ n, pagesFor n (s.padMax p) = max 1 ((n + maxPad s.pgms[p].ctl.pads + 1023) / 1024) :=
    fun n => pagesFor_eq n _
  unfold released releaseExcess State.need
  simp only [pages_eq]
  refine ⟨fun h => if_pos h, fun h => ?_⟩
  rw [if_neg (Nat.not_le.2 h)]
  exact ⟨_, rfl, pagesBecome_release _ _ _ _ rfl, rfl⟩

/-- R80: a PAGES notice, as the statements give it. -/
theorem pagesNotice_eq (p : ProgId) (cut : Bool) (s : State) :
    pagesNotice p cut s = { s with link := s.link.notice (pagesLine s p
      (if s.pgms[p].ctl.state = .running then
        max 1 ((max s.pgms[p].dly.dApp s.pgms[p].dly.dReq + maxPad s.pgms[p].ctl.pads + 1023) / 1024) else 0) cut) } := by
  unfold pagesNotice pagesLine State.needShown
  rw [State.need_eq]
  rfl

/-- R71: a line with the record `x` that takes a new target: its record and the report, and behind them the release of a line
left STILL. -/
theorem takeTarget_released (p : ProgId) (s : State) (o : List PageOwner) (x : Delay) (target : Nat) (told cut : Bool) :
    let s2 := { s with owners := o, pgms := s.pgms.set p { s.pgms[p] with dly := x } }
    let u := takeTarget p target (fun s => if told then pagesNotice p cut s else s) s2
    ∃ a : State, a = { s with
        owners := o
        pgms := s.pgms.set p { s.pgms[p] with dly := aimed x target }
        link := if told then s.link.notice (pagesLine a p (if s.pgms[p].ctl.state = .running then
            max 1 ((max x.dApp x.dReq + maxPad s.pgms[p].ctl.pads + 1023) / 1024) else 0) cut) else s.link } ∧
      if (x.motion = .still ∨ x.motion = .slewing) ∧ target = x.dApp then released a u p else u = a := by
  intro s2 u
  have hx : s2.pgms[p].dly = x := by simp only [s2, getElem_set_pgm, if_true]
  let s3 := { s with owners := o, pgms := s.pgms.set p { s.pgms[p] with dly := aimed x target } }
  have h3 : (s2.updDly p fun d => d.place target) = s3 := by
    simp only [s2, s3, State.updDly, State.updPgm, Fin.getElem_fin, Vector.getElem_set_self, Vector.set_set, Delay.place_eq]
  have hg : s3.pgms[p] = { s.pgms[p] with dly := aimed x target } := by simp only [s3, getElem_set_pgm, if_true]
  have hu : u = if (x.motion = .still ∨ x.motion = .slewing) ∧ target = x.dApp then
      releaseExcess p (if told then pagesNotice p cut s3 else s3) else if told then pagesNotice p cut s3 else s3 := by
    simp only [u, takeTarget, hx, h3]
  refine ⟨if told then pagesNotice p cut s3 else s3, ?_, ?_⟩
  · cases told
    · rfl
    · rw [if_pos rfl, pagesNotice_eq, hg]; rfl
  · rw [hu]; split
    · exact releaseExcess_released _ _
    · rfl

/-- R68, R69: a line that takes a new length or new pads, as the statements give it. -/
theorem retarget_retargeted (p : ProgId) (s : State) : retargeted s (retarget p s) p := by
  unfold retargeted
  extract_lets d c pad need held grant cap unmet app target
  have hn : s.need p = need := State.need_eq s p
  let x : Delay := { d with
    short := unmet, dApp := app, hist := min d.hist cap
    dTarget := if unmet = true ∧ d.motion = .fadingUp then min d.dTarget cap else d.dTarget
    lines := if 0 < grant then d.lines.map (·.take (held * 1024)) else d.lines }
  let quiet := unmet = false ∧ grant = 0 ∧ d.short = false
  obtain ⟨a, h1, h2⟩ := takeTarget_released p s (attachLanes p c.lanes.length grant s.owners) x target
    (!decide quiet) (unmet && decide (cap < d.dApp))
  have ho : a.owners = attachLanes p c.lanes.length grant s.owners := by rw [h1]
  have e : retarget p s = takeTarget p target
      (fun s => if !decide quiet then pagesNotice p (unmet && decide (cap < d.dApp)) s else s)
      { s with owners := attachLanes p c.lanes.length grant s.owners
               pgms := s.pgms.set p { s.pgms[p] with dly := x } } := by
    have two : ∀ f g : Delay → Delay, ((s.setOwners (attachLanes p c.lanes.length grant s.owners)).updDly p f).updDly p g =
        { s with owners := attachLanes p c.lanes.length grant s.owners
                 pgms := s.pgms.set p { s.pgms[p] with dly := g (f d) } } := by
      intro f g
      simp only [State.setOwners, State.updDly, State.updPgm, Fin.getElem_fin, Vector.getElem_set_self, Vector.set_set]
      rfl
    unfold retarget
    rw [hn]
    by_cases h : need ≤ held + grant
    · have hu : unmet = false := decide_eq_false (by omega)
      refine (if_pos h).trans ?_
      have hx : ({ (if 0 < grant then d.attach held else d) with
          short := false, hist := min (if 0 < grant then d.attach held else d).hist cap } : Delay) = x := by
        simp only [x, app, hu]
        split <;> simp [Delay.attach, Config.pageWords]
      have ht : target = d.dReq := by simp [target, hu]
      have hq : (!decide quiet) = decide (0 < grant ∨ d.short = true) := by
        rw [Bool.eq_iff_iff]; simp [quiet, hu, Nat.pos_iff_ne_zero]
      erw [two, hx, ht]
      simp only [hu, Bool.false_and, hq, decide_eq_true_eq]
      rfl
    · have hu : unmet = true := decide_eq_true (by omega)
      refine (if_neg h).trans ?_
      have hx : ({ (if 0 < grant then d.attach held else d) with
          short := true
          dApp := min (if 0 < grant then d.attach held else d).dApp cap
          hist := min (if 0 < grant then d.attach held else d).hist cap
          dTarget := if (if 0 < grant then d.attach held else d).motion = .fadingUp then
              min (if 0 < grant then d.attach held else d).dTarget cap
            else (if 0 < grant then d.attach held else d).dTarget } : Delay) = x := by
        simp only [x, app, hu]
        split <;> (simp only [Delay.attach, true_and]; rfl)
      have ht : target = min d.dReq cap := by simp [target, hu]
      have hq : ¬ quiet := by simp [quiet, hu]
      erw [two, hx, ht]
      simp only [hu, hq, decide_false, Bool.not_false, Bool.true_and, if_true]
      rfl
  rw [e]
  refine ⟨a, pagesBecome_attach s a p grant (grantFor_le s _ _) ho, ?_, h2⟩
  rw [ho]
  refine h1.trans ?_
  simp only [Bool.not_eq_true', decide_eq_false_iff_not, ite_not]
  rfl

/-- R46: a programme that recomputes its figures, as the statements give it. -/
theorem recompute_taken (p : ProgId) (s : State) :
    latencyTaken s (recompute p s) p (s.lcOf s.pgms[p].ctl.lanes) (s.padsOf s.pgms[p].ctl.lanes) := by
  have hw : ∀ lc pads, formLength p (s.updCtl p fun c => { c with lcPgm := lc, pads := pads }) =
      { s with pgms := s.pgms.set p { s.pgms[p] with
          ctl := { s.pgms[p].ctl with lcPgm := lc, pads := pads }, dly := lengthFormed lc s.pgms[p].dly } } := by
    intro lc pads
    simp only [formLength, State.updDly, State.updCtl, State.updPgm, Fin.getElem_fin, Vector.getElem_set_self, Vector.set_set]
    rfl
  have hr : ∀ lc pads, (s.updCtl p fun c => { c with lcPgm := lc, pads := pads }).pgms[p].ctl.state = s.pgms[p].ctl.state := by
    intro lc pads; rw [getElem_updCtl, if_pos rfl]
  refine ⟨fun h => ?_, fun h hs => ?_, fun h hs => ?_⟩ <;> unfold recompute
  · rw [if_pos h]
  · rw [if_neg h]; unfold handOver; rw [hr, if_pos hs, hw]; exact retarget_retargeted _ _
  · rw [if_neg h]; unfold handOver; rw [hr, if_neg hs, hw]

end Sys2Proof.Machine
end

