-- ==== Sys2Proof/Laws/Text.lean ====
section
/-! SUPPORT. What a received character can do: it changes the receiver, and a line it ends is taken or waits; and what
reading a line of spaces gives. -/

namespace Sys2Proof.Machine

/-- R186: the receive line buffer holds at most 160 characters. -/
theorem Receiver.take_length (c : Char) (framed : Bool) (r : Receiver) (h : r.chars.length ≤ 160) :
    (r.take c framed).1.chars.length ≤ 160 := by
  unfold Receiver.take
  split
  · exact h
  · split
    · exact Nat.zero_le _
    · split
      · exact h
      · split
        · rename_i h1; simpa [Config.rxMax] using h1
        · exact Nat.zero_le _

/-- R186: a character ends a line only as a line feed with its stop bit. -/
theorem Receiver.take_line (c : Char) (framed : Bool) (r : Receiver) :
    (r.take c framed).2 = if framed = true ∧ c = '\n' then r.line else none := by
  unfold Receiver.take
  by_cases h : framed = true ∧ c = '\r'
  · simp [h]
  · by_cases k : framed = true ∧ c = '\n'
    · simp [k]
    · simp only [if_neg h, if_neg k]
      split
      · rfl
      · split <;> rfl

/-- R186: what a character can do to a powered part: the receiver moves on, and a line that ends is taken or waits. -/
theorem receiveChar_eq (c : Char) (framed : Bool) (s : State) (h : s.powered = true) :
    receiveChar c framed s =
      ((s.link.rx.take c framed).2.elim id takeLine)
        { s with link := { s.link with rx := (s.link.rx.take c framed).1 } } := by
  simp only [receiveChar, h, Bool.true_eq_false, if_false, State.updLink]
  cases (s.link.rx.take c framed).2 <;> rfl

/-- R194: an unpowered part discards a character. -/
theorem receiveChar_unpowered (c : Char) (framed : Bool) (s : State) (h : s.powered = false) :
    receiveChar c framed s = { s with link := { s.link with rx := s.link.rx.discard c framed } } := by
  simp [receiveChar, h, State.updLink]

/-- The parts of a text of separators are empty. -/
theorem splitText_replicate (sep : Char) (n : Nat) :
    splitText sep (List.replicate n sep) = List.replicate (n + 1) [] := by
  induction n with
  | zero => rfl
  | succ n ih =>
    rw [List.replicate_succ, splitText, ih, List.replicate_succ (n := n)]
    simp [List.replicate_succ]

/-- R186: a line of spaces has no word. -/
theorem lineWords_spaces (text : List Char) (h : ∀ c ∈ text, c = ' ') : lineWords text = [] := by
  rw [List.eq_replicate_of_mem h, lineWords, splitText_replicate]
  simp

end Sys2Proof.Machine
end

