-- ==== Sys2Proof/WellFormed.lean ====
section
/-! DEFINITION. Which commands the outside can send: what one line of at most 160 characters can carry (00_scope.md, R186,
R187). `exec` is total on every command all the same. -/

namespace Sys2Proof

/-- R187: a tag is 0 to 9999. -/
def tagOk (tag : Nat) : Bool := decide (tag ≤ 9999)

/-- A joined word has at least one item. -/
def Tok.wellFormed : Tok → Bool
  | .nums l => !l.isEmpty
  | _ => true

/-- R186: a line of 160 characters holds at most 80 words with their spaces. -/
def argsOk (args : List Tok) : Bool := decide (args.length ≤ 80) && args.all Tok.wellFormed

/-- A line's tag and arguments. -/
def lineOk (tag : Nat) (args : List Tok) : Bool := tagOk tag && argsOk args

/-- Whether a command can be sent. -/
def Instr.wellFormed : Instr → Bool
  | .powerOn _ _ => true
  | .resetnRelease _ _ => true
  | .houseSample => true
  | .subBlockClose => true
  | .multiplierRampEnd _ => true
  | .gpiSampleInstant _ => true
  | .frefPulse _ => true
  | .flywheelBoundary => true
  | .missingPulseExpiry => true
  | .frameEdge _ _ _ => true
  | .windowClose _ => true
  | .signalExpiry _ => true
  | .laneFadeInEnd _ => true
  | .changeoverSwitch _ => true
  | .outputFadeUpEnd _ => true
  | .slewStep _ => true
  | .jumpBottom _ => true
  | .jumpFadeUpEnd _ => true
  | .alarmScan => true
  | .envelopeWindow => true
  | .probeSearchComplete => true
  | .probeTimeout => true
  | .captureComplete _ => true
  | .saveComplete _ => true
  | .txLineSent => true
  | .lineTooLong => true
  | .unknownVerb tag => tag.all tagOk
  | .timeQuery tag args => lineOk tag args
  | .refSet tag args => lineOk tag args
  | .refQuery tag args => lineOk tag args
  | .portQuery tag args => lineOk tag args
  | .laneSet tag args => lineOk tag args
  | .laneQuery tag args => lineOk tag args
  | .pgmDefine tag args => lineOk tag args
  | .pgmRun tag args => lineOk tag args
  | .pgmPark tag args => lineOk tag args
  | .pgmDelete tag args => lineOk tag args
  | .pgmMode tag args => lineOk tag args
  | .pgmSource tag args => lineOk tag args
  | .pgmRevert tag args => lineOk tag args
  | .pgmQuery tag args => lineOk tag args
  | .dlyVideo tag args => lineOk tag args
  | .dlyTrim tag args => lineOk tag args
  | .dlyMotion tag args => lineOk tag args
  | .dlyQuery tag args => lineOk tag args
  | .mtrQuery tag args => lineOk tag args
  | .mtrBinsQuery tag args => lineOk tag args
  | .mtrReset tag args => lineOk tag args
  | .presetSet tag args => lineOk tag args
  | .presetRecall tag args => lineOk tag args
  | .presetPush tag args => lineOk tag args
  | .presetPop tag args => lineOk tag args
  | .presetQuery tag args => lineOk tag args
  | .presetPgmQuery tag args => lineOk tag args
  | .prbArm tag args => lineOk tag args
  | .prbCancel tag args => lineOk tag args
  | .prbQuery tag args => lineOk tag args
  | .almSet tag args => lineOk tag args
  | .almOff tag args => lineOk tag args
  | .almAck tag args => lineOk tag args
  | .almForceOn tag args => lineOk tag args
  | .almForceOff tag args => lineOk tag args
  | .almQuery tag args => lineOk tag args
  | .almListQuery tag args => lineOk tag args
  | .gpiSet tag args => lineOk tag args
  | .gpiQuery tag args => lineOk tag args
  | .gpiPop tag args => lineOk tag args
  | .watchSet tag args => lineOk tag args
  | .watchQuery tag args => lineOk tag args
  | .gpoSet tag args => lineOk tag args
  | .gpoPolarity tag args => lineOk tag args
  | .gpoHold tag args => lineOk tag args
  | .gpoQuery tag args => lineOk tag args
  | .capArm tag args => lineOk tag args
  | .capTrig tag args => lineOk tag args
  | .capRead tag args => lineOk tag args
  | .capRelease tag args => lineOk tag args
  | .capFree tag args => lineOk tag args
  | .capQuery tag args => lineOk tag args
  | .takAdd tag args => lineOk tag args
  | .takCancel tag args => lineOk tag args
  | .takQuery tag args => lineOk tag args
  | .takListQuery tag args => lineOk tag args
  | .helloQuery tag args => lineOk tag args
  | .gateClose tag args => lineOk tag args
  | .gateOpen tag args => lineOk tag args
  | .save tag args => lineOk tag args
  | .restartFull tag args => lineOk tag args
  | .restartProc tag args => lineOk tag args
  | .badLine tag => tag.all tagOk
  | .powerLoss => true

end Sys2Proof
end

