-- ==== Sys2Proof/Tests/Slice0.lean ====
section
/-! SUPPORT. Tests: ill-formed commands that `Instr.wellFormed` refuses; figures of the manual's worked cases; and, for each
statement with hypotheses, a state and operands that meet them, clause by clause. Expected values stand in the
manual's worked sequences and tables, named with each test. -/

namespace Sys2Proof.Tests

-- One test at a time: side by side, each waits for the kernel on a thread with a stack of its own.
set_option Elab.async false

open Sys2Proof Sys2Proof.Machine

/-! ### WellFormed -/

theorem test_wf_refuses_tag : Instr.wellFormed (.timeQuery 10000 []) = false := by decide
theorem test_wf_refuses_long_line : Instr.wellFormed (.helloQuery 1 (List.replicate 81 .other)) = false := by decide
theorem test_wf_refuses_empty_word : Instr.wellFormed (.gpoHold 1 [.nums []]) = false := by decide
theorem test_wf_refuses_verb_tag : Instr.wellFormed (.unknownVerb (some 10000)) = false := by decide
theorem test_wf_refuses_line_tag : Instr.wellFormed (.badLine (some 10000)) = false := by decide
theorem test_wf_takes_greatest :
    Instr.wellFormed (.pgmDefine 9999 (List.replicate 80 (.nums [0]))) = true := by decide

/-! ### States -/

/-- The programme record of a MONO programme on L4 with PS3. -/
def ctl (st : PgmState) (out : OutState) : Ctl :=
  { Ctl.undefined with state := st, lanes := [4], basePreset := 3, pads := [0], out := out }

def mono (st : PgmState) (out : OutState) : Pgm :=
  { ctl := ctl st out, dly := { Delay.undefined with lines := [[]], padsNow := [0] }, mtr := Meter.start 1,
    cor := Correction.start [3] }

/-- The reset state with P2 as given, L4 on IN1 and IN5, and one page of its line. -/
def pgm (g : Pgm) : State :=
  { State.reset with
    pgms := State.reset.pgms.set 2 g
    lanes := State.reset.lanes.set 4 { Lane.start (some ⟨1, 0⟩) (some ⟨5, 0⟩) with valid := true, fade := .opened } }

def parked : State := pgm (mono .parked .silent)
def running : State := pgm (mono .running .opened)
def port (p : Port) : State := { State.reset with ports := State.reset.ports.set 3 p }
def point (x : Point) : State := { State.reset with points := State.reset.points.set 6 x }
def slot (x : Slot) : State := { running with slots := State.reset.slots.set 1 x }
def probe (p : Probe) : State := { running with probe := p }

def next (s : State) (c : Instr) : State :=
  match exec c s with
  | .next t => t
  | _ => s

def runAll (s : State) (cs : List Instr) : State := cs.foldl next s

/-- A point in service: SILENT below −5000 with hysteresis 1000, N 3, M 2 (08 section 8.10). -/
def a6 (st : PointState) (run : Nat) : Point :=
  { Point.start { PointCfg.factory with
      enabled := true, measure := some .silent, subject := .pgm 2, threshold := -5000, hyst := 1000, raise := 3,
      clear := 2, notify := true, gpo := [2] } with state := st, run := run }

/-! ### Figures of the manual -/

/-- 05 section 5.3, table of R90. -/
theorem test_levels :
    levelOf (1 / 100) = -2069 ∧ levelOf (1 / 80) = -1972 ∧ levelOf 2 = 232 ∧ levelOf 0 = -12000 := by decide +kernel

/-- 05 section 5.10: a bin at the gate. -/
theorem test_integrated :
    let h := ((List.replicate 300 0).set 188 40 |>.set 120 10).set 20 5
    integratedLevel h = some (-2288) ∧ integratedLevel (h.set 143 1) = some (-2297) := by decide +kernel

/-- 06 section 6.5, table of R113. -/
theorem test_multipliers :
    multiplierOf 600 = 2092184 ∧ multiplierOf 0 = 1048576 ∧ multiplierOf (-30) = 1012978 ∧
      multiplierOf (-600) = 525533 := by decide +kernel

/-- 06 section 6.9: the ramp, and the two output words; R115: exact halves. -/
theorem test_gain_stage :
    rampMultiplier 1048576 1012978 0 = 1048569 ∧ rampMultiplier 1048576 1012978 2399 = 1030777 ∧
      gainWord 525533 4000000 = (2004749, false) ∧ gainWord 2092184 6000000 = (8388607, true) ∧
      (gainWord 524288 1).1 = 1 ∧ (gainWord 524288 (-1)).1 = 0 := by decide +kernel

/-- 07 section 7.8: the peak of −3,000,000 is −893, and a threshold of −2000 is 838,860.8. -/
theorem test_probe_levels :
    peakLevel (-3000000) = -893 ∧ reachesThreshold 838860 (-2000) = false ∧
      reachesThreshold 838861 (-2000) = true := by decide +kernel

/-- 01 section 1.5: the first three flywheel boundaries and the pulse that re-phases. -/
theorem test_flywheel :
    let s := next { State.reset with hc := 1920 } .flywheelBoundary
    s.fc = 1 ∧ s.ref.nextGen = some 983040 := by decide +kernel

theorem test_first_pulse :
    let s := next { State.reset with
      hc := 6250, fc := 3, ref := { State.reset.ref with lastBoundary := 1474560, nextGen := some 1966080 } } (.frefPulse 0)
    s.fc = 3 ∧ s.ref.state = .acquiring ∧ s.ref.expiry = some 2337280 ∧ s.ref.nextGen = none := by decide +kernel

/-- 01 section 1.5, pulse 10: the tracked period steps by 20 / 8 truncated. -/
theorem test_locked_pulse :
    let s := next { State.reset with
      hc := 25450, ref := { State.reset.ref with state := .locked, tracked := 491530, lastPulse := some 6023770,
                                                 lastBoundary := 6023770, nextGen := none } } (.frefPulse 120)
    s.ref.tracked = 491532 ∧ s.ref.expiry = some 7252618 ∧ s.fc = 1 := by decide +kernel

/-- 02 section 2.8, W4: the third agreement takes the port to LOCKED at the mean of three windows. -/
def w4 : Port :=
  { Port.reset with state := .measuring, windowStart := some 13423771, inWindow := 4096, lastMeas := some 1141259,
                    history := [1141262, 1141250], agree := 2, hasPred := true,
                    expiry := some (14565039 + 24576) }

theorem test_window_locks :
    let p := (next (port w4) (.windowClose 3)).ports[(3 : PortId)]
    p.state = .locked ∧ p.ratio = some 1141263 ∧ p.cls = some .k441 := by decide +kernel

/-- 02 section 2.8: the signal expiry counts a loss of lock. -/
theorem test_signal_expiry :
    let p := (next { port { w4 with state := .locked } with hc := 60000 } (.signalExpiry 3)).ports[(3 : PortId)]
    p.state = .noSignal ∧ p.lockLoss = 1 := by decide +kernel

/-- 04 section 4.8: V 7,680, O −1,200 and Lc_pgm 104 give D_req 6,376. -/
theorem test_delay_target :
    let g := mono .parked .silent
    let s := runAll (pgm { g with ctl := { g.ctl with lcPgm := 104 } })
      [.dlyVideo 1 [.num 2, .num 7680], .dlyTrim 2 [.name .P 2, .num (-1200)]]
    s.pgms[(2 : ProgId)].dly.dReq = 6376 ∧
      s.link.fifo.getLast? = some (.reply (some 2) (.ok [.num 6480, .num 6376] [])) := by decide +kernel

/-- 08 section 8.10: −12000 raises A6, −2659 clears it. -/
theorem test_point_moves :
    (movePoint 6 (some (.num (-12000))) (point (a6 .raising 2))).points[(6 : PointId)].state = .active ∧
      (movePoint 6 (some (.num (-2659))) (point (a6 .active 0))).points[(6 : PointId)].state = .clearing := by
  decide +kernel

/-- 09 section 9.7: G5 with debounce count 3 delivers at its third instant, stamped with its first. -/
theorem test_debounce :
    let g : Gpi := { Gpi.start { GpiCfg.factory with debounce := 3 } with run := 2, runStart := some 96096 }
    let s := next { State.reset with hc := 96192, gpiFirst := false, gpis := State.reset.gpis.set 5 g }
      (.gpiSampleInstant 223)
    s.gpiFifo = [{ line := 5, level := true, stamp := 96096 }] := by decide +kernel

/-- 10 section 10.5: 4,000,000 is 3D0900 and −3,000,000 is D23940. -/
theorem test_hex_words : (4000000 : Sample) = 0x3D0900 ∧ (-3000000 : Sample) = 0xD23940 := by decide

/-- 11 section 11.6: a frame that has passed is accepted late, for the next one, at the front. -/
theorem test_take_late :
    let s := runAll { State.reset with fc := 312, nextId := 43 }
      [.takAdd 1 [.num 467, .kw .GPO, .num 4, .num 0], .takAdd 2 [.num 300, .kw .RESET, .num 2]]
    s.takes.map (fun e => (e.id, e.due, e.late)) = [(44, 313, true), (43, 467, false)] := by decide +kernel

/-- 12 section 12.7: two of eighteen notices are lost while the gate is CLOSED. -/
theorem test_gate :
    let s := next State.reset (.gateClose 101 [])
    let h := (List.range 18).foldl (fun s n => s.notify .port [.num n]) s
    h.link.held.length = 16 ∧ h.link.lost = 2 ∧
      (next h (.gateOpen 103 [])).link.fifo.getLast? = some (.reply (some 103) (.ok [.num 16, .num 2] [])) := by
  decide +kernel

/-- No row of the table gives bits, so no word spells a command. -/
theorem test_no_word_spells : decodeTableWord 8 0 = none ∧ State.reset.withFetchWord 8 0 = State.reset := ⟨rfl, rfl⟩

/-! ### The hypotheses can be met: the whole machine and the timebase -/

theorem witness_EveryCommandAnswersNext :
    (∀ b a, Instr.houseSample ≠ .powerOn b a) ∧ (∀ b a, Instr.houseSample ≠ .resetnRelease b a) ∧
      (∀ tag args, Instr.houseSample ≠ .restartFull tag args) ∧
      (Instr.txLineSent = .txLineSent → State.reset.link.waiting = []) :=
  ⟨nofun, nofun, nofun, fun _ => rfl⟩

theorem witness_invariants :
    LinkBounded State.reset ∧ StoresBounded State.reset ∧ GainHeld State.reset ∧ TakesOrdered State.reset ∧
      ∃ t, step State.reset = .next t := by
  refine ⟨⟨by decide, by decide⟩, ⟨by decide +kernel, by decide⟩, ⟨?_, ⟨nofun, nofun⟩, ?_⟩,
    ⟨by decide, .nil, nofun, .nil⟩, _, rfl⟩
  · intro n
    have h : ∀ n : PresetId, State.reset.presets[n] = Preset.factory := by decide +kernel
    rw [h n]; unfold Preset.gainRange; decide
  · intro p hp
    have h : ∀ p : ProgId, State.reset.pgms[p].ctl.state = .undefined := by decide +kernel
    exact absurd (h p) hp

theorem witness_HouseSampleAdvances :
    running.powered = true ∧ running.lanes[(23 : LaneId)].outLatch = none ∧
      (∀ p : ProgId, running.pgms[p].ctl.state = .running → (23 : LaneId) ∉ running.pgms[p].ctl.lanes) ∧
      running.pgms[(7 : ProgId)].ctl.state ≠ .running ∧ running.probe.state ≠ .armed ∧
      running.probe.state ≠ .searching ∧ running.slots[(0 : SlotId)].state = .free ∧
      (slot { Slot.reset with state := .armed, pgm := some 2, lanes := 1 }).slots[(1 : SlotId)].state = .armed ∧
      (slot { Slot.reset with state := .post, trigAt := some 0, pgm := some 2 }).slots[(1 : SlotId)].trigAt = some 0 ∧
      running.lanes[(4 : LaneId)].latch = none ∧ running.lanes[(4 : LaneId)].valid = true ∧
      running.lanes[(4 : LaneId)].source = some ⟨1, 0⟩ ∧ running.lanes[(5 : LaneId)].valid = false ∧
      ({ running.lanes[(4 : LaneId)] with outLatch := some 7 } : Lane).outLatch = some 7 := by
  decide +kernel

/-- R163: a pin follows its manual level at the next house sample, through the polarity, unless it is held. -/
theorem test_output_follows :
    let s := fun (c : GpoCfg) => next { State.reset with gpos := State.reset.gpos.set 3 { Gpo.start c with pin := false } } .houseSample
    (s { GpoCfg.factory with manual := true }).gpos[(3 : LineId)].pin = true ∧
      (s { GpoCfg.factory with manual := true, held := true }).gpos[(3 : LineId)].pin = false := by
  decide +kernel

theorem witness_RefSetChangesRate :
    let s := State.reset
    let gen := later s.ref.lastBoundary (FrameRate.period .r2997)
    let late := { s with hc := 1700 }
    let acq := { s with ref := { s.ref with state := .acquiring, lastPulse := some 5 } }
    Ready s ∧ Tok.rate? (.num 25) = some .r25 ∧ Tok.rate? (.milli 29970) = some .r2997 ∧
      FrameRate.r2997 ≠ s.ref.rate ∧ s.ref.state = .free ∧ ¬ ticksFrom gen s.now < 2 ^ 55 ∧ Ready late ∧
      gen ≠ late.now ∧ ticksFrom gen late.now < 2 ^ 55 ∧ Ready acq ∧ acq.ref.lastPulse = some 5 := by
  decide +kernel

theorem witness_PulseMovesReference :
    let N := State.reset.ref.rate.period
    let acq := { State.reset with
      hc := 3840, ref := { State.reset.ref with state := .acquiring, lastPulse := some 491520, runStart := some 0, count := 7 } }
    let p := ticksFrom 491520 (tickAt acq.hc 0)
    let q := ticksFrom 491520 (tickAt acq.hc 255)
    State.reset.ref.state = .free ∧ acq.ref.state = .acquiring ∧ acq.ref.lastPulse = some 491520 ∧
      ((p : Int) - N).natAbs * 1000 ≤ N ∧ 8 ≤ acq.ref.count + 1 ∧ acq.ref.runStart = some 0 ∧
      ((q : Int) - N).natAbs * 1000 ≤ N ∧
      N < (((ticksFrom 491520 (tickAt 3842 0) : Nat) : Int) - N).natAbs * 1000 := by
  decide +kernel

theorem witness_FlywheelMakesBoundaries :
    let s := { State.reset with hc := 1920 }
    let a := { s with ref := { s.ref with state := .acquiring, nextGen := none, expiry := some 491520, lastPulse := some 0 } }
    s.ref.nextGen = some 491520 ∧ s.reached 491520 = true ∧ State.reset.reached 491520 = false ∧
      { s with hc := 1919 }.reached 491520 = false ∧ a.ref.expiry = some 491520 ∧ a.reached 491520 = true ∧
      a.ref.lastPulse = some 0 := by
  decide +kernel

theorem witness_BoundaryStartsFadesAndMotions :
    (∀ e, running.takes.head? = some e → e.due ≠ running.fc + 1) ∧
      (pgm (mono .running .waiting)).pgms[(2 : ProgId)].ctl.out = .waiting := ⟨nofun, rfl⟩

/-! ### Ports and lanes -/

theorem witness_EdgesKeepSignal :
    let s := { running with ports := State.reset.ports.set 1 { w4 with state := .locked }, hc := 60000 }
    State.reset.ports[(3 : PortId)].state = .noSignal ∧ s.ports[(1 : PortId)].state ≠ .noSignal ∧
      s.ports[(1 : PortId)].expiry = some 14589615 ∧ s.reached 14589615 = true ∧
      { s with hc := 56990 }.reached 14589615 = true ∧ { s with hc := 56989 }.reached 14589615 = false ∧
      s.lanes[(4 : LaneId)].onPort 1 = true ∧ ¬ s.lanes[(5 : LaneId)].onPort 1 = true := by
  decide +kernel

/-- Every clause of the close: a window in range and one out of range, in each state, with and without a predecessor, at
and beyond the two limits of R19. -/
theorem witness_WindowCloseJudgesPort :
    let rm := ticksFrom 13423771 (14589615 - 24576)
    (port w4).ports[(3 : PortId)].state ≠ .noSignal ∧ w4.windowStart = some 13423771 ∧ w4.expiry = some 14589615 ∧
      4096 ≤ w4.inWindow ∧ rm = 1141268 ∧ inRange rm = true ∧ inRange (ticksFrom 13423771 (14600000 - 24576)) = false ∧
      w4.lastMeas = some 1141259 ∧ ((rm : Int) - 1141259).natAbs * 50000 ≤ 1141259 ∧
      ((rm : Int) - 1141245).natAbs * 50000 > 1141245 ∧ 3 ≤ w4.agree + 1 ∧ w4.history.head? = some 1141262 ∧
      ((rm : Int) - 1141040).natAbs * 5000 ≤ 1141040 ∧ 1141039 < ((rm : Int) - 1141039).natAbs * 5000 ∧
      4 ≤ ({ w4 with relock := 3 } : Port).relock + 1 ∧ running.lanes[(4 : LaneId)].onPort 1 = true ∧
      ¬ running.lanes[(5 : LaneId)].onPort 1 = true ∧ w4.cls ≠ some .k441 := by
  decide +kernel

/-- R23, R34: a window that departs takes a LOCKED port to RELOCKING, and a lane on it goes on with its fade as it stood. -/
theorem test_close_keeps_fade :
    let l := { Lane.start (some ⟨1, 0⟩) none with
      valid := true, fade := LaneFade.fadingIn, fadePos := 100, readPos := 7, slips := 3, latch := some (5, true) }
    let s := next { State.reset with
      ports := State.reset.ports.set 1 { w4 with state := .locked, ratio := some 1141039, cls := some .k441 }
      lanes := State.reset.lanes.set 4 l } (.windowClose 1)
    s.ports[(1 : PortId)].state = .relocking ∧ s.lanes[(4 : LaneId)] = l := by
  decide +kernel

/-- R27, R36, R46: a port whose class becomes 44.1k gives its lanes an Lc of 104, the programme an Lc_pgm of 104, and its
notice CLASS (table of 02 section 2.5). -/
theorem test_class_change :
    let s := next { parked with ports := State.reset.ports.set 1 w4 } (.windowClose 1)
    s.lanes[(4 : LaneId)].lc = 104 ∧ s.pgms[(2 : ProgId)].ctl.lcPgm = 104 ∧
      s.link.fifo = [.notice .port [.num 1, .kw .LOCKED, .kw .K441, .num 1141263, .num 0, .kw .CLASS]] := by
  decide +kernel

theorem witness_LaneSetWritesSources :
    let s := State.reset
    let back := { s with lanes := s.lanes.set 23 { s.lanes[(23 : LaneId)] with current := .backup } }
    Ready s ∧ Tok.fin? .L 24 (.name .L 23) = some 23 ∧ readSource (.src 5 7) = some (some (some ⟨5, 7⟩)) ∧
      readSource (.kw .NONE) = some (some none) ∧ s.ownerOf 23 = none ∧ running.ownerOf 4 = some 2 ∧
      running.pgms[(2 : ProgId)].ctl.state = .running ∧ back.lanes[(23 : LaneId)].current = .backup ∧
      parked.ownerOf 4 = some 2 ∧ (∀ q : ProgId, parked.pgms[q].ctl.state ≠ .running) := by
  decide +kernel

/-- R33, R34, R36, R46, R64: with IN3 locked at 44.1k, a PARKED programme whose lane goes to it holds the Lc_pgm of that class
and T − Lc as its D_req, and the lane fades in at the centre. -/
theorem test_lane_set_parked :
    let w := { w4 with state := PortState.locked, cls := some .k441, ratio := some 1141263, frameNo := 500 }
    let s := { parked with ports := State.reset.ports.set 3 w, lanes := State.reset.lanes }
    let u := next (next s (.dlyVideo 1 [.num 2, .num 7680])) (.laneSet 1 [.num 4, .src 3 0])
    let v := next u (.pgmDelete 1 [.num 2])
    u.lanes[(4 : LaneId)].fade = .fadingIn ∧ u.lanes[(4 : LaneId)].readPos = 468 ∧ u.lanes[(4 : LaneId)].lc = 104 ∧
      u.pgms[(2 : ProgId)].ctl.lcPgm = 104 ∧ u.pgms[(2 : ProgId)].dly.dReq = 7576 ∧ v.lanes[(4 : LaneId)].valid = true := by
  decide +kernel

theorem witness_FadesAndRampsEnd :
    let lane := { State.reset with lanes := State.reset.lanes.set 4 { Lane.start none none with fade := .fadingIn, fadePos := 240 } }
    let up := pgm { mono .running .fadingUp with ctl := { ctl .running .fadingUp with fadePos := 240 } }
    (lane.lanes[(4 : LaneId)].fade = .fadingIn ∧ 240 ≤ lane.lanes[(4 : LaneId)].fadePos) ∧
      (up.pgms[(2 : ProgId)].ctl.state = .running ∧ up.pgms[(2 : ProgId)].ctl.out = .fadingUp ∧
        240 ≤ up.pgms[(2 : ProgId)].ctl.fadePos) ∧
      (running.pgms[(2 : ProgId)].ctl.mode = .full ∧ 4800 ≤ running.pgms[(2 : ProgId)].cor.rampPos) := by
  decide +kernel

/-- The words that the statements call unreadable or beyond a range, at the ends of each range. -/
theorem witness_words_refused :
    beyond .P 8 (.num 8) ∧ beyond .P 8 (.num (-1)) ∧ beyond .L 24 (.name .L 24) ∧ beyond .PS 16 (.num 16) ∧
      beyond .G 8 (.name .G 8) ∧ beyond .A 48 (.num 48) ∧ beyond .C 2 (.num 2) ∧ beyond .Q 8 (.num 8) ∧
      Tok.index? .P (.name .L 2) = none ∧ readSource (.src 12 0) = some none ∧ readSource (.num 3) = none ∧
      Tok.items? .L (.nums [4, 24]) = some [4, 24] ∧ (Tok.index? .P (.num 7)).isSome ∧
      readTrigs [.kw .WATCH] = some [some .watch] ∧ readTrigs [.kw .ALARM] = none ∧ Tok.due? (.num 4294967296) = none ∧
      readAction [.kw .VIDEO, .num 2] = none :=
  ⟨⟨8, rfl, by decide⟩, ⟨-1, rfl, by decide⟩, ⟨24, rfl, by decide⟩, ⟨16, rfl, by decide⟩, ⟨8, rfl, by decide⟩,
    ⟨48, rfl, by decide⟩, ⟨2, rfl, by decide⟩, ⟨8, rfl, by decide⟩, by decide +kernel⟩

/-- R32, R40 to R54, R63, R106, R107, R121, R167, R172, R177: each request with a number at the end of a range, or with a word
missing or unreadable. -/
theorem test_requests_refused :
    let all : List (Instr × ErrCode) :=
      [(.laneSet 1 [.num 24, .src 1 0], .range), (.laneSet 1 [.num 4, .src 12 0], .range), (.laneSet 1 [.num 4], .synErr),
       (.pgmDefine 1 [.num 3, .kw .MONO, .num 24, .num 0], .range), (.pgmDefine 1 [.num 8], .range),
       (.pgmDefine 1 [.num 3, .kw .PAIR, .num 7, .num 0], .synErr), (.pgmRun 1 [.num 8], .range),
       (.pgmRun 1 [.other], .synErr), (.pgmPark 1 [.num (-1)], .range), (.pgmPark 1 [], .synErr),
       (.pgmMode 1 [.num 8, .kw .FULL], .range), (.pgmMode 1 [.num 8, .kw .MAIN], .synErr),
       (.pgmSource 1 [.num 8, .kw .MAIN], .range), (.pgmSource 1 [.num 2], .synErr),
       (.dlyVideo 1 [.num 8, .num 0], .range), (.dlyVideo 1 [.num 2, .plus 5], .synErr),
       (.dlyTrim 1 [.num 8, .plus 5], .range), (.dlyTrim 1 [.num 2, .kw .MAIN], .synErr),
       (.presetRecall 1 [.num 2, .num 16], .range), (.presetPush 1 [.num 8, .other], .synErr),
       (.presetPop 1 [.num 8], .range), (.presetPop 1 [.num 2, .num 3], .synErr),
       (.prbArm 1 [.num 2, .num 8], .range), (.prbArm 1 [.num 2, .num 7, .num 480, .num (-2000), .num 1, .kw .MAIN], .synErr),
       (.capArm 1 [.num 2], .range),
       (.capArm 1 [.num 1, .num 2, .num 0, .num 4800, .kw .SINGLE, .kw .WATCH, .kw .GPI, .num 8], .range),
       (.capArm 1 [.num 1, .num 2, .num 0, .num 4800, .kw .SINGLE], .synErr), (.capTrig 1 [.num 2], .range),
       (.capRead 1 [.num 1, .num 8, .num 24], .range), (.capRead 1 [.num 1, .num 7, .num (-1), .num 24], .range),
       (.capRead 1 [.num 1, .num 7, .num 24], .state), (.capRead 1 [.num 2, .num 0], .synErr),
       (.capRelease 1 [.num 2], .range), (.capFree 1 [.other], .synErr),
       (.takAdd 1 [.plus 1, .kw .PUSH, .num 2, .num 16], .range), (.takAdd 1 [.other, .kw .GPO, .num 8], .range),
       (.takAdd 1 [.plus 1, .kw .VIDEO, .num 2], .synErr), (.takAdd 1 [.kw .POP, .num 8], .synErr),
       (.takCancel 1 [.num 65536], .range), (.takCancel 1 [], .synErr)]
    ∀ x ∈ all, next running x.1 = running.erTo 1 x.2 := by
  decide +kernel

/-! ### Programmes and delay lines -/

theorem witness_PgmDefineMakesParked :
    Ready running ∧ Tok.fin? .P 8 (.num 7) = some 7 ∧ Tok.layout? (.kw .PAIR) = some .pair ∧
      (Tok.items? .L (.nums [22, 23])).bind (asFins 24) = some [22, 23] ∧
      (Tok.items? .L (.nums [4, 4])).bind (asFins 24) = some [4, 4] ∧ Tok.fin? .PS 16 (.num 15) = some 15 ∧
      [22, 23].length = Layout.count .pair ∧ running.pgms[(7 : ProgId)].ctl.state = .undefined ∧
      running.pgms[(2 : ProgId)].ctl.state = .running ∧ parked.pgms[(2 : ProgId)].ctl.state = .parked ∧
      running.ownerOf 22 = none ∧ running.ownerOf 4 = some 2 ∧ ¬ ([4, 4] : List LaneId).Nodup ∧
      Tok.items? .L (.num 24) = some [24] ∧ [22].length ≠ Layout.count .pair := by
  decide +kernel

theorem witness_PgmRunStartsProgramme :
    let none := { parked with owners := List.replicate 2048 (.slot 0) }
    Ready parked ∧ parked.pgms[(2 : ProgId)].ctl.state = .parked ∧
      1 ≤ parked.pgms[(2 : ProgId)].ctl.lanes.length ∧ parked.pgms[(2 : ProgId)].ctl.lanes.length ≤ 8 ∧
      parked.pgms[(2 : ProgId)].ctl.lanes.length ≤ parked.freePages ∧ parked.pagesHeld 2 = 0 ∧ Ready none ∧
      none.freePages < none.pgms[(2 : ProgId)].ctl.lanes.length ∧ running.pgms[(2 : ProgId)].ctl.state ≠ .parked := by
  decide +kernel

theorem witness_PgmParkStopsProgramme :
    let s := { slot { Slot.reset with state := .armed, pgm := some 2 } with
      probe := { Probe.reset with state := .armed, pgm := some 2 } }
    Ready s ∧ Tok.fin? .P 8 (.name .P 2) = some 2 ∧ s.pgms[(2 : ProgId)].ctl.state = .running ∧
      s.slots[(1 : SlotId)].pgm = some 2 ∧ s.slots[(0 : SlotId)].pgm ≠ some 2 ∧ s.probe.pgm = some 2 ∧
      (∀ q : ProgId, q ≠ 2 → s.pgms[q].dly.short = false) ∧
      s.probe.state = .armed ∧ parked.pgms[(2 : ProgId)].ctl.state ≠ .running ∧
      (4 : LaneId) ∈ s.pgms[(2 : ProgId)].ctl.lanes ∧ (5 : LaneId) ∉ s.pgms[(2 : ProgId)].ctl.lanes ∧
      s.pgms[(2 : ProgId)].ctl.lanes.Nodup ∧
      (∀ q : ProgId, q ≠ 2 → s.pgms[q].ctl.state = .running → (4 : LaneId) ∉ s.pgms[q].ctl.lanes) ∧
      (∃ v, exec .houseSample s = .next v) ∧
      ({ running.lanes[(4 : LaneId)] with outLatch := some 7 } : Lane).outLatch = some 7 := by
  refine ⟨by decide +kernel, by decide +kernel, by decide +kernel, by decide +kernel, by decide +kernel,
    by decide +kernel, by decide +kernel, by decide +kernel, by decide +kernel, by decide +kernel, by decide +kernel,
    by decide +kernel, by decide +kernel, ⟨_, rfl⟩, rfl⟩

theorem witness_PgmDeleteMakesUndefined :
    Ready parked ∧ Tok.index? .P (.num 8) = some 8 ∧ Tok.index? .P (.num (-1)) = some (-1) ∧
      Tok.fin? .P 8 (.num 2) = some 2 ∧ parked.pgms[(2 : ProgId)].ctl.state = .parked ∧
      (4 : LaneId) ∈ parked.pgms[(2 : ProgId)].ctl.lanes ∧ running.pgms[(2 : ProgId)].ctl.state ≠ .parked := by
  decide +kernel

theorem witness_PgmChangesWaitForBoundary :
    let bare := { parked with lanes := parked.lanes.set 4 (Lane.start none none) }
    Ready running ∧ Tok.mode? (.kw .BYPASS) = some .bypass ∧ Tok.sel? (.kw .BACKUP) = some .backup ∧
      running.pgms[(2 : ProgId)].ctl.state = .running ∧ parked.pgms[(2 : ProgId)].ctl.state = .parked ∧
      State.reset.pgms[(2 : ProgId)].ctl.state = .undefined ∧
      (¬ ∃ k ∈ parked.pgms[(2 : ProgId)].ctl.lanes, parked.lanes[k].backup = none) ∧
      (∃ k ∈ bare.pgms[(2 : ProgId)].ctl.lanes, bare.lanes[k].backup = none) ∧
      parked.pgms[(2 : ProgId)].ctl.active ≠ .backup ∧ Tok.sel? (.kw .MAIN) = some .main := by
  decide +kernel

theorem witness_ProgrammeSettingsAreWritten :
    Ready parked ∧ Tok.index? .P (.num 8) = some 8 ∧ Tok.int? (.num 601) = some 601 ∧ Tok.int? (.num 0) = some 0 ∧
      Tok.fin? .P 8 (.num 2) = some 2 ∧ parked.pgms[(2 : ProgId)].ctl.state ≠ .undefined ∧
      State.reset.pgms[(2 : ProgId)].ctl.state = .undefined ∧ Tok.motion? (.kw .JUMP) = some .jump ∧
      Tok.motion? (.num 3) = none ∧ running.pgms[(2 : ProgId)].ctl.state = .running := by
  decide +kernel

theorem witness_ChangeoverAppliesInFlight :
    let down := fun (x : Change) =>
      pgm { mono .running .fadingDown with ctl := { ctl .running .fadingDown with fadePos := 240, inflight := some x } }
    let a := (down { source := none, mode := some .delay }).pgms[(2 : ProgId)].ctl
    let b := (down { source := some (.backup, .take), mode := none }).pgms[(2 : ProgId)].ctl
    (a.state = .running ∧ a.out = .fadingDown ∧ 240 ≤ a.fadePos) ∧
      a.inflight = some { source := none, mode := some .delay } ∧
      b.inflight = some { source := some (.backup, .take), mode := none } := by
  decide +kernel

theorem witness_VideoAndTrimFormTarget :
    let full := { running with owners := .line 2 0 :: List.replicate 2047 (.slot 0) }
    Ready running ∧ Tok.int? (.num 384001) = some 384001 ∧ Tok.signed? (.plus 48001) = some 48001 ∧
      running.pgms[(2 : ProgId)].dly.motion = .still ∧ Ready full ∧ full.pagesHeld 2 = 1 ∧ full.freePages = 0 ∧
      parked.pgms[(2 : ProgId)].ctl.state = .parked ∧ State.reset.pgms[(2 : ProgId)].ctl.state = .undefined := by
  decide +kernel

/-- A line of one lane after three words: length 1 and length 3. -/
theorem witness_DelayLineDelivers :
    let words : List (List Sample) := [[7], [8], [9]]
    (∀ v ∈ words, v.length = ({ Delay.undefined with lines := [[]] } : Delay).lines.length) ∧
      words.reverse[1 - 1]? = some [9] ∧ words.reverse[3 - 1]? = some [7] ∧ ([9] : List Sample)[0]? = some 9 ∧
      3 ≤ 1 * 1024 := by
  decide

theorem witness_MotionsEnd :
    let s := fun (m : Motion) (slew jump target app : Nat) (pend : Option Nat) =>
      (pgm { mono .running .opened with
        dly := { (mono .running .opened).dly with
          motion := m, slewCount := slew, jumpPos := jump, dTarget := target, dApp := app, pendTarget := pend } }).pgms[(2 : ProgId)]
    (s .slewing 32 0 1 0 none).ctl.state = .running ∧ (s .slewing 32 0 1 0 none).dly.slewCount = 32 ∧
      (s .slewing 32 0 2 0 none).dly.dTarget = 2 ∧ (s .fadingDown 0 240 9 0 none).dly.motion = .fadingDown ∧
      (s .fadingUp 0 240 9 9 none).dly.pendTarget = none ∧ (s .fadingUp 0 240 9 9 (some 9)).dly.pendTarget = some 9 ∧
      (s .fadingUp 0 240 9 9 (some 5)).dly.jumpPos = 240 := by
  decide +kernel

/-! ### Meter and gain -/

/-- A close due of P2, with a ring of `n` energies of 1/100, in a sub-block that is covered or not. -/
def closing (n : Nat) (covered : Bool) : State :=
  let g := mono .running .opened
  { pgm { g with mtr := { g.mtr with covered := covered, ring := List.replicate n (1 / 100), energies := [48] } } with
    hc := 9600, closeDue := true, lanes := running.lanes }

/-- 05 section 5.9: 0.01 as the fourth entry makes L_m present. -/
theorem test_close_measures :
    (next (closing 3 true) .subBlockClose).pgms[(2 : ProgId)].mtr.lm = some (-2069) ∧
      (next (closing 2 true) .subBlockClose).pgms[(2 : ProgId)].mtr.lm = none := by decide +kernel

theorem witness_closes :
    (closing 3 true).powered = true ∧ (closing 3 true).closeDue = true ∧
      (∃ t, exec .subBlockClose (closing 3 true) = .next t) ∧
      (closing 3 true).pgms[(2 : ProgId)].ctl.state = .running ∧
      (closing 3 true).pgms[(2 : ProgId)].mtr.covered = true ∧
      (closing 3 true).pgms[(2 : ProgId)].mtr.laneInvalid = false ∧
      (closing 3 true).pgms[(2 : ProgId)].mtr.bypassSeen = false ∧ 4800 ≤ (closing 3 true).hc.toNat ∧
      (closing 3 false).pgms[(2 : ProgId)].mtr.covered = false ∧
      (closing 30 true).pgms[(2 : ProgId)].mtr.ring.length = 30 :=
  ⟨rfl, rfl, ⟨_, rfl⟩, by decide +kernel, by decide +kernel, by decide +kernel, by decide +kernel,
    by decide +kernel, by decide +kernel, by decide +kernel⟩

/-- Bins with one count in bin 120: its centre is its mean level, 1,000 above the gate. -/
theorem witness_LevelsFollowFormulas :
    let bins := (List.replicate 300 0).set 120 1
    let count := fun (i : Nat) => bins.getD i 0
    let centre := fun (i : Nat) => (-7000 + 25 * i + 12.5 : ℝ)
    (0 : ℚ) < 1 / 100 ∧ (-6 : Int) ^ 2 ≤ 4 * 9 ∧ bins.length = 300 ∧ (∀ n ∈ bins, n < 2 ^ 32) ∧ (∃ n ∈ bins, n ≠ 0) ∧
      0 < count 120 ∧ (∀ j : Nat, j ≠ 120 → count j = 0) ∧ 1 / 10 ^ 6 ≤ |centre 120 - (centre 120 - 1000)| := by
  refine ⟨by norm_num, by norm_num, by decide +kernel, by decide +kernel, ⟨1, by decide +kernel⟩, by decide +kernel,
    fun j hj => ?_, by norm_num⟩
  show ((List.replicate 300 0).set 120 1).getD j 0 = 0
  rw [List.getD_eq_getElem?_getD, List.getElem?_set_ne (Ne.symm hj), List.getElem?_replicate]
  split <;> rfl

theorem witness_PresetSetWritesFields :
    let edits : List (Kw × Tok) := [(.CUT, .num 3001), (.ATTACK, .num 19), (.MODE, .kw .SHORT)]
    Ready running ∧ edits ≠ [] ∧
      (∀ e ∈ edits, e.1 = .MODE ∧ (Tok.gainMode? e.2).isSome ∨
        e.1 ∈ [Kw.TARGET, .BOOST, .CUT, .ATTACK, .RELEASE, .SILENCE] ∧ (Tok.signed? e.2).isSome) ∧
      Tok.index? .PS (.num 16) = some 16 ∧ Tok.fin? .PS 16 (.num 15) = some 15 ∧
      running.pgms[(2 : ProgId)].cor.top = 3 := by
  decide +kernel

theorem witness_stacks :
    let s := fun (l : List PresetId) => pgm { mono .running .opened with cor := Correction.start l }
    Ready (s [3]) ∧ Tok.fin? .PS 16 (.name .PS 7) = some 7 ∧ (s [3]).pgms[(2 : ProgId)].cor.stack.length < 2 ∧
      2 ≤ (s [3, 7]).pgms[(2 : ProgId)].cor.stack.length ∧ (s [1, 2, 3]).pgms[(2 : ProgId)].cor.stack.length < 4 ∧
      (s [1, 2, 3, 4]).pgms[(2 : ProgId)].cor.stack.length = 4 ∧
      State.reset.pgms[(2 : ProgId)].ctl.state = .undefined := by
  decide +kernel

/-- A 48k port at a ratio of exactly 1,048,576 whose newest frame is number 200; its frame `n` holds the word `n`. -/
def exactPort : Port :=
  { Port.reset with
    state := .locked, cls := some .k48, ratio := some 1048576, frameNo := 200
    recent := (List.range 200).map fun i => Vector.replicate 8 (BitVec.ofNat 24 (200 - i)) }

/-- P2 running on L4, whose source is the exact port, at a read position of 32 frames behind the newest. -/
def exact (mode : Mode) (out : OutState) (lane : Lane) : State :=
  { pgm { mono .running out with ctl := { ctl .running out with mode := mode } } with
    ports := State.reset.ports.set 1 exactPort
    lanes := State.reset.lanes.set 4 { lane with main := some ⟨1, 0⟩, valid := true, readPos := 168 } }

theorem witness_HouseSampleRunsAudioPath :
    let s := exact .bypass .fadingUp { Lane.start none none with fade := .fadingIn }
    let g := s.pgms[(2 : ProgId)]
    let l := s.lanes[(4 : LaneId)]
    s.powered = true ∧ g.ctl.state = .running ∧ g.ctl.lanes.Nodup ∧ g.ctl.lanes[0]? = some 4 ∧ l.outLatch = none ∧
      (∀ q : ProgId, q ≠ 2 → s.pgms[q].ctl.state = .running → (4 : LaneId) ∉ s.pgms[q].ctl.lanes) ∧
      l.latch = none ∧ l.valid = true ∧ l.source = some ⟨1, 0⟩ ∧ exactPort.cls = some .k48 ∧
      exactPort.recent[((exactPort.frameNo : Int) - (l.readPos - 64).floor).toNat]? = some (Vector.replicate 8 104) ∧
      ({ running.lanes[(4 : LaneId)] with latch := some (4000000, true) } : Lane).latch = some (4000000, true) ∧
      (probe { Probe.reset with state := .armed, pgm := some 2 }).probe.state = .armed := by
  decide +kernel

/-- R30, R31, R35, R44: the exact case, a slip from a depth of 49 to 32, and the fades at their first and last positions. -/
theorem test_words_of_sample :
    let word := fun (s : State) => (next s .houseSample).pins.out[(4 : LaneId)]
    let l := { Lane.start none none with fade := LaneFade.opened }
    let slip := exact .bypass .opened l
    let back := { slip with lanes := slip.lanes.set 4 { slip.lanes[(4 : LaneId)] with readPos := 151 } }
    word (exact .bypass .opened l) = 104 ∧ word back = 104 ∧
      (next back .houseSample).lanes[(4 : LaneId)].slips = 1 ∧
      word (exact .bypass .fadingUp l) = 0 ∧
      word (exact .bypass .opened { l with fade := .fadingIn, fadePos := 239 }) = 104 ∧
      word (exact .bypass .fadingDown l) = 103 := by
  decide +kernel

/-- R42: in the house sample of a park the channel carries the word it would have carried, and the lane keeps its source. -/
theorem test_park_keeps_lane :
    let u := next (exact .bypass .opened { Lane.start none (some ⟨5, 0⟩) with fade := .opened }) (.pgmPark 1 [.num 2])
    u.lanes[(4 : LaneId)].outLatch = some 104 ∧ u.lanes[(4 : LaneId)].backup = some ⟨5, 0⟩ ∧
      u.lanes[(4 : LaneId)].fade = .opened ∧ (next u .houseSample).pins.out[(4 : LaneId)] = 104 := by
  decide +kernel

/-- R30: words that do not repeat are delivered at their frames as they stand; a tone of a quarter of the frame rate, with its
greatest word at a frame, is 1,000 × cos 45° half a frame further; and a 96k feed loses one of half its frame rate. -/
theorem test_converter_signals :
    let words : List Sample := [5, 0, 7, 3]
    let tone : List Sample := [1000, 0, -1000, 0, 1000, 0, -1000, 0]
    let x := changingSignal .k441 1141259 words 2
    let y := repeatingSignal .k441 1141259 4 tone (1 / 2)
    periodOf words = none ∧ |x.1 - 7| < 1 / 10 ^ 20 ∧ x.2 = 1 ∧ periodOf tone = some 4 ∧
      |y.1 - 70710678118654752440 / 10 ^ 17| < 1 / 10 ^ 15 ∧ y.2 = 0 ∧
      repeatingSignal .k96 524288 2 [100, -100, 100, -100] (1 / 3) = (0, 0) := by
  decide +kernel

/-- A 96k port whose words alternate. -/
theorem witness_high_rate_signal :
    let p : Port := { Port.reset with cls := some .k96, ratio := some 524288, recent := [9, 2, 9, 2].map (Vector.replicate 8 ·) }
    let a : Sample := 9
    (∃ r, p.ratio = some r ∧ r < 1048576) ∧ 4 ≤ p.recent.length ∧
      p.recent.map (fun f => f[(7 : Fin 8)]) = [a, 2, a, 2] ∧ p.recent ≠ [] := by
  exact ⟨⟨_, rfl, by decide⟩, by decide, by decide +kernel, by decide⟩

theorem witness_GainStepsAtClose :
    let s := closing 3 true
    let loud := { s with presets := s.presets.set 3 { Preset.factory with mode := .short } }
    let frz := { s with points := s.points.set 6 { a6 .active 0 with cfg := { (a6 .active 0).cfg with action := .freeze } } }
    let line := { s with gpis := s.gpis.set 3 { Gpi.start { GpiCfg.factory with func := .hold [2] } with level := true } }
    s.pgms[(2 : ProgId)].ctl.mode = .full ∧ s.presets[s.pgms[(2 : ProgId)].cor.top].mode = .off ∧
      loud.presets[loud.pgms[(2 : ProgId)].cor.top].mode = .short ∧
      frz.points[(6 : PointId)].cfg.action = .freeze ∧ frz.points[(6 : PointId)].state = .active ∧
      line.gpis[(3 : LineId)].cfg.func = .hold [2] ∧ line.gpis[(3 : LineId)].level = true := by
  decide +kernel

/-- 06 section 6.4: with no hold cause the hold is NONE; with L_m absent it is SILENCE. -/
theorem test_hold_causes :
    (next (closing 3 true) .subBlockClose).pgms[(2 : ProgId)].cor.hold = .nothing ∧
      (next (closing 2 true) .subBlockClose).pgms[(2 : ProgId)].cor.hold = .silence := by decide +kernel

/-! ### Probe -/

theorem witness_ProbeArms :
    Ready running ∧ Tok.fin? .P 8 (.num 2) = some 2 ∧ Tok.fin? .G 8 (.num 7) = some 7 ∧
      Tok.int? (.num 479) = some 479 ∧ Tok.signed? (.num (-6001)) = some (-6001) ∧ Tok.int? (.num 601) = some 601 ∧
      running.probe.state = .idle ∧ running.pgms[(2 : ProgId)].ctl.state = .running ∧
      (probe { Probe.reset with state := .armed }).probe.state = .armed ∧
      parked.pgms[(2 : ProgId)].ctl.state ≠ .running := by
  decide +kernel

def armedProbe : Probe :=
  { Probe.reset with state := .armed, pgm := some 2, marker := some 2, armAt := some 0, expiry := some 48000 }

theorem witness_MarkerFixesRegion :
    let s := { probe armedProbe with hc := 1000 }
    s.probe.state = .armed ∧ s.probe.marker = some 2 ∧ s.probe.armAt = some 0 ∧
      (s.hc - 520).toNat ≤ s.probe.w ∧ s.probe.w < (s.hc - 519).toNat ∧ ¬ (running.probe.state = .armed) ∧
      min (min ((s.hc - 519).toNat + s.probe.w) (s.hc - 0).toNat) 24000 = 961 ∧
      min (min (2000 + s.probe.w) ({ s with hc := 3000 }.hc - 2600).toNat) 24000 + s.probe.w < 2000 := by
  decide +kernel

/-- R123, R127, R128: a marker delivered at house sample 1,000 for 519 ends the search at once; its region begins 480 samples before the
marker, its onset lies 9 after it, so the trim becomes −9, and the PROBE notice carries it. -/
theorem test_marker_ends_search :
    let p := { armedProbe with trim := true, threshold := -2000,
                               ring := List.replicate 472 2000000 ++ List.replicate 528 0 }
    let s := { probe p with hc := 1000 }
    let u := probeMarker 2 519 s
    p.w < (s.hc - 519).toNat ∧ u.probe.state = .done ∧ u.probe.onsets.head?.map (·.location) = some 9 ∧
      u.pgms[(2 : ProgId)].dly.o = -9 ∧ u.probe.trimWritten = some (-9) ∧
      u.link.fifo.getLast? = some (.notice .probe
        [.kw .DONE, .num 2, .num 519, .num (-480), .num 1, .num 9, .num (-1245), .kw .POS, .num (-9), .dash]) := by
  decide +kernel

/-- A search at house sample 1,000 with region start 0, marker at 480, and 961 words of which the newest window's are
given. -/
def searching (windows quiet : Nat) (w : Sample) : Probe :=
  { armedProbe with state := .searching, expiry := none, t := some 480, region := some 0, windows := windows,
                    quiet := quiet, threshold := -2000, ring := List.replicate 961 w }

theorem witness_EnvelopeWindowJudges :
    let s := fun (windows quiet : Nat) (w : Sample) => { probe (searching windows quiet w) with hc := 1000 }
    let taken := min ((s 19 10 0).hc - 0).toNat (((480 : HouseCount) + BitVec.ofNat 48 480 - 0).toNat + 1)
    let words := fun (w : Sample) => (((s 19 10 w).probe.ring.drop (taken - 960)).take 48).reverse
    (s 19 10 0).probe.region = some 0 ∧ (s 19 10 0).probe.t = some 480 ∧ taken = 961 ∧ 48 * (19 + 1) ≤ taken ∧
      ¬ (48 * (20 + 1) ≤ taken) ∧
      isLoud ((words 0).map fun w => w.toInt.natAbs ^ 2).sum (-2000) = false ∧
      isLoud ((words 2000000).map fun w => w.toInt.natAbs ^ 2).sum (-2000) = true ∧
      (words 2000000).findIdx? (fun w => reachesThreshold w (-2000)) = some 0 ∧
      (words 2000000).head? = some 2000000 := by
  decide +kernel

theorem witness_ProbeLevelsAreExact : (1 : Sample) ≠ 0 := by decide

theorem witness_ProbeEnds :
    let s := { probe (searching 20 0 0) with hc := 961 }
    let on := { s with probe := { s.probe with trim := true, onsets := [{ location := 262, peak := 5, left := 0 }] } }
    let arm := { probe armedProbe with hc := 48000 }
    Ready s ∧ (s.probe.state = .searching ∧ s.probe.w < (s.hc - s.probe.t.getD s.hc).toNat) ∧
      (s.probe.examineHeld s.hc).onsets = [] ∧ (on.probe.examineHeld on.hc).onsets ≠ [] ∧
      (on.probe.examineHeld on.hc).trim = true ∧ (on.probe.examineHeld on.hc).pgm = some 2 ∧
      arm.probe.expiry = some 48000 ∧ (arm.hc - 48000).toNat < 2 ^ 47 ∧
      ¬ (({ arm with hc := 47999 } : State).hc - 48000).toNat < 2 ^ 47 ∧ running.probe.state = .idle := by
  decide +kernel

/-! ### Alarm points -/

theorem witness_AlmSetWritesPoint :
    let args : List Tok := [.kw .MEASURE, .kw .LOUD, .kw .SUBJECT, .name .P 2, .kw .STRIDE, .num 17]
    let bare : List Tok := [.kw .MEASURE, .kw .SHORT, .kw .SUBJECT, .name .P 2]
    let read := fun (args : List Tok) => (PointDraft.of State.reset.points[(47 : PointId)].cfg).fields args
    Ready State.reset ∧ beyond .A 48 (.num 48) ∧ Tok.fin? .A 48 (.name .A 47) = some 47 ∧ Tok.index? .A .other = none ∧
      almOutside args = false ∧ almOutside [.kw .SUBJECT, .name .P 8] = true ∧ almOutside [] = false ∧
      (read args).map (fun d => (d.cfg.measure, d.cfg.subject, d.stride)) = some (some .loud, .pgm 2, 17) ∧
      (read bare).map (fun d => (d.cfg.measure, d.cfg.subject)) = some (some .short, .pgm 2) ∧
      (read []).map (fun d => d.cfg.measure) = some none ∧ read [.kw .TRIM, .num 3] = none ∧
      (point (a6 .active 0)).points[(6 : PointId)].state = .active := by
  refine ⟨by decide +kernel, ⟨48, rfl, by decide⟩, by decide +kernel, by decide, by decide +kernel, by decide +kernel, rfl, ?_⟩
  refine ⟨by decide +kernel, by decide +kernel, by decide +kernel, rfl, by decide +kernel⟩

/-- The words that the clauses on ALM SET's keywords name: each kind of value, and one that is no such value. -/
theorem witness_point_words :
    (∀ m : Measure, Tok.other ≠ .kw m.kw) ∧ (∀ p : ProgId, Tok.other ≠ .name .P p.val) ∧
      (∀ i : PortId, Tok.other ≠ .name .IN i.val) ∧ Tok.other ≠ .kw .NONE ∧
      (Tok.items? .Q (.nums [1, 7])).bind (asFins 8) = some [1, 7] ∧ (Tok.items? .Q (.nums [1, 8])).bind (asFins 8) = none ∧
      Tok.signed? (.plus 5) = some 5 ∧ Tok.signed? .other = none ∧ Tok.fin? .C 2 (.name .C 1) = some 1 ∧
      Tok.fin? .C 2 (.num 2) = none ∧ Tok.other ∉ [Kw.NONE, .CHANGEOVER, .FREEZE, .CAPTURE].map Tok.kw ∧
      Tok.kw .TRIM ∉ [Kw.MEASURE, .SUBJECT, .SENSE, .NOTIFY, .GPO, .THRESHOLD, .HYST, .STRIDE, .PHASE, .RAISE, .CLEAR,
        .ACTION].map Tok.kw ∧
      Tok.kw .MEASURE ∉ [Kw.SUBJECT, .GPO, .CAPTURE].map Tok.kw :=
  ⟨nofun, nofun, nofun, nofun, by decide +kernel, by decide +kernel, rfl, rfl, by decide +kernel, by decide +kernel, by decide,
    by decide, by decide⟩

/-- R132, R134: each refusal of ALM SET, at the end of a range and for an unknown word, a missing measure, a subject of another
kind and an action without its programme. -/
theorem test_point_refusals :
    let all : List (List Tok × ErrCode) :=
      [([.num 48], .range), ([.num 6, .kw .SUBJECT, .name .P 8], .range), ([.num 6, .kw .SUBJECT, .name .IN 6], .range),
       ([.num 6, .kw .GPO, .nums [1, 8]], .range), ([.num 6, .kw .ACTION, .kw .CAPTURE, .num 2], .range),
       ([.num 6, .kw .TRIM, .kw .SUBJECT, .name .P 8], .range), ([], .synErr), ([.other], .synErr),
       ([.num 6], .synErr), ([.num 6, .kw .TRIM, .num 3], .synErr), ([.num 6, .kw .MEASURE, .kw .ON], .synErr),
       ([.num 6, .kw .MEASURE, .kw .LOUD, .kw .SENSE], .synErr), ([.num 6, .kw .MEASURE, .kw .LOUD], .synErr),
       ([.num 6, .kw .MEASURE, .kw .LOUD, .kw .SUBJECT, .name .IN 3], .synErr),
       ([.num 6, .kw .MEASURE, .kw .PORTLOCK, .kw .SUBJECT, .name .IN 5, .kw .ACTION, .kw .FREEZE], .synErr)]
    ∀ x ∈ all, next State.reset (.almSet 1 x.1) = State.reset.erTo 1 x.2 := by
  decide +kernel

theorem witness_point_states :
    Tok.index? .A (.num (-1)) = some (-1) ∧ Tok.fin? .A 48 (.num 6) = some 6 ∧ Ready (point (a6 .off 0)) ∧
      (point (a6 .off 0)).points[(6 : PointId)].state = .off ∧
      (point (a6 .raising 1)).points[(6 : PointId)].state = .raising ∧
      (point (a6 .clearing 1)).points[(6 : PointId)].state = .clearing ∧
      (point (a6 .forced 0)).points[(6 : PointId)].state = .forced := by
  decide +kernel

theorem witness_AlarmScanVisitsDuePoints :
    let s := { point { a6 .clear 0 with cfg := { (a6 .clear 0).cfg with stride := 2, phase := 1 } } with scanDue := true }
    s.scanDue = true ∧ (s.scanNo + 1).toNat % s.points[(6 : PointId)].cfg.stride = s.points[(6 : PointId)].cfg.phase ∧
      State.reset.scanDue = false := by
  decide +kernel

/-- A point of a measure and a subject, with a report of P2 waiting for the scan. -/
def measured (m : Measure) (x : Subject) (last : Option Nat) (clip : Nat) : State :=
  let g := { a6 .clear 0 with clipReading := last }
  { point { g with cfg := { g.cfg with measure := some m, subject := x, sense := .above, threshold := 0, raise := 1 } } with
    scanDue := true
    reports := State.reset.reports.set 2 (some
      { number := 4, valid := true, lm := some (-2069), ls := none, li := some (-2310), admission := true,
        corr := .undefined, clip := clip, preset := 3, gStar := 0, g := 600, mNew := 1048576, hold := .nothing }) }

/-- R134 to R136: each kind of measure, present and absent; CLIP's rise and its fall behind a clear. -/
theorem witness_measures :
    let v := fun (m : Measure) (x : Subject) (last : Option Nat) (clip : Nat) =>
      (next (measured m x last clip) .alarmScan).points[(6 : PointId)].lastValue
    v .silent (.pgm 2) none 0 = some (.num (-2069)) ∧ v .loud (.pgm 2) none 0 = none ∧
      v .drift (.pgm 2) none 0 = some (.num 10) ∧ v .clip (.pgm 2) none 7 = none ∧
      v .clip (.pgm 2) (some 5) 7 = some (.num 2) ∧ v .clip (.pgm 2) (some 9) 7 = some (.num 7) ∧
      v .phase (.pgm 2) none 0 = none ∧ v .gainlim (.pgm 2) none 0 = some (.truth true) ∧
      v .portlock (.port 1) none 0 = some (.truth true) ∧ v .ref .nothing none 0 = some (.truth true) ∧
      v .silent (.pgm 5) none 0 = none := by
  decide +kernel

/-- R50, R139: a SOURCE change beside a fade down begun at this house sample's boundary stands in place of the first, and one
that undoes it leaves the programme OPEN. -/
theorem test_change_beside_fade :
    let c := { ctl .running .opened with pending := { source := some (.backup, .alarm 3), mode := none } }.settle true
    c.out = .fadingDown ∧ c.inflight = some { source := some (.backup, .alarm 3), mode := none } ∧
      ({ c with pending := { source := some (.backup, .alarm 9), mode := none } }.settle true).inflight =
        some { source := some (.backup, .alarm 9), mode := none } ∧
      ({ c with pending := { source := some (.main, .request), mode := none } }.settle true).out = .opened := by
  decide +kernel

/-- R55: at its hold count an AUTO programme on BACKUP with its main port LOCKED returns to MAIN with cause REVERT. -/
theorem test_revert :
    let g := mono .running .opened
    let s0 := pgm { g with ctl := { g.ctl with active := .backup, revert := some 3, revertCount := 2 } }
    let s := { s0 with ports := State.reset.ports.set 1 { Port.reset with state := .locked }, scanDue := true }
    (next s .alarmScan).pgms[(2 : ProgId)].ctl.pending.source = some (.main, .revert) ∧
      (next { s with ports := State.reset.ports } .alarmScan).pgms[(2 : ProgId)].ctl.revertCount = 0 := by
  decide +kernel

/-- The two limits of the thresholds: −5000 does not raise and −5001 does; −4001 does not clear and −4000 does. -/
theorem witness_EvaluationMovesPoint :
    let st := fun (v : Int) (x : Point) => (movePoint 6 (some (.num v)) (point x)).points[(6 : PointId)].state
    st (-5000) (a6 .raising 2) = .clear ∧ st (-5001) (a6 .raising 2) = .active ∧ st (-5001) (a6 .raising 1) = .raising ∧
      st (-4001) (a6 .clearing 1) = .active ∧ st (-4000) (a6 .clearing 1) = .clear ∧
      st (-4000) (a6 .active 0) = .clearing ∧ st (-12000) (a6 .forced 0) = .forced := by
  decide +kernel

/-! ### Contact lines and captures -/

theorem witness_GpiInstantDebounces :
    let late := { State.reset with gpiFirst := false }
    State.reset.gpiDue = true ∧ State.reset.gpiFirst = true ∧ late.gpiDue = true ∧ late.gpiFirst = false ∧
      late.gpiFifo.length ≤ 32 ∧ { late with gpiDue := false }.gpiDue = false := by
  decide +kernel

/-- R156: a change to asserted is delivered to the line's function and to the probe whose marker it is. -/
theorem test_change_delivered :
    let g := Gpi.start { GpiCfg.factory with debounce := 2, func := .brk [2] 7 }
    let s := { probe { Probe.reset with state := .armed, pgm := some 2, marker := some 5, armAt := some 0, w := 960 } with
      hc := 48, gpiFirst := false, gpis := State.reset.gpis.set 5 { g with run := 1, runStart := some 10 } }
    let t := next s (.gpiSampleInstant 223)
    t.pgms[(2 : ProgId)].cor.stack = [3, 7] ∧ t.probe.t = some 10 := by
  decide +kernel

theorem witness_ChangesActAndTrigger :
    let line := fun (f : GpiFunc) =>
      ({ State.reset with gpis := State.reset.gpis.set 3 (Gpi.start { GpiCfg.factory with func := f }) } : State).gpis[(3 : LineId)].cfg.func
    line (.brk [2, 3] 7) = .brk [2, 3] 7 ∧ ([2, 3] : List ProgId).Nodup ∧ line (.reset [2]) = .reset [2] ∧
      line (.capture 1) = .capture 1 ∧ line .nothing = .nothing ∧
      (slot { Slot.reset with state := .armed, trigs := [.watch] }).slots[(1 : SlotId)].state = .armed ∧
      State.reset.watch.cfg.mode = .event := by
  decide +kernel

/-- R159: a BREAK line rewritten to another BREAK while it is asserted makes no pop when it is released; the next push is
undone again. -/
theorem test_rewritten_break :
    let g := { Gpi.start { GpiCfg.factory with debounce := 2, func := .brk [2] 7 } with level := true, run := 1 }
    let s := { pgm { mono .running .opened with cor := Correction.start [3, 7] } with
      hc := 48, gpiFirst := false, gpis := State.reset.gpis.set 5 g }
    let t := next s (.gpiSet 1 [.num 5, .kw .FUNCTION, .kw .BREAK, .nums [2], .num 6])
    let depth := fun (s : State) => s.pgms[(2 : ProgId)].cor.stack.length
    let due := fun (s : State) => { s with gpiDue := true, gpis := s.gpis.set 5 { s.gpis[(5 : LineId)] with run := 1 } }
    let u := next t (.gpiSampleInstant 255)
    let v := next (due u) (.gpiSampleInstant 223)
    depth u = 2 ∧ depth (next s (.gpiSampleInstant 255)) = 1 ∧ depth v = 3 ∧
      depth (next (due v) (.gpiSampleInstant 255)) = 2 := by
  decide +kernel

theorem witness_ContactSettingsAreWritten :
    let e : GpiEvent := { line := 5, level := true, stamp := 96096 }
    let s := { State.reset with gpiFifo := [e] }
    Ready State.reset ∧ Tok.fin? .G 8 (.num 7) = some 7 ∧ gpiOutside [.kw .DEBOUNCE, .num 65] = false ∧
      readGpi (State.reset.gpis[(7 : LineId)].cfg, false) [.kw .DEBOUNCE, .num 65] =
        some ({ GpiCfg.factory with debounce := 64 }, true) ∧
      Tok.polarity? (.kw .HIGH) = some .high ∧ progSet (.nums [2, 3]) = some [2, 3] ∧ Ready s ∧ s.gpiFifo = [e] ∧
      State.reset.gpiFifo = [] ∧ (Tok.items? .G (.nums [0, 7])).bind (asFins 8) = some [0, 7] ∧
      Tok.fin? .Q 8 (.num 7) = some 7 ∧ Tok.bit? (.num 1) = some true ∧
      (Tok.items? .Q (.kw .NONE)).bind (asFins 8) = some [] := by
  decide +kernel

/-- R159, R162: a preset out of range is found behind BREAK without programmes too, and a compare word that is not eight
digits is refused with SYNTAX. -/
theorem test_contact_refusals :
    let reply := fun (c : Instr) => (next State.reset c).link.fifo.getLast?
    gpiOutside [.kw .FUNCTION, .kw .BREAK, .num 9] = true ∧ Tok.index? .C (.num 2) = some 2 ∧
      readGpi (GpiCfg.factory, false) [.kw .DEBOUNCE, .other] = none ∧ gpiOutside [.kw .DEBOUNCE, .other] = false ∧
      Tok.items? .P (.nums [3, 8]) = some [3, 8] ∧ Tok.items? .G .other = none ∧
      reply (.gpiSet 1 [.num 3, .kw .FUNCTION, .kw .BREAK, .num 9]) = some (.reply (some 1) (.er .range)) ∧
      reply (.watchSet 2 [.kw .MATCH, .num 3, .num 101]) = some (.reply (some 2) (.er .synErr)) ∧
      reply (.watchSet 3 [.num 8]) = some (.reply (some 3) (.er .range)) := by
  decide +kernel

theorem witness_CaptureArms :
    let full := { running with owners := List.replicate 2048 (.slot 0) }
    Ready running ∧ Tok.fin? .C 2 (.name .C 1) = some 1 ∧ Tok.int? (.num (-1)) = some (-1) ∧
      Tok.int? (.num 4799) = some 4799 ∧ Tok.slotMode? (.kw .SINGLE) = some .single ∧
      readTrigs [.kw .ALARM, .num 6, .kw .REQUEST] = some ([.alarm 6, .request].map some) ∧
      running.slots[(1 : SlotId)].state = .free ∧ running.pgms[(2 : ProgId)].ctl.state = .running ∧
      running.freePages = 2048 ∧ (∀ q : ProgId, running.pgms[q].dly.short = false) ∧ full.freePages = 0 := by
  decide +kernel

/-- The capture of 10 section 10.8 in small: actual pre 1 and post 2. -/
def heldSlot (st : SlotState) (m : SlotMode) : Slot :=
  { Slot.reset with state := st, pgm := some 2, lanes := 1, pre := 4, post := 2, mode := m, trigs := [.request],
                    trigAt := some 10, actualPre := some 1, cursors := [1], rings := [[9, 8, 7]] }

/-- R172: the words from the trigger on, oldest first, with END at the last. -/
theorem test_capture_read :
    (next (slot (heldSlot .held .single)) (.capRead 5 [.num 1, .num 0, .num 25])).link.fifo.getLast? =
      some (.reply (some 5) (.ok [.num 1, .num 0, .num 1, .hex 8, .hex 9, .kw .END] [.clamped])) := by decide +kernel

theorem witness_CaptureRunsItsCourse :
    let s := fun (st : SlotState) (m : SlotMode) => slot (heldSlot st m)
    let x := (s .held .single).slots[(1 : SlotId)]
    Ready (s .held .single) ∧ (s .armed .single).slots[(1 : SlotId)].state = .armed ∧
      .request ∈ (s .armed .single).slots[(1 : SlotId)].trigs ∧ (s .post .single).slots[(1 : SlotId)].trigAt = some 10 ∧
      (s .post .single).slots[(1 : SlotId)].post ≤ ((12 : HouseCount) - 10).toNat ∧
      ((11 : HouseCount) - 10).toNat < (s .post .single).slots[(1 : SlotId)].post ∧
      x.state = .held ∧ x.pgm ≠ none ∧ Tok.int? (.num 0) = some ((0 : Nat) : Int) ∧ 0 < x.lanes ∧
      x.rings[0]? = some [9, 8, 7] ∧ x.actualPre.getD 0 + x.post ≤ [9, 8, 7].length ∧ x.mode = .single ∧
      (s .held .repeating).slots[(1 : SlotId)].mode = .repeating ∧ (s .free .single).slots[(1 : SlotId)].state = .free := by
  decide +kernel

/-! ### Takes, link, profile and starts -/

def entry (id : BitVec 16) (due : FrameCount) : TakeEntry :=
  { id := id, named := due, due := due, late := false, action := .pop 2 }

theorem witness_TakeQueueAddsAndCancels :
    let s := { State.reset with takes := [entry 0 5, entry 1 6], nextId := 0 }
    let full := { State.reset with takes := List.replicate 32 (entry 0 5) }
    Ready s ∧ Tok.due? (.plus 10001) = some (.relative 10001) ∧ Tok.due? (.num 4294967295) = some (.absolute 4294967295) ∧
      readAction [.kw .PUSH, .num 2, .num 7] = some (.push 2 7) ∧ s.takes.length < 32 ∧ 32 ≤ full.takes.length ∧
      Tok.int? (.num 65536) = some 65536 ∧ (∀ e ∈ s.takes, (e.id.toNat : Int) ≠ 65535) ∧
      s.takes = [entry 0 5] ++ entry 1 6 :: [] ∧ (∀ x ∈ [entry 0 5] ++ [], x.id ≠ (entry 1 6).id) := by
  decide +kernel

theorem witness_TakeEntryActsAsItsRequest :
    Ready running ∧ 2 ≤ (pgm { mono .running .opened with cor := Correction.start [3, 7] }).pgms[(2 : ProgId)].cor.stack.length ∧
      running.pgms[(2 : ProgId)].ctl.state = .running ∧ (applyAction (.source 2 .backup) running).2 = .done ∧
      parked.pgms[(2 : ProgId)].ctl.state = .parked ∧ parked.pgms[(2 : ProgId)].ctl.active = .main ∧
      (applyAction (.source 2 .backup) parked).2 = .done := by
  decide +kernel

theorem witness_GateHoldsNotices :
    let n := fun (k : Nat) => List.replicate k (Line.notice .src [])
    let s := { State.reset with link := { State.reset.link with fifo := n 39 } }
    let h := { State.reset with link := { State.reset.link with fifo := n 40, held := n 16, lost := 1 } }
    s.link.gateOpen = true ∧ s.link.fifo.length < 40 ∧ 40 ≤ h.link.fifo.length ∧ 16 ≤ h.link.held.length ∧
      s.link.held.length < 16 ∧ Ready h := by
  decide +kernel

def saving : State := { running with profile := { State.reset.profile with saving := some running.snapshot } }

theorem witness_SaveWritesProfile :
    Ready running ∧ running.profile.saving = none ∧ Ready saving ∧ saving.profile.saving = some running.snapshot := by
  exact ⟨by decide +kernel, rfl, by decide +kernel, rfl⟩

theorem witness_starts :
    State.reset.profile.store = .never ∧ Ready State.reset ∧ State.reset.profile.saving = none ∧
      saving.profile.saving ≠ none ∧ Ready saving :=
  ⟨rfl, by decide +kernel, rfl, nofun, by decide +kernel⟩

/-- A restart with no page of a slot and one programme SHORT, which its new length frees. -/
theorem witness_restart_notices :
    let g := mono .running .opened
    let s := pgm { g with dly := { g.dly with short := true, dReq := 4000 } }
    Ready s ∧ s.profile.saving = none ∧ (∀ c : SlotId, s.slotPages c = 0) ∧
      (next s (.restartProc 1 [])).link.fifo.map (fun
        | .notice k _ => some k
        | .reply _ _ => none) = [none, some .pages, some .hello] := by
  refine ⟨by decide +kernel, rfl, by decide +kernel, by decide +kernel⟩

theorem witness_StartFromImage :
    let s := { running with profile := { State.reset.profile with store := .image running.snapshot 7 } }
    s.profile.store = .image running.snapshot 7 ∧ s.profile.saving = none ∧
      running.snapshot.pgms[(7 : ProgId)] = none ∧
      (running.snapshot.pgms[(2 : ProgId)]).map (fun x => (x.running, x.lanes)) = some (true, [4]) := by
  refine ⟨rfl, rfl, ?_, ?_⟩ <;> decide +kernel

/-- R194: a programme stored as RUNNING runs again after POWER_ON. -/
theorem test_start_runs_programme :
    let s := { running with profile := { State.reset.profile with store := .image running.snapshot 7 } }
    ((next s (.powerOn true false)).pgms[(2 : ProgId)].ctl.state, (next s (.powerOn true false)).link.fast) =
      (.running, true) := by
  decide +kernel

theorem witness_LinesAreTakenInOrder :
    let n := fun (k : Nat) => List.replicate k (Line.notice .src [])
    let s := fun (k : Nat) (w : List Instr) => { State.reset with link := { State.reset.link with fifo := n k, waiting := w } }
    isLine (.timeQuery 1 []) = true ∧ 40 < (s 41 []).link.fifo.length ∧ (s 0 [.lineTooLong]).link.waiting ≠ [] ∧
      Ready (s 40 []) ∧ (s 41 [.lineTooLong]).link.fifo = .notice .src [] :: n 40 ∧ (n 40).length ≤ 40 ∧
      (s 41 [.lineTooLong]).link.waiting = .lineTooLong :: [] ∧ State.reset.link.rx.tooLong = false ∧
      (receiveText "7  TIME?" State.reset).link.rx.chars.length < 160 ∧
      lineWords (receiveText "7  TIME?" State.reset).link.rx.chars = ["7".toList, "TIME?".toList] ∧
      160 ≤ (List.replicate 160 'A').length := by
  decide +kernel

/-- The lines a text ends, from a receiver on. -/
def linesOf (r : Receiver) (text : String) : List Instr :=
  (text.toList.foldl (fun (x : Receiver × List Instr) c =>
    let y := x.1.take c true
    (y.1, x.2 ++ y.2.toList)) (r, [])).2

/-- R187: lines of the manual's worked sequences and what they carry. -/
theorem test_lines_read :
    let lines := linesOf Receiver.empty
    lines "101 GATE CLOSE\r\n102 hello?\n" = [.gateClose 101 [], .helloQuery 102 []] ∧
      lines "5 CAP READ C1 0 24\n" = [.capRead 5 [.name .C 1, .num 0, .num 24]] ∧
      lines "6 REF SET 29.97\n" = [.refSet 6 [.milli 29970]] ∧
      lines "7 WATCH SET MATCH 3 01000000\n" = [.watchSet 7 [.kw .MATCH, .num 3, .digits 2]] ∧
      lines "8 TAK ADD +10 PGM\n9 ALM FORCE A6 ON\n" =
        [.takAdd 8 [.plus 10, .other], .almForceOn 9 [.name .A 6]] := by
  decide +kernel

/-- R186, R187: an empty line, a line without a tag, an unknown sub-verb, a bad line, and a line of 161 characters. -/
theorem test_lines_refused :
    linesOf Receiver.empty "\r\n   \n" = [] ∧
      linesOf Receiver.empty "TIME?\n1 GATE AJAR\n" = [.badLine none, .unknownVerb (some 1)] ∧
      linesOf (Receiver.empty.take '3' false).1 " TIME?\n" = [.badLine (some 3)] ∧
      linesOf { Receiver.empty with chars := List.replicate 159 'A' } "AA\n4 TIME?\n" =
        [.lineTooLong, .timeQuery 4 []] := by
  decide +kernel

/-- R194: the rest of a line begun before a start is discarded without a reply, and the line behind it is answered. -/
theorem test_line_across_start :
    let s := next (receiveText "7 TI" State.reset) (.resetnRelease false false)
    s.link.rx.skip = true ∧ (receiveText "ME?\n" s).link.fifo = s.link.fifo ∧
      (receiveText "ME?\n8 TIME?\n" s).link.fifo.getLast? = some (.reply (some 8) (.ok [.num 0, .num 0] [])) := by
  decide +kernel

theorem witness_QueriesReportState :
    let s := { running with takes := [entry 3 5] }
    Ready s ∧ Tok.fin? .IN 6 (.name .IN 5) = some 5 ∧ Tok.fin? .L 24 (.num 23) = some 23 ∧ Tok.fin? .P 8 (.num 2) = some 2 ∧
      Tok.fin? .PS 16 (.num 15) = some 15 ∧ Tok.fin? .A 48 (.num 47) = some 47 ∧ Tok.fin? .G 8 (.num 7) = some 7 ∧
      Tok.fin? .C 2 (.num 1) = some 1 ∧ Tok.int? (.num 300) = some 300 ∧ s.probe.state = .idle ∧
      s.takes.find? (fun x => decide (x.id = (entry 3 5).id)) = some (entry 3 5) ∧
      (probe { Probe.reset with state := .noOnset }).probe.state ≠ .idle ∧
      State.reset.pgms[(2 : ProgId)].ctl.state = .undefined ∧ s.pgms[(2 : ProgId)].ctl.state ≠ .undefined := by
  decide +kernel

end Sys2Proof.Tests
end

