-- ==== Sys2Proof/Proofs/FrefPulse.lean ====
section
/-! SUPPORT and O10. What a frame boundary leaves alone, what a pulse makes of the reference record, and FREF_PULSE. -/

namespace Sys2Proof.Machine

/-! ### What a frame boundary can move -/

/-- `t` is `s` but for what the take, the output controller and the delay lines can move at a frame boundary (R13). -/
def BoundaryMoves (s t : State) : Prop :=
  t = { s with boundaryHere := t.boundaryHere, lanes := t.lanes, pgms := t.pgms, owners := t.owners, gpos := t.gpos,
               takes := t.takes, link := t.link, freeSeed := t.freeSeed }

theorem BoundaryMoves.refl (s : State) : BoundaryMoves s s := rfl

theorem BoundaryMoves.trans {s t u : State} (h : BoundaryMoves s t) (k : BoundaryMoves t u) : BoundaryMoves s u := by
  unfold BoundaryMoves at h k ⊢
  rw [k, h]

theorem BoundaryMoves.ref {s t : State} (h : BoundaryMoves s t) : t.ref = s.ref := by
  unfold BoundaryMoves at h
  rw [h]

theorem BoundaryMoves.foldl {α : Type} (f : State → α → State) (h : ∀ s x, BoundaryMoves s (f s x)) (xs : List α)
    (s : State) : BoundaryMoves s (xs.foldl f s) :=
  foldl_keeps (BoundaryMoves s) f (fun t x ht => ht.trans (h t x)) xs s (.refl s)

theorem DlyMoves.boundaryMoves {s t : State} (h : DlyMoves s t) : BoundaryMoves s t := by
  unfold BoundaryMoves
  rw [h.rest]

theorem BoundaryMoves.updCtl (s : State) (p : ProgId) (f : Ctl → Ctl) : BoundaryMoves s (s.updCtl p f) := rfl

/-! ### The entries of a take (R180) -/

theorem setLaneSource_boundaryMoves (sel : SrcSel) (s : State) (k : LaneId) :
    BoundaryMoves s (setLaneSource sel s k) := by
  unfold setLaneSource
  split <;> rfl

theorem recompute_boundaryMoves (p : ProgId) (s : State) : BoundaryMoves s (recompute p s) := by
  unfold recompute
  dsimp only
  split
  · exact .refl s
  · exact (BoundaryMoves.updCtl _ _ _).trans (handOver_moves _ _).boundaryMoves

theorem applyParked_boundaryMoves (p : ProgId) (sel : SrcSel) (cause : Cause) (s : State) :
    BoundaryMoves s (applyParked p sel cause s) := by
  unfold applyParked
  split
  · exact .refl s
  · have lanes : BoundaryMoves s (s.pgms[p].ctl.lanes.foldl (setLaneSource sel) s) :=
      .foldl _ (setLaneSource_boundaryMoves sel) _ s
    exact (lanes.trans (.updCtl _ p _)).trans ((recompute_boundaryMoves p _).trans rfl)

theorem requestSource_boundaryMoves (p : ProgId) (sel : SrcSel) (cause : Cause) (s t : State)
    (h : requestSource p sel cause s = some t) : BoundaryMoves s t := by
  unfold requestSource at h
  split at h
  · exact nomatch h
  · split at h <;> obtain rfl := Option.some.inj h
    · exact .updCtl _ _ _
    · exact applyParked_boundaryMoves _ _ _ _

theorem requestMode_boundaryMoves (p : ProgId) (m : Mode) (s t : State)
    (h : requestMode p m s = some t) : BoundaryMoves s t := by
  unfold requestMode at h
  split at h
  · exact nomatch h
  · obtain rfl := Option.some.inj h
    exact .updCtl _ _ _
  · obtain rfl := Option.some.inj h
    exact .updCtl _ _ _

theorem popOrCount_boundaryMoves (p : ProgId) (s : State) : BoundaryMoves s (popOrCount p s).1 := by
  unfold popOrCount
  split <;> rfl

theorem integrationReset_boundaryMoves (p : ProgId) (s : State) : BoundaryMoves s (integrationReset p s) := by
  unfold integrationReset
  split <;> rfl

theorem onPgm_boundaryMoves (p : ProgId) (s : State) (f : State → State × Outcome)
    (h : BoundaryMoves s (f s).1) : BoundaryMoves s (onPgm p s f).1 := by
  unfold onPgm
  split
  · exact .refl s
  · exact h

theorem orState_boundaryMoves (s : State) (r : Option State) (h : ∀ t, r = some t → BoundaryMoves s t) :
    BoundaryMoves s (orState s r).1 := by
  cases r with
  | none => exact .refl s
  | some t => exact h t rfl

theorem applyAction_boundaryMoves (a : TakeAction) (s : State) : BoundaryMoves s (applyAction a s).1 := by
  match a with
  | .video p v => exact onPgm_boundaryMoves p s _ (writeVideo_moves p v s).boundaryMoves
  | .trim p o => exact onPgm_boundaryMoves p s _ (writeTrim_moves p o s).boundaryMoves
  | .recall p n => exact onPgm_boundaryMoves p s _ rfl
  | .push p n => exact onPgm_boundaryMoves p s _ rfl
  | .pop p => exact onPgm_boundaryMoves p s _ (popOrCount_boundaryMoves p s)
  | .reset p => exact onPgm_boundaryMoves p s _ (integrationReset_boundaryMoves p s)
  | .source p sel => exact orState_boundaryMoves s _ (requestSource_boundaryMoves p sel .take s)
  | .mode p m => exact orState_boundaryMoves s _ (requestMode_boundaryMoves p m s)
  | .gpo l b => rfl

theorem applyEntries_boundaryMoves (es : List TakeEntry) (acc : List Fld) (s : State) :
    BoundaryMoves s (applyEntries es acc s).2 := by
  induction es generalizing acc s with
  | nil => exact .refl s
  | cons e es ih => exact (applyAction_boundaryMoves e.action s).trans (ih _ _)

/-! ### The blocks that take a boundary (R13) -/

theorem applyTake_boundaryMoves (origin : Kw) (s : State) : BoundaryMoves s (applyTake origin s) := by
  unfold applyTake
  dsimp only
  split
  · exact .refl s
  · have queue : BoundaryMoves s (s.setTakes (s.takes.drop s.dueEntries.length)) := rfl
    exact queue.trans ((applyEntries_boundaryMoves _ _ _).trans rfl)

theorem controllerBoundary_boundaryMoves (s : State) : BoundaryMoves s (controllerBoundary s) := by
  refine .foldl _ (fun t p => ?_) _ s
  split
  · exact .updCtl _ _ _
  · exact .refl t

theorem takeController_boundaryMoves (s : State) : BoundaryMoves s (takeController s) := by
  have taken (t : State) : BoundaryMoves t { t with boundaryHere := true } := rfl
  exact (controllerBoundary_boundaryMoves s).trans (taken _)

/-- R2, R13: what a frame boundary moves besides FC and the last boundary. -/
theorem frameBoundary_boundaryMoves (pos : TickPos) (origin : Kw) (s : State) :
    BoundaryMoves { s with fc := s.fc + 1, ref := { s.ref with lastBoundary := pos } } (frameBoundary pos origin s) := by
  unfold frameBoundary
  dsimp only
  have takeFirst (t : State) : BoundaryMoves t (lineBoundary (takeController (applyTake origin t))) :=
    ((applyTake_boundaryMoves _ _).trans (takeController_boundaryMoves _)).trans (lineBoundary_moves _).boundaryMoves
  have linesFirst (t : State) : BoundaryMoves t (takeController (applyTake origin (lineBoundary t))) :=
    (lineBoundary_moves _).boundaryMoves.trans ((applyTake_boundaryMoves _ _).trans (takeController_boundaryMoves _))
  have counted (t : State) : BoundaryMoves t { t with freeSeed := t.freeSeed + 1 } := rfl
  split
  · split
    · exact (counted _).trans (takeFirst _)
    · exact (counted _).trans (linesFirst _)
  · exact takeFirst _

/-- R2: the reference record behind a boundary at a tick position. -/
def Ref.boundedAt (r : Ref) (pos : TickPos) : Ref := { r with lastBoundary := pos }

@[simp] theorem Ref.boundedAt_state (r : Ref) (pos : TickPos) : (r.boundedAt pos).state = r.state := rfl

/-- R2: of the reference record a frame boundary moves the last boundary alone. -/
theorem frameBoundary_ref (pos : TickPos) (origin : Kw) (s : State) :
    (frameBoundary pos origin s).ref = s.ref.boundedAt pos :=
  (frameBoundary_boundaryMoves pos origin s).ref

/-! ### The reference record at a pulse (R8 to R10) -/

theorem absDiff_eq_natAbs (p q : Nat) : absDiff p q = ((p : Int) - q).natAbs := by
  unfold absDiff
  omega

/-- R5: the tolerance in the form the statements give it. -/
theorem withinTolerance_iff (p q : Nat) : withinTolerance p q = true ↔ ((p : Int) - q).natAbs * 1000 ≤ q := by
  rw [withinTolerance, decide_eq_true_iff, absDiff_eq_natAbs]

theorem withinTolerance_eq_false_iff (p q : Nat) :
    withinTolerance p q = false ↔ q < ((p : Int) - q).natAbs * 1000 := by
  rw [← Bool.not_eq_true, withinTolerance_iff, not_le]

section pulse
variable (r : Ref) (pos q : TickPos)

/-- R8: a pulse that finds FREE or LOST starts an acquisition. -/
theorem Ref.pulse_idle (h : r.state = .free ∨ r.state = .lost) :
    r.pulse pos = { r with
      state := .acquiring, lastPulse := some pos, count := 0, runStart := some pos, nextGen := none,
      expiry := some (later pos (3 * r.tracked / 2)) } := by
  obtain h | h := h <;> simp only [Ref.pulse, h] <;> rfl

/-- R9: a period beyond the tolerance starts the count of consistent periods anew. -/
theorem Ref.pulse_acquiring_far (h : r.state = .acquiring) (hq : r.lastPulse = some q)
    (far : withinTolerance (ticksFrom q pos) r.rate.period = false) :
    r.pulse pos = { r with
      lastPulse := some pos, count := 0, runStart := some pos, expiry := some (later pos (3 * r.tracked / 2)) } := by
  simp [Ref.pulse, Ref.count8, Ref.watchFrom, missingInterval, h, hq, far]

/-- R9: a period within the tolerance is counted, before the eighth. -/
theorem Ref.pulse_acquiring_counts (h : r.state = .acquiring) (hq : r.lastPulse = some q)
    (near : withinTolerance (ticksFrom q pos) r.rate.period = true) (few : r.count + 1 < 8) :
    r.pulse pos = { r with
      lastPulse := some pos, count := r.count + 1, expiry := some (later pos (3 * r.tracked / 2)) } := by
  simp [Ref.pulse, Ref.count8, Ref.watchFrom, missingInterval, h, hq, near, Nat.not_le.mpr few]

/-- R9: the eighth consistent period locks the machine to an eighth of the run. -/
theorem Ref.pulse_acquiring_locks (u : TickPos) (h : r.state = .acquiring) (hq : r.lastPulse = some q)
    (near : withinTolerance (ticksFrom q pos) r.rate.period = true) (enough : 8 ≤ r.count + 1)
    (hu : r.runStart = some u) :
    r.pulse pos = { r with
      state := .locked, lastPulse := some pos, count := 0, tracked := ticksFrom u pos / 8,
      expiry := some (later pos (3 * (ticksFrom u pos / 8) / 2)) } := by
  simp [Ref.pulse, Ref.count8, Ref.watchFrom, missingInterval, h, hq, near, enough, hu]

/-- R10: a period within the tolerance moves the tracked period an eighth of the way. -/
theorem Ref.pulse_locked_near (h : r.state = .locked) (hq : r.lastPulse = some q)
    (near : withinTolerance (ticksFrom q pos) r.tracked = true) :
    r.pulse pos = { r with
      lastPulse := some pos, tracked := eighthStep r.tracked (ticksFrom q pos),
      expiry := some (later pos (3 * eighthStep r.tracked (ticksFrom q pos) / 2)) } := by
  simp [Ref.pulse, Ref.track, Ref.watchFrom, missingInterval, h, hq, near]

/-- R10: a period beyond the tolerance takes a locked machine back to ACQUIRING. -/
theorem Ref.pulse_locked_far (h : r.state = .locked) (hq : r.lastPulse = some q)
    (far : withinTolerance (ticksFrom q pos) r.tracked = false) :
    r.pulse pos = { r with
      state := .acquiring, lastPulse := some pos, count := 0, runStart := some pos,
      expiry := some (later pos (3 * r.tracked / 2)) } := by
  simp [Ref.pulse, Ref.track, Ref.watchFrom, missingInterval, h, hq, far]

end pulse

/-! ### FREF_PULSE -/

theorem State.updRef_congr {s : State} {f g : Ref → Ref} (h : f s.ref = g s.ref) : s.updRef f = s.updRef g :=
  congrArg (fun r => { s with ref := r }) h

/-- R7: the state behind the boundary test of a pulse. -/
def pulseBoundary (ph : BitVec 8) (s : State) : State :=
  if s.ref.tracked < 2 * ticksFrom s.ref.lastBoundary (tickAt s.hc ph) then
    frameBoundary (tickAt s.hc ph) .PULSE { s with phase := ph }
  else { s with phase := ph }

section frefPulse
variable (ph : BitVec 8) (s : State)

/-- R7: the boundary test of a pulse moves the last boundary of the reference record and nothing else of it. -/
theorem pulseBoundary_ref : ∃ x, (pulseBoundary ph s).ref = s.ref.boundedAt x := by
  unfold pulseBoundary
  split
  · exact ⟨_, frameBoundary_ref _ _ _⟩
  · exact ⟨s.ref.lastBoundary, rfl⟩

variable {ph s}

/-- R7: FREF_PULSE is the boundary test, the record's move `f`, and a REF notice on entry to LOCKED. -/
theorem frefPulse_of_pulse {f : Ref → Ref}
    (moved : ∀ x, (s.ref.boundedAt x).pulse (tickAt s.hc ph) = f (s.ref.boundedAt x)) :
    frefPulse ph s =
      if (pulseBoundary ph s).ref.state ≠ .locked ∧ ((pulseBoundary ph s).updRef f).ref.state = .locked then
        refNotice ((pulseBoundary ph s).updRef f)
      else (pulseBoundary ph s).updRef f := by
  have tested : pulseBoundary ph s =
      if ({ s with phase := ph } : State).ref.pulseBounds (tickAt s.hc ph) then
        frameBoundary (tickAt s.hc ph) .PULSE { s with phase := ph }
      else { s with phase := ph } := by
    simp [Ref.pulseBounds, pulseBoundary]
  have updated : (pulseBoundary ph s).updRef f = (pulseBoundary ph s).updRef fun r => r.pulse (tickAt s.hc ph) := by
    obtain ⟨x, hx⟩ := pulseBoundary_ref ph s
    exact State.updRef_congr (by rw [hx, moved])
  rw [updated, tested]
  rfl

/-- A pulse that does not enter LOCKED moves the record behind its boundary test, and sends no notice of its own. -/
theorem exec_frefPulse_quiet (powered : s.powered = true) {f : Ref → Ref}
    (moved : ∀ x, (s.ref.boundedAt x).pulse (tickAt s.hc ph) = f (s.ref.boundedAt x))
    (quiet : s.ref.state = .locked ∨ ∀ x, (f (s.ref.boundedAt x)).state ≠ .locked) :
    exec (.frefPulse ph) s = .next ((pulseBoundary ph s).updRef f) := by
  have noEntry :
      ¬ ((pulseBoundary ph s).ref.state ≠ .locked ∧ ((pulseBoundary ph s).updRef f).ref.state = .locked) := by
    obtain ⟨x, hx⟩ := pulseBoundary_ref ph s
    rw [State.updRef_ref, hx]
    rintro ⟨before, after⟩
    exact quiet.elim before fun stays => stays _ after
  calc exec (.frefPulse ph) s = .next (frefPulse ph s) := event_powered _ s powered
    _ = .next ((pulseBoundary ph s).updRef f) := by
      rw [frefPulse_of_pulse moved, if_neg noEntry]

/-- R9, R14: a pulse that enters LOCKED moves the record behind its boundary test and sends a REF notice. -/
theorem exec_frefPulse_locks (powered : s.powered = true) {f : Ref → Ref}
    (moved : ∀ x, (s.ref.boundedAt x).pulse (tickAt s.hc ph) = f (s.ref.boundedAt x))
    (before : s.ref.state ≠ .locked) (after : ∀ x, (f (s.ref.boundedAt x)).state = .locked) :
    exec (.frefPulse ph) s = .next (refNotice ((pulseBoundary ph s).updRef f)) := by
  have entry : (pulseBoundary ph s).ref.state ≠ .locked ∧ ((pulseBoundary ph s).updRef f).ref.state = .locked := by
    obtain ⟨x, hx⟩ := pulseBoundary_ref ph s
    rw [State.updRef_ref, hx]
    exact ⟨before, after _⟩
  calc exec (.frefPulse ph) s = .next (frefPulse ph s) := event_powered _ s powered
    _ = .next (refNotice ((pulseBoundary ph s).updRef f)) := by
      rw [frefPulse_of_pulse moved, if_pos entry]

end frefPulse

/-- Settles O10: each clause is the record's move at a pulse (`Ref.pulse_idle` to `Ref.pulse_locked_far`), which does not read
the last boundary, the one field of the record that the boundary test moves. -/
theorem pulseMovesReference : Obligations.PulseMovesReference := by
  intro s ph powered
  refine ⟨fun idle => ?free,
    fun q acquiring hq => ⟨fun far => ?far, fun near few => ?counts, fun u near enough hu => ?locks⟩,
    fun q locked hq => ⟨fun near => ?tracks, fun far => ?loses⟩⟩
  case free =>
    exact exec_frefPulse_quiet powered (fun x => Ref.pulse_idle (s.ref.boundedAt x) _ idle) (.inr fun _ => nofun)
  case far =>
    exact exec_frefPulse_quiet powered
      (fun x => Ref.pulse_acquiring_far (s.ref.boundedAt x) _ q acquiring hq
        ((withinTolerance_eq_false_iff _ _).mpr far))
      (.inr fun _ => by simp [acquiring])
  case counts =>
    exact exec_frefPulse_quiet powered
      (fun x => Ref.pulse_acquiring_counts (s.ref.boundedAt x) _ q acquiring hq
        ((withinTolerance_iff _ _).mpr near) few)
      (.inr fun _ => by simp [acquiring])
  case locks =>
    exact ⟨_, exec_frefPulse_locks powered
      (f := fun r => { r with
        state := .locked, lastPulse := some (tickAt s.hc ph), count := 0,
        tracked := ticksFrom u (tickAt s.hc ph) / 8,
        expiry := some (later (tickAt s.hc ph) (3 * (ticksFrom u (tickAt s.hc ph) / 8) / 2)) })
      (fun x => Ref.pulse_acquiring_locks (s.ref.boundedAt x) _ q u acquiring hq
        ((withinTolerance_iff _ _).mpr near) enough hu)
      (by simp [acquiring]) (fun _ => rfl), rfl⟩
  case tracks =>
    exact exec_frefPulse_quiet powered
      (fun x => Ref.pulse_locked_near (s.ref.boundedAt x) _ q locked hq ((withinTolerance_iff _ _).mpr near)) (.inl locked)
  case loses =>
    exact exec_frefPulse_quiet powered
      (fun x => Ref.pulse_locked_far (s.ref.boundedAt x) _ q locked hq
        ((withinTolerance_eq_false_iff _ _).mpr far)) (.inl locked)

end Sys2Proof.Machine
end

section
/-! SUPPORT and O46. The conditions of an alarm point, what a contribution and an action leave alone, and the move of a point
by an evaluation. -/

namespace Sys2Proof.Machine

/-! ### Conditions (R140) -/

theorem PointCfg.raises_iff (c : PointCfg) (v : Option MeasVal) :
    c.raises v = true ↔
      v = some (.truth true) ∨
        ∃ k, v = some (.num k) ∧ if c.sense = .above then c.threshold < k else k < c.threshold := by
  match v with
  | none => simp [PointCfg.raises]
  | some (.truth b) => simp [PointCfg.raises]
  | some (.num k) => cases hs : c.sense <;> simp [PointCfg.raises, hs]

theorem PointCfg.clears_iff (c : PointCfg) (v : Option MeasVal) :
    c.clears v = true ↔
      v = some (.truth false) ∨
        ∃ k, v = some (.num k) ∧
          if c.sense = .above then k ≤ c.threshold - c.hyst else c.threshold + c.hyst ≤ k := by
  match v with
  | none => simp [PointCfg.clears]
  | some (.truth b) => simp [PointCfg.clears]
  | some (.num k) => cases hs : c.sense <;> simp [PointCfg.clears, hs]

/-! ### Contributions (R150, R163) -/

theorem mem_allPoints (n : PointId) : n ∈ allPoints := by revert n; decide

theorem getElem_updGpo (s : State) (k l : LineId) (f : Gpo → Gpo) :
    (s.updGpo k f).gpos[l] = if k = l then f s.gpos[l] else s.gpos[l] := by
  split
  case isTrue h => subst h; exact State.updGpo_self s k f
  case isFalse h => exact State.updGpo_ne s h f

theorem Gpo.mem_contribute (g : Gpo) (n : PointId) (up : Bool) (x : PointId) :
    x ∈ (g.contribute n up).contrib ↔ if x = n then up = true else x ∈ g.contrib := by
  unfold Gpo.contribute
  rw [List.mem_filter, and_iff_right (mem_allPoints x)]
  split
  · rfl
  · exact decide_eq_true_iff

/-- A line named twice in a GPO set takes the contribution once. -/
theorem Gpo.contribute_contribute (g : Gpo) (n : PointId) (up : Bool) :
    (g.contribute n up).contribute n up = g.contribute n up := by
  have same (x : PointId) : (if x = n then up else decide (x ∈ (g.contribute n up).contrib)) =
      if x = n then up else decide (x ∈ g.contrib) := by
    split
    case isTrue => rfl
    case isFalse other => simp [Gpo.mem_contribute, other]
  exact congrArg (fun p => ({ g with contrib := allPoints.filter p } : Gpo)) (funext same)

@[simp] theorem contribute_points (n : PointId) (lines : List LineId) (up : Bool) (s : State) :
    (contribute n lines up s).points = s.points := by
  unfold contribute
  refine foldl_keeps (fun t => t.points = s.points) _ (fun t l h => ?_) lines s rfl
  exact (State.updGpo_points t l _).trans h

theorem contribute_gpos (n : PointId) (lines : List LineId) (up : Bool) (s : State) (l : LineId) :
    (contribute n lines up s).gpos[l] = if l ∈ lines then s.gpos[l].contribute n up else s.gpos[l] := by
  induction lines generalizing s with
  | nil => simp [contribute]
  | cons k ks ih =>
    have first : contribute n (k :: ks) up s = contribute n ks up (s.updGpo k fun g => g.contribute n up) := rfl
    rw [first, ih, getElem_updGpo]
    by_cases here : k = l
    · simp [here, Gpo.contribute_contribute]
    · simp [here, Ne.symm here]

theorem contribute_moves (n : PointId) (lines : List LineId) (up : Bool) (s : State) :
    contributionMoved s (contribute n lines up s) n lines up := by
  intro l
  rw [contribute_gpos]
  by_cases h : l ∈ lines
  · rw [if_pos h]
    exact ⟨rfl, rfl, fun x => by simp [Gpo.mem_contribute, h]⟩
  · rw [if_neg h]
    exact ⟨rfl, rfl, fun x => by simp [h]⟩

/-- A moved contribution is a matter of the output lines alone. -/
theorem contributionMoved_congr {s s' u u' : State} (hs : s'.gpos = s.gpos) (hu : u'.gpos = u.gpos)
    {n : PointId} {lines : List LineId} {up : Bool} (h : contributionMoved s u n lines up) :
    contributionMoved s' u' n lines up := by
  unfold contributionMoved at h ⊢
  rw [hs, hu]
  exact h

/-! ### Notices and actions (R147 to R149, R151) -/

@[simp] theorem almNoticeIf_points (n : PointId) (reason : Kw) (b : Bool) (s : State) :
    (almNoticeIf n reason b s).points = s.points := by
  unfold almNoticeIf
  split <;> rfl

@[simp] theorem almNoticeIf_gpos (n : PointId) (reason : Kw) (b : Bool) (s : State) :
    (almNoticeIf n reason b s).gpos = s.gpos := by
  unfold almNoticeIf
  split <;> rfl

/-- R47: a source change of a RUNNING programme that is not refused writes its controller record alone. -/
theorem requestSource_running {p : ProgId} {sel : SrcSel} {cause : Cause} {s t : State}
    (running : s.pgms[p].ctl.state = .running) (h : requestSource p sel cause s = some t) :
    ∃ f, t = s.updCtl p f := by
  unfold requestSource at h
  rw [running] at h
  split at h
  · exact nomatch h
  · exact ⟨_, (Option.some.inj h).symm⟩

/-- R147: a CHANGEOVER action does nothing, is counted as skipped, or writes a controller record. -/
theorem runChangeover_cases (n : PointId) (s : State) :
    runChangeover n s = s ∨ runChangeover n s = skipAction n s ∨ ∃ p f, runChangeover n s = s.updCtl p f := by
  unfold runChangeover
  split
  next p _ =>
    split
    next => exact .inr (.inl rfl)
    next running =>
      cases taken : requestSource p .backup (.alarm n) s with
      | none => exact .inr (.inl rfl)
      | some t =>
        obtain ⟨f, rfl⟩ := requestSource_running (not_not.mp running) taken
        exact .inr (.inr ⟨p, f, rfl⟩)
  next => exact .inl rfl

/-- R147 to R149: all that the action of a point can do. -/
theorem runAction_cases (n : PointId) (s : State) :
    runAction n s = s ∨ runAction n s = skipAction n s ∨ (∃ p f, runAction n s = s.updCtl p f) ∨
      ∃ c f, runAction n s = s.updSlot c f := by
  unfold runAction
  split
  · obtain same | skipped | wrote := runChangeover_cases n s
    · exact .inl same
    · exact .inr (.inl skipped)
    · exact .inr (.inr (.inl wrote))
  · exact .inr (.inr (.inr ⟨_, _, rfl⟩))
  · exact .inl rfl
  · exact .inl rfl

@[simp] theorem runAction_gpos (n : PointId) (s : State) : (runAction n s).gpos = s.gpos := by
  obtain h | h | ⟨p, f, h⟩ | ⟨c, f, h⟩ := runAction_cases n s <;> rw [h] <;> rfl

/-- Of its own record an action moves the skip count alone. -/
theorem runAction_point (n : PointId) (s : State) :
    ∃ k, (runAction n s).points[n] = { s.points[n] with skips := k } := by
  obtain h | h | ⟨p, f, h⟩ | ⟨c, f, h⟩ := runAction_cases n s <;> rw [h]
  · exact ⟨_, rfl⟩
  · exact ⟨_, State.updPoint_self s n _⟩
  · exact ⟨_, rfl⟩
  · exact ⟨_, rfl⟩

/-! ### The point's own record -/

@[simp] theorem getElem_updPoint_val (s : State) (n : PointId) (f : Point → Point) :
    (s.updPoint n f).points[n.val] = f s.points[n.val] := State.updPoint_self s n f

/-! ### Entry to ACTIVE and the return to CLEAR (R142, R143) -/

/-- R142: the point's own record behind an entry to ACTIVE. -/
theorem enterActive_point (n : PointId) (s : State) :
    ∃ k, (enterActive n s).points[n] = { s.points[n].raiseTo .active with skips := k } := by
  obtain ⟨k, h⟩ := runAction_point n
    (almNoticeIf n .RAISED false (contributePoint n true (s.updPoint n fun x => x.raiseTo .active)))
  exact ⟨k, by simpa [enterActive, contributePoint] using h⟩

theorem enterActive_moves (n : PointId) (s : State) :
    contributionMoved s (enterActive n s) n s.points[n].cfg.gpo true := by
  have moved := contribute_moves n s.points[n].cfg.gpo true (s.updPoint n fun x => x.raiseTo .active)
  exact contributionMoved_congr rfl (by simp [enterActive, contributePoint, Point.raiseTo]) moved

theorem returnToClear_point (n : PointId) (s : State) :
    (returnToClear n s).points[n] = { s.points[n] with state := .clear, run := 0 } := by
  simp [returnToClear, contributePoint]

theorem returnToClear_moves (n : PointId) (s : State) :
    contributionMoved s (returnToClear n s) n s.points[n].cfg.gpo false := by
  have moved := contribute_moves n s.points[n].cfg.gpo false
    (s.updPoint n fun x => { x with state := .clear, run := 0 })
  exact contributionMoved_congr rfl (by simp [returnToClear, contributePoint]) moved

/-! ### The move of a point (R141, R143) -/

theorem State.updPoint_eq_self {s : State} {n : PointId} {f : Point → Point} (h : f s.points[n] = s.points[n]) :
    s.updPoint n f = s := by
  unfold State.updPoint
  rw [h]
  simp

/-- R138: an evaluation leaves a point that is out of service or forced. -/
theorem movePoint_suspended (n : PointId) (v : Option MeasVal) (s : State)
    (h : s.points[n].state = .off ∨ s.points[n].state = .forced) : movePoint n v s = s := by
  obtain h | h := h <;> simp only [movePoint, h]

/-- R141: an evaluation of a point that is not raised. -/
theorem movePoint_watching (n : PointId) (v : Option MeasVal) (s : State)
    (h : s.points[n].state = .clear ∨ s.points[n].state = .raising) :
    movePoint n v s =
      if s.points[n].cfg.raises v then
        raiseStep n (if s.points[n].state = .raising then s.points[n].run + 1 else 1) s
      else setPoint n .clear 0 s := by
  obtain h | h := h <;> simp only [movePoint, h, reduceCtorEq, if_true, if_false]

/-- R143: an evaluation of a point that is raised. -/
theorem movePoint_raised (n : PointId) (v : Option MeasVal) (s : State)
    (h : s.points[n].state = .active ∨ s.points[n].state = .clearing) :
    movePoint n v s =
      if s.points[n].cfg.clears v then
        clearStep n (if s.points[n].state = .clearing then s.points[n].run + 1 else 1) s
      else s.updPoint n fun x => { x with state := .active, run := if x.state = .clearing then 0 else x.run } := by
  obtain h | h := h
  · have stays : (s.updPoint n fun x =>
        { x with state := .active, run := if x.state = .clearing then 0 else x.run }) = s :=
      State.updPoint_eq_self (by rw [h, if_neg (by decide), ← h])
    rw [stays]
    simp only [movePoint, h, reduceCtorEq, if_false]
  · simp only [movePoint, h, if_true, setPoint, State.updPoint]

theorem raiseStep_cfg (n : PointId) (run : Nat) (s : State) :
    (raiseStep n run s).points[n].cfg = s.points[n].cfg := by
  unfold raiseStep
  split
  · obtain ⟨k, h⟩ := enterActive_point n s
    rw [h]
    rfl
  · simp [setPoint]

theorem clearStep_cfg (n : PointId) (run : Nat) (s : State) :
    (clearStep n run s).points[n].cfg = s.points[n].cfg := by
  unfold clearStep
  split
  · rw [returnToClear_point]
  · simp [setPoint]

/-- No evaluation writes a point's settings. -/
theorem movePoint_cfg (n : PointId) (v : Option MeasVal) (s : State) :
    (movePoint n v s).points[n].cfg = s.points[n].cfg := by
  have watching (h : s.points[n].state = .clear ∨ s.points[n].state = .raising) :
      (movePoint n v s).points[n].cfg = s.points[n].cfg := by
    rw [movePoint_watching n v s h]
    split
    · exact raiseStep_cfg _ _ _
    · simp [setPoint]
  have raised (h : s.points[n].state = .active ∨ s.points[n].state = .clearing) :
      (movePoint n v s).points[n].cfg = s.points[n].cfg := by
    rw [movePoint_raised n v s h]
    split
    · exact clearStep_cfg _ _ _
    · simp
  cases h : s.points[n].state with
  | off => rw [movePoint_suspended n v s (.inl h)]
  | forced => rw [movePoint_suspended n v s (.inr h)]
  | clear => exact watching (.inl h)
  | raising => exact watching (.inr h)
  | active => exact raised (.inl h)
  | clearing => exact raised (.inr h)

/-- Settles O46: a point that is not raised moves by `raiseStep` and one that is raised by `clearStep`, where the run reaches
its figure or falls short of it. -/
theorem evaluationMovesPoint : Obligations.EvaluationMovesPoint := by
  intro s n v x y lo hi raises clears up down
  have raises_iff : raises ↔ x.cfg.raises v = true := (x.cfg.raises_iff v).symm
  have clears_iff : clears ↔ x.cfg.clears v = true := (x.cfg.clears_iff v).symm
  rw [raises_iff, clears_iff]
  refine ⟨movePoint_cfg n v s, movePoint_suspended n v s, fun watching => ?_, fun raised => ?_⟩
  · have moved := movePoint_watching n v s watching
    refine ⟨fun no => ?fallsBack, fun yes short => ?counts, fun yes enough => ?enters⟩
    case fallsBack => exact moved.trans (if_neg no)
    case counts => exact (moved.trans (if_pos yes)).trans (if_neg (Nat.not_le.mpr short))
    case enters =>
      have entered : movePoint n v s = enterActive n s := (moved.trans (if_pos yes)).trans (if_pos enough)
      obtain ⟨k, record⟩ := enterActive_point n s
      have hy : y = { x.raiseTo .active with skips := k } := (congrArg (·.points[n]) entered).trans record
      rw [hy, entered]
      exact ⟨rfl, rfl, rfl, rfl, enterActive_moves n s⟩
  · have moved := movePoint_raised n v s raised
    refine ⟨fun no => ?stays, fun yes short => ?counts, fun yes enough => ?returns⟩
    case stays => exact moved.trans (if_neg no)
    case counts => exact (moved.trans (if_pos yes)).trans (if_neg (Nat.not_le.mpr short))
    case returns =>
      have returned : movePoint n v s = returnToClear n s := (moved.trans (if_pos yes)).trans (if_pos enough)
      have hy : y = { x with state := .clear, run := 0 } :=
        (congrArg (·.points[n]) returned).trans (returnToClear_point n s)
      rw [returned]
      exact ⟨hy, returnToClear_moves n s⟩

end Sys2Proof.Machine
end

section
/-! SUPPORT. What an operation leaves alone that moves neither the time, the queue, the presets, the profile nor the takes: the
relation `Steady`, from which every bound of `Safety` follows, for each operation of the blocks. -/

namespace Sys2Proof.Machine

/-! ### The relation -/

/-- R105, R108: `gainHeld` of one programme's records against a table of presets. -/
def Pgm.held (table : Vector Preset 16) (g : Pgm) : Prop :=
  g.ctl.state ≠ .undefined →
    1 ≤ g.cor.stack.length ∧ g.cor.stack.length ≤ 4 ∧ -(table[g.cor.top]).cut ≤ g.cor.g ∧
      g.cor.g ≤ (table[g.cor.top]).boost ∧ -(table[g.cor.top]).cut ≤ g.cor.gStar ∧ g.cor.gStar ≤ (table[g.cor.top]).boost

theorem GainHeld_iff (s : State) :
    GainHeld s ↔ tableInRange s.presets ∧ s.profile.inRange ∧ ∀ p : ProgId, s.pgms[p].held s.presets := Iff.rfl

/-- `t` follows from `s` by operations that leave the time, the queue, the presets, the profile and the takes, keep the size of the
owner map, send nothing but notices, and keep every gain in range. -/
structure Steady (s t : State) : Prop where
  hc : t.hc = s.hc
  fc : t.fc = s.fc
  pending : t.pending = s.pending
  presets : t.presets = s.presets
  profile : t.profile = s.profile
  takes : t.takes = s.takes
  pages : t.owners.length = s.owners.length
  records : s.gpiFifo.length ≤ 32 → t.gpiFifo.length ≤ 32
  link : s.link.Noticed t.link
  gains : tableInRange s.presets → ∀ p : ProgId, s.pgms[p].held s.presets → t.pgms[p].held s.presets

namespace Steady

theorem refl (s : State) : Steady s s := ⟨rfl, rfl, rfl, rfl, rfl, rfl, rfl, id, .refl _, fun _ _ => id⟩

theorem trans {s t u : State} (h : Steady s t) (k : Steady t u) : Steady s u where
  hc := k.hc.trans h.hc
  fc := k.fc.trans h.fc
  pending := k.pending.trans h.pending
  presets := k.presets.trans h.presets
  profile := k.profile.trans h.profile
  takes := k.takes.trans h.takes
  pages := k.pages.trans h.pages
  records := fun a => k.records (h.records a)
  link := h.link.trans k.link
  gains := fun table p held => h.presets ▸ k.gains (h.presets ▸ table) p (h.presets ▸ h.gains table p held)

theorem foldl {α : Type} {f : State → α → State} (h : ∀ s x, Steady s (f s x)) (xs : List α) (s : State) :
    Steady s (xs.foldl f s) :=
  foldl_keeps (Steady s) f (fun t x ht => ht.trans (h t x)) xs s (.refl s)

/-- What a step moves of the items that no bound speaks of. -/
theorem of_frame {s t : State}
    (h : t = { s with
      powered := t.powered, cause := t.cause, phase := t.phase, closeDue := t.closeDue, gpiDue := t.gpiDue
      boundaryHere := t.boundaryHere, ref := t.ref, ports := t.ports, lanes := t.lanes, probe := t.probe
      reports := t.reports, scanDue := t.scanDue, scanNo := t.scanNo, points := t.points, gpis := t.gpis
      gpiFirst := t.gpiFirst, gpiOverflow := t.gpiOverflow, watch := t.watch, gpos := t.gpos, slots := t.slots
      nextId := t.nextId, pins := t.pins, freeSeed := t.freeSeed }) : Steady s t := by
  rw [h]; exact ⟨rfl, rfl, rfl, rfl, rfl, rfl, rfl, id, .refl _, fun _ _ => id⟩

/-! ### Updates of one record -/

section updates
variable (s : State)

theorem updPort (i : PortId) (f : Port → Port) : Steady s (s.updPort i f) := .of_frame rfl
theorem updLane (k : LaneId) (f : Lane → Lane) : Steady s (s.updLane k f) := .of_frame rfl
theorem updPoint (n : PointId) (f : Point → Point) : Steady s (s.updPoint n f) := .of_frame rfl
theorem updGpi (l : LineId) (f : Gpi → Gpi) : Steady s (s.updGpi l f) := .of_frame rfl
theorem updGpo (l : LineId) (f : Gpo → Gpo) : Steady s (s.updGpo l f) := .of_frame rfl
theorem updSlot (c : SlotId) (f : Slot → Slot) : Steady s (s.updSlot c f) := .of_frame rfl
theorem setReport (p : ProgId) (r : Option Report) : Steady s (s.setReport p r) := .of_frame rfl
theorem updRef (f : Ref → Ref) : Steady s (s.updRef f) := .of_frame rfl
theorem updProbe (f : Probe → Probe) : Steady s (s.updProbe f) := .of_frame rfl
theorem updWatch (f : Watch → Watch) : Steady s (s.updWatch f) := .of_frame rfl
theorem updPins (f : Pins → Pins) : Steady s (s.updPins f) := .of_frame rfl
theorem atInstant (x : TickPos) : Steady s (s.atInstant x) := by
  unfold State.atInstant
  split
  · exact .of_frame rfl
  · exact .refl s

theorem setOwners (o : List PageOwner) (h : o.length = s.owners.length) : Steady s (s.setOwners o) :=
  ⟨rfl, rfl, rfl, rfl, rfl, rfl, h, id, .refl _, fun _ _ => id⟩

theorem notify (k : NoticeKind) (fields : List Fld) : Steady s (s.notify k fields) :=
  ⟨rfl, rfl, rfl, rfl, rfl, rfl, rfl, id, s.link.notice_noticed _, fun _ _ => id⟩

theorem updPgm (p : ProgId) (f : Pgm → Pgm)
    (h : tableInRange s.presets → s.pgms[p].held s.presets → (f s.pgms[p]).held s.presets) : Steady s (s.updPgm p f) := by
  refine ⟨rfl, rfl, rfl, rfl, rfl, rfl, rfl, id, .refl _, fun table q held => ?_⟩
  rw [getElem_updPgm]
  split
  case isTrue e => subst e; exact h table held
  case isFalse => exact held

/-- A programme that keeps its stack and its gains, and becomes defined by no update. -/
theorem updPgm_same (p : ProgId) (f : Pgm → Pgm)
    (defined : (f s.pgms[p]).ctl.state ≠ .undefined → s.pgms[p].ctl.state ≠ .undefined)
    (stack : (f s.pgms[p]).cor.stack = s.pgms[p].cor.stack) (g : (f s.pgms[p]).cor.g = s.pgms[p].cor.g)
    (gStar : (f s.pgms[p]).cor.gStar = s.pgms[p].cor.gStar) : Steady s (s.updPgm p f) :=
  updPgm s p f fun _ held d => by
    have top : (f s.pgms[p]).cor.top = s.pgms[p].cor.top := by unfold Correction.top; rw [stack]
    simp only [stack, g, gStar, top]
    exact held (defined d)

theorem updDly (p : ProgId) (f : Delay → Delay) : Steady s (s.updDly p f) := updPgm_same s p _ id rfl rfl rfl

theorem updMtr (p : ProgId) (f : Meter → Meter) : Steady s (s.updMtr p f) := updPgm_same s p _ id rfl rfl rfl

theorem updCtl (p : ProgId) (f : Ctl → Ctl) (h : (f s.pgms[p].ctl).state = s.pgms[p].ctl.state) : Steady s (s.updCtl p f) :=
  updPgm_same s p _ (fun d => h ▸ d) rfl rfl rfl

theorem updCor_same (p : ProgId) (f : Correction → Correction) (stack : (f s.pgms[p].cor).stack = s.pgms[p].cor.stack)
    (g : (f s.pgms[p].cor).g = s.pgms[p].cor.g) (gStar : (f s.pgms[p].cor).gStar = s.pgms[p].cor.gStar) :
    Steady s (s.updCor p f) := updPgm_same s p _ id stack g gStar

end updates

/-- What the delay lines move. -/
theorem of_dlyMoves {s t : State} (h : DlyMoves s t) : Steady s t where
  hc := by rw [h.rest]
  fc := by rw [h.rest]
  pending := by rw [h.rest]
  presets := by rw [h.rest]
  profile := by rw [h.rest]
  takes := by rw [h.rest]
  pages := h.pages
  records := by rw [h.rest]; exact id
  link := h.link
  gains := fun _ p held => by rw [h.pgm p]; exact held

end Steady

/-! ### Lanes and ports (02) -/

theorem formLane_steady (s : State) (k : LaneId) : Steady s (formLane s k) := .updLane _ _ _

theorem formLanesOf_steady (ks : List LaneId) (s : State) : Steady s (formLanesOf ks s) := .foldl formLane_steady _ _

/-- A fold over all lanes that touches some of them. -/
theorem foldl_lanes_steady (c : State → LaneId → Bool) (g : State → LaneId → State) (h : ∀ s k, Steady s (g s k)) (s : State) :
    Steady s (allLanes.foldl (fun s k => if c s k then g s k else s) s) := by
  refine .foldl (fun t k => ?_) _ _
  split
  · exact h t k
  · exact .refl t

theorem formLanesOn_steady (i : PortId) (s : State) : Steady s (formLanesOn i s) :=
  foldl_lanes_steady (fun s k => s.lanes[k].onPort i) formLane formLane_steady s

theorem settleLanesOn_steady (i : PortId) (s : State) : Steady s (settleLanesOn i s) :=
  foldl_lanes_steady (fun s k => s.lanes[k].onPort i) _ (fun s k => .updLane s k _) s

theorem recompute_steady (p : ProgId) (s : State) : Steady s (recompute p s) := by
  unfold recompute
  dsimp only
  split
  · exact .refl s
  · exact (Steady.updCtl _ _ _ rfl).trans (.of_dlyMoves (handOver_moves _ _))

theorem recomputeAll_steady (s : State) : Steady s (recomputeAll s) := .foldl (fun s p => recompute_steady p s) _ _

theorem relatencyOn_steady (i : PortId) (s : State) : Steady s (relatencyOn i s) :=
  (foldl_lanes_steady (fun s k => s.lanes[k].onPort i) _ (fun s k => .updLane s k _) s).trans (recomputeAll_steady _)

theorem switchLane_steady (sel : SrcSel) (s : State) (k : LaneId) : Steady s (switchLane sel s k) := .updLane _ _ _

theorem switchLaneNow_steady (sel : SrcSel) (s : State) (k : LaneId) : Steady s (switchLaneNow sel s k) :=
  (switchLane_steady sel s k).trans (.updLane _ _ _)

theorem setLaneSource_steady (sel : SrcSel) (s : State) (k : LaneId) : Steady s (setLaneSource sel s k) := by
  unfold setLaneSource
  split
  · exact .refl s
  · exact (formLane_steady s k).trans (switchLane_steady sel _ k)

theorem lanesToMain_steady (ks : List LaneId) (s : State) : Steady s (lanesToMain ks s) :=
  .foldl (setLaneSource_steady .main) _ _

theorem portNotice_steady (i : PortId) (b : Bool) (s : State) : Steady s (portNotice i b s) := .notify _ _ _

theorem frameEdge_steady (i : PortId) (ph : BitVec 8) (w : Frame) (s : State) : Steady s (frameEdge i ph w s) := by
  unfold frameEdge
  dsimp only
  have edge : Steady s (({ s with phase := ph } : State).updPort i fun p => p.edge ({ s with phase := ph } : State).now w) :=
    .of_frame rfl
  split
  · exact edge.trans (portNotice_steady _ _ _)
  · exact edge

theorem signalExpiry_steady (i : PortId) (s : State) : Steady s (signalExpiry i s) := by
  unfold signalExpiry
  split
  · exact .refl s
  · split
    · exact ((((Steady.atInstant s _).trans (formLanesOn_steady i _)).trans (.updPort _ i _)).trans
        (settleLanesOn_steady i _)).trans (portNotice_steady _ _ _)
    · exact .refl s

theorem windowClose_steady (i : PortId) (s : State) : Steady s (windowClose i s) := by
  unfold windowClose
  dsimp only
  split
  · exact .refl s
  split
  · exact .refl s
  next rm p _ =>
    have judged := (formLanesOn_steady i s).trans (.updPort (formLanesOn i s) i fun _ => s.ports[i].closeWindow p rm)
    have relatency : Steady s
        (if (s.ports[i].closeWindow p rm).cls = s.ports[i].cls then
          (formLanesOn i s).updPort i fun _ => s.ports[i].closeWindow p rm
        else relatencyOn i ((formLanesOn i s).updPort i fun _ => s.ports[i].closeWindow p rm)) := by
      split
      · exact judged
      · exact judged.trans (relatencyOn_steady i _)
    have settled := relatency.trans (settleLanesOn_steady i _)
    split
    · exact settled
    · exact settled.trans (portNotice_steady _ _ _)

theorem laneFadeInEnd_steady (k : LaneId) (s : State) : Steady s (laneFadeInEnd k s) := by
  unfold laneFadeInEnd
  dsimp only
  split
  · exact .updLane _ _ _
  · exact .refl s

theorem reevaluate_steady (k : LaneId) (s : State) : Steady s (reevaluate k s) :=
  (Steady.updLane _ _ _).trans (recomputeAll_steady _)

/-! ### Meter and gain (05, 06) -/

theorem integrationReset_steady (p : ProgId) (s : State) : Steady s (integrationReset p s) := by
  unfold integrationReset
  split
  · exact .updMtr _ _ _
  · exact .refl s

@[simp] theorem Correction.setGain_stack (c : Correction) (g : Int) : (c.setGain g).stack = c.stack := by
  unfold Correction.setGain; split <;> rfl

@[simp] theorem Correction.setGain_g (c : Correction) (g : Int) : (c.setGain g).g = g := by
  unfold Correction.setGain; split <;> simp_all

@[simp] theorem Correction.setGain_gStar (c : Correction) (g : Int) : (c.setGain g).gStar = c.gStar := by
  unfold Correction.setGain; split <;> rfl

@[simp] theorem Correction.follow_stack (c : Correction) (st : PgmState) (m : Mode) : (c.follow st m).stack = c.stack := by
  unfold Correction.follow; split <;> rfl

@[simp] theorem Correction.follow_g (c : Correction) (st : PgmState) (m : Mode) : (c.follow st m).g = c.g := by
  unfold Correction.follow; split <;> rfl

@[simp] theorem Correction.follow_gStar (c : Correction) (st : PgmState) (m : Mode) : (c.follow st m).gStar = c.gStar := by
  unfold Correction.follow; split <;> rfl

/-- R102, R111: a gain clamped into the range of a preset lies in it. -/
theorem Preset.clampGain_range (r : Preset) (g : Int) (h : r.gainRange) : -r.cut ≤ r.clampGain g ∧ r.clampGain g ≤ r.boost := by
  obtain ⟨boost, -, cut, -⟩ := h
  exact clampInt_range _ _ _ (by omega)

/-- R105, R108: a stack of one to four presets and a preset change hold a programme's gain. -/
theorem updCor_presetChange_held (p : ProgId) (f : Correction → Correction) (s : State) (table : tableInRange s.presets)
    (stack : 1 ≤ (f s.pgms[p].cor).stack.length ∧ (f s.pgms[p].cor).stack.length ≤ 4) :
    (presetChange p (s.updCor p f)).pgms[p].held s.presets := by
  intro _
  have star := Preset.clampGain_range _ (f s.pgms[p].cor).gStar (table (f s.pgms[p].cor).top)
  have applied := Preset.clampGain_range _ (f s.pgms[p].cor).g (table (f s.pgms[p].cor).top)
  simp only [presetChange, State.updCor_self, State.presetOf, State.updCor_presets, Correction.clampTo, Correction.top,
    Correction.follow_stack, Correction.follow_g, Correction.follow_gStar, Correction.setGain_stack, Correction.setGain_g]
  exact ⟨stack.1, stack.2, applied.1, applied.2, star.1, star.2⟩

/-- A change of a stack that keeps its depth from one to four, and the preset change behind it. -/
theorem updCor_presetChange_steady (p : ProgId) (f : Correction → Correction) (s : State)
    (h : 1 ≤ s.pgms[p].cor.stack.length → s.pgms[p].cor.stack.length ≤ 4 →
      1 ≤ (f s.pgms[p].cor).stack.length ∧ (f s.pgms[p].cor).stack.length ≤ 4) :
    Steady s (presetChange p (s.updCor p f)) := by
  refine ⟨rfl, rfl, rfl, rfl, rfl, rfl, rfl, id, .refl _, fun table q held => ?_⟩
  by_cases e : p = q
  · subst e
    intro defined
    have before : s.pgms[p].ctl.state ≠ .undefined := by
      simpa only [presetChange, State.updCor_self] using defined
    obtain ⟨low, high, -⟩ := held before
    exact updCor_presetChange_held p f s table (h low high) defined
  · have other : (presetChange p (s.updCor p f)).pgms[q] = s.pgms[q] :=
      (State.updCor_ne _ e _).trans (State.updCor_ne _ e _)
    rw [other]; exact held

theorem recallOn_steady (p : ProgId) (n : PresetId) (s : State) : Steady s (recallOn p n s) :=
  updCor_presetChange_steady p _ s fun _ _ => by
    simp only [Correction.recall, List.length_append, List.length_dropLast, List.length_singleton]; omega

theorem pushOn_steady (p : ProgId) (n : PresetId) (s : State) : Steady s (pushOn p n s) :=
  updCor_presetChange_steady p _ s fun _ _ => by
    unfold Correction.push
    split <;> simp only [List.length_append, List.length_drop, List.length_singleton] <;> omega

theorem popOn_steady (p : ProgId) (s : State) (h : 2 ≤ s.pgms[p].cor.stack.length) : Steady s (popOn p s) :=
  updCor_presetChange_steady p _ s fun _ _ => by
    simp only [Correction.pop, List.length_dropLast]; omega

theorem popOrCount_steady (p : ProgId) (s : State) : Steady s (popOrCount p s).1 := by
  unfold popOrCount
  split
  next deep => exact popOn_steady p s deep
  · exact .updCor_same s p (fun c => { c with underflow := countUp Config.count16 c.underflow }) rfl rfl rfl

/-- R112: a step of the applied gain toward a gain in range stays in range. -/
theorem stepGain_range (r : Preset) (gStar g : Int) (h : r.gainRange) (star : -r.cut ≤ gStar ∧ gStar ≤ r.boost)
    (now : -r.cut ≤ g ∧ g ≤ r.boost) : -r.cut ≤ stepGain r gStar g ∧ stepGain r gStar g ≤ r.boost := by
  obtain ⟨-, -, -, -, attack, -, release, -⟩ := h
  unfold stepGain
  split
  · omega
  · split <;> omega

/-- R109: a report keeps the stack, and with a preset of the table both gains in its range. -/
theorem Correction.atReport_held (c : Correction) (rep : Report) (r : Preset) (m : Mode) (frozen byLine : Bool)
    (h : r.gainRange) (now : -r.cut ≤ c.g ∧ c.g ≤ r.boost) (star : -r.cut ≤ c.gStar ∧ c.gStar ≤ r.boost) :
    (c.atReport rep r m frozen byLine).stack = c.stack ∧
      (-r.cut ≤ (c.atReport rep r m frozen byLine).g ∧ (c.atReport rep r m frozen byLine).g ≤ r.boost) ∧
      (-r.cut ≤ (c.atReport rep r m frozen byLine).gStar ∧ (c.atReport rep r m frozen byLine).gStar ≤ r.boost) := by
  unfold Correction.atReport
  split
  · dsimp only
    split
    · have desired : -r.cut ≤ desiredGain rep r ∧ desiredGain rep r ≤ r.boost := Preset.clampGain_range r _ h
      simp only [Correction.restartRamp, Correction.setGain_stack, Correction.setGain_g, Correction.setGain_gStar]
      exact ⟨trivial, stepGain_range r _ _ h desired now, desired⟩
    · exact ⟨rfl, now, star⟩
  · exact ⟨rfl, now, star⟩

theorem closePgm_steady (c : Close) (s : State) (p : ProgId) : Steady s (closePgm c s p) := by
  unfold closePgm
  dsimp only
  split
  · refine .trans (.updPgm _ _ _ fun table held defined => ?_) (.setReport _ _ _)
    obtain ⟨low, high, g1, g2, star1, star2⟩ := held defined
    obtain ⟨stack, now, star⟩ := s.pgms[p].cor.atReport_held
      (s.pgms[p].mtr.close s.pgms[p].ctl.layout c.number c.isShort (s.anyLaneInvalid p)
        (decide (s.pgms[p].ctl.mode = .bypass))).2 (s.presetOf p) s.pgms[p].ctl.mode (s.frozen p) (s.heldByLine p)
      (table _) ⟨g1, g2⟩ ⟨star1, star2⟩
    simp only [Correction.top, stack]
    exact ⟨low, high, now.1, now.2, star.1, star.2⟩
  · exact .setReport _ _ _

theorem subBlockClose_steady (s : State) : Steady s (subBlockClose s) := by
  unfold subBlockClose
  have taken (t : State) : Steady t { t with closeDue := false, scanDue := true } := .of_frame rfl
  split
  · exact (Steady.foldl (closePgm_steady s.closeNow) allProgs s).trans (taken _)
  · exact .refl s

theorem multiplierRampEnd_steady (p : ProgId) (s : State) : Steady s (multiplierRampEnd p s) := by
  unfold multiplierRampEnd
  dsimp only
  split
  · exact .updCor_same s p _ rfl rfl rfl
  · exact .refl s

/-! ### Probe (07) -/

theorem probeNotice_steady (s : State) : Steady s (probeNotice s) := .notify _ _ _

theorem writeTrim_steady (p : ProgId) (o : Int) (s : State) : Steady s (writeTrim p o s).1 :=
  .of_dlyMoves (writeTrim_moves p o s)

theorem writeVideo_steady (p : ProgId) (v : Int) (s : State) : Steady s (writeVideo p v s).1 :=
  .of_dlyMoves (writeVideo_moves p v s)

theorem probeTrim_steady (m : Int) (s : State) : Steady s (probeTrim m s) := by
  unfold probeTrim
  split
  · exact (writeTrim_steady _ _ s).trans (.updProbe _ _)
  · exact .refl s

theorem probeOutcome_steady (s : State) : Steady s (probeOutcome s) := by
  unfold probeOutcome
  split
  · exact (Steady.updProbe _ _).trans (probeNotice_steady _)
  · dsimp only
    split
    · exact ((Steady.updProbe _ _).trans (probeTrim_steady _ _)).trans (probeNotice_steady _)
    · exact (Steady.updProbe _ _).trans (probeNotice_steady _)

theorem probeMarker_steady (l : LineId) (t : HouseCount) (s : State) : Steady s (probeMarker l t s) := by
  unfold probeMarker
  dsimp only
  split
  · split
    · exact (Steady.updProbe _ _).trans (probeOutcome_steady _)
    · split
      · exact (Steady.updProbe _ _).trans (probeOutcome_steady _)
      · exact .updProbe _ _
  · exact .refl s

theorem cancelProbe_steady (p : ProgId) (cause : CancelCause) (s : State) : Steady s (cancelProbe p cause s) := by
  unfold cancelProbe
  split
  · exact (Steady.updProbe _ _).trans (probeNotice_steady _)
  · exact .refl s

theorem envelopeWindow_steady (s : State) : Steady s (envelopeWindow s) := by
  unfold envelopeWindow
  split
  · exact .updProbe _ _
  · exact .refl s

theorem probeSearchComplete_steady (s : State) : Steady s (probeSearchComplete s) := by
  unfold probeSearchComplete
  split
  · exact (Steady.updProbe _ _).trans (probeOutcome_steady _)
  · exact .refl s

theorem probeTimeout_steady (s : State) : Steady s (probeTimeout s) := by
  unfold probeTimeout
  split
  · split
    · exact (Steady.updProbe _ _).trans (probeNotice_steady _)
    · exact .refl s
  · exact .refl s

/-! ### Capture slots (10) -/

theorem trigger_steady (c : SlotId) (src : TrigSource) (s : State) : Steady s (trigger c src s) := .updSlot _ _ _

theorem capNotice_steady (c : SlotId) (k : Kw) (s : State) : Steady s (capNotice c k s) := .notify _ _ _

theorem captureComplete_steady (c : SlotId) (s : State) : Steady s (captureComplete c s) := by
  unfold captureComplete
  dsimp only
  split
  · exact (Steady.updSlot _ _ _).trans (capNotice_steady _ _ _)
  · exact .refl s

theorem arbiter_steady (s : State) : Steady s (arbiter s) := .of_dlyMoves (arbiter_moves s)

theorem freeSlot_steady (c : SlotId) (s : State) : Steady s (freeSlot c s) :=
  ((Steady.updSlot _ _ _).trans (.setOwners _ _ (releaseAll_length _ _))).trans (arbiter_steady _)

theorem parkSlots_steady (p : ProgId) (s : State) : Steady s (parkSlots p s) := by
  refine .foldl (fun t c => ?_) _ _
  split
  · exact (freeSlot_steady c t).trans (capNotice_steady _ _ _)
  · exact .refl t

/-! ### Programmes (03) -/

theorem latchOutput_steady (p : ProgId) (s : State) : Steady s (latchOutput p s) :=
  (formLanesOf_steady _ s).trans
    (.foldl (f := fun s (kw : LaneId × Sample) => s.updLane kw.1 fun l => { l with outLatch := some (l.outLatch.getD kw.2) })
      (fun t kw => .updLane t kw.1 _) _ _)

theorem latchOutput_pgms (p : ProgId) (s : State) : (latchOutput p s).pgms = s.pgms := by
  have formed : (formLanesOf s.pgms[p].ctl.lanes s).pgms = s.pgms :=
    foldl_keeps (fun t : State => t.pgms = s.pgms) formLane (fun _ _ h => h) _ _ rfl
  have latched (ws : List (LaneId × Sample)) (t : State) : (ws.foldl (fun s kw => s.updLane kw.1 fun l =>
      { l with outLatch := some (l.outLatch.getD kw.2) }) t).pgms = t.pgms := by
    induction ws generalizing t with
    | nil => rfl
    | cons w ws ih => exact ih _
  exact (latched _ _).trans formed

theorem srcNotice_steady (p : ProgId) (cause : Cause) (s : State) : Steady s (srcNotice p cause s) := .notify _ _ _

theorem computeLatency_steady (p : ProgId) (s : State) : Steady s (computeLatency p s) :=
  (Steady.updCtl _ _ _ rfl).trans (.of_dlyMoves (formLength_moves _ _))

/-- R118: the gains of a definition, 0, lie in the range of every preset of a table. -/
theorem Correction.start_held (ctl : Ctl) (d : Delay) (m : Meter) (base : PresetId) (t : Vector Preset 16) (h : tableInRange t) :
    Pgm.held t { ctl := ctl, dly := d, mtr := m, cor := Correction.start [base] } := by
  intro _
  obtain ⟨boost, -, cut, -⟩ := h base
  exact ⟨le_refl 1, Nat.le_of_lt_succ (by simp [Correction.start]), Int.neg_nonpos_of_nonneg cut, boost, Int.neg_nonpos_of_nonneg cut, boost⟩

/-- R118: gains of 0 lie in the range of every preset. -/
theorem Correction.atRest_held (ctl : Ctl) (d : Delay) (m : Meter) (c : Correction) (t : Vector Preset 16) (h : tableInRange t)
    (low : 1 ≤ c.stack.length) (high : c.stack.length ≤ 4) :
    Pgm.held t { ctl := ctl, dly := d, mtr := m, cor := c.atRest } := by
  intro _
  obtain ⟨boost, -, cut, -⟩ := h c.top
  exact ⟨low, high, Int.neg_nonpos_of_nonneg cut, boost, Int.neg_nonpos_of_nonneg cut, boost⟩

theorem definePgm_steady (p : ProgId) (l : Layout) (ks : List LaneId) (base : PresetId) (s : State) :
    Steady s (definePgm p l ks base s) :=
  (((lanesToMain_steady ks s).trans (lanesToMain_steady _ _)).trans
    (.updPgm _ _ _ fun table _ => Correction.start_held _ _ _ base _ table)).trans (computeLatency_steady _ _)

theorem runProgramme_steady (p : ProgId) (s t : State) (parked : s.pgms[p].ctl.state ≠ .undefined)
    (h : runProgramme p s = some t) : Steady s t := by
  unfold runProgramme at h
  extract_lets s1 c need grant s2 at h
  have formed : Steady s s1 := .of_dlyMoves (formLength_moves p s)
  have line : Steady s1 s2 := by
    refine (Steady.setOwners s1 _ (attachLanes_length _ _ _ _)).trans (.updPgm _ _ _ fun table held => ?_)
    have defined : s1.pgms[p].ctl.state ≠ .undefined := by rwa [(formLength_moves p s).ctl p]
    obtain ⟨low, high, -⟩ := held defined
    exact Correction.atRest_held _ _ _ _ _ table low high
  split at h
  · exact nomatch h
  · obtain rfl := Option.some.inj h
    split
    · exact (formed.trans line).trans (.of_dlyMoves (pagesNotice_moves p false s2))
    · exact formed.trans line

theorem returnPages_steady (p : ProgId) (short : Bool) (s : State) : Steady s (returnPages p short s) := by
  have returned : Steady s (s.setOwners (releasePgm p s.owners)) := .setOwners _ _ (releasePgm_length _ _)
  unfold returnPages
  refine .trans ?_ (arbiter_steady _)
  split
  · exact returned.trans (.of_dlyMoves (pagesNotice_moves _ _ _))
  · exact returned

theorem parkPgm_steady (p : ProgId) (s : State) (running : s.pgms[p].ctl.state ≠ .undefined) : Steady s (parkPgm p s) := by
  unfold parkPgm
  extract_lets s1 s2 s3
  have silent : Steady s s1 := by
    refine (latchOutput_steady p s).trans (.updPgm_same _ _ _ (fun _ => ?_) rfl rfl rfl)
    rwa [latchOutput_pgms]
  have returned : Steady s s2 := silent.trans (returnPages_steady p s.pgms[p].dly.short s1)
  have rested (t : State) : Steady t (t.updPgm p fun g => { g with mtr := Meter.start g.ctl.lanes.length, cor := g.cor.atRest }) := by
    refine .updPgm _ _ _ fun table held defined => ?_
    obtain ⟨low, high, -⟩ := held defined
    exact Correction.atRest_held _ _ _ _ _ table low high defined
  exact (((returned.trans (rested s2)).trans (cancelProbe_steady p .park s3)).trans (parkSlots_steady p _)).trans (.setReport _ _ _)

end Sys2Proof.Machine
end

section
/-! SUPPORT. `Steady` for the changes of source and mode, the contact lines, the alarm points, the entries of a take and the
requests. -/

namespace Sys2Proof.Machine

/-! ### Changes of source and mode (R47 to R52) -/

@[simp] theorem Ctl.atBoundary_state (c : Ctl) : c.atBoundary.state = c.state := by
  unfold Ctl.atBoundary; dsimp only; split <;> rfl

@[simp] theorem Ctl.beginLate_state (c : Ctl) : c.beginLate.state = c.state := by
  unfold Ctl.beginLate; dsimp only; split <;> exact Ctl.atBoundary_state _

@[simp] theorem Ctl.settle_state (c : Ctl) (here : Bool) : (c.settle here).state = c.state := by
  unfold Ctl.settle
  split
  · exact Ctl.beginLate_state _
  · split
    · split
      · exact Ctl.beginLate_state _
      · rfl
    · rfl

theorem controllerBoundary_steady (s : State) : Steady s (controllerBoundary s) := by
  refine .foldl (fun t p => ?_) _ _
  split
  · exact .updCtl _ _ _ (Ctl.atBoundary_state _)
  · exact .refl t

theorem applyParked_steady (p : ProgId) (sel : SrcSel) (cause : Cause) (s : State) : Steady s (applyParked p sel cause s) := by
  unfold applyParked
  split
  · exact .refl s
  · exact (((Steady.foldl (setLaneSource_steady sel) _ s).trans (.updCtl _ p _ rfl)).trans (recompute_steady p _)).trans
      (srcNotice_steady _ _ _)

theorem requestSource_steady (p : ProgId) (sel : SrcSel) (cause : Cause) (s t : State)
    (h : requestSource p sel cause s = some t) : Steady s t := by
  unfold requestSource at h
  split at h
  · exact nomatch h
  · split at h <;> obtain rfl := Option.some.inj h
    · exact .updCtl _ _ _ (Ctl.settle_state _ _)
    · exact applyParked_steady _ _ _ _

theorem requestMode_steady (p : ProgId) (m : Mode) (s t : State) (h : requestMode p m s = some t) : Steady s t := by
  unfold requestMode at h
  split at h
  · exact nomatch h
  · obtain rfl := Option.some.inj h
    exact .updCtl _ _ _ rfl
  · obtain rfl := Option.some.inj h
    exact .updCtl _ _ _ (Ctl.settle_state _ _)

theorem switchMode_steady (p : ProgId) (m : Mode) (s : State) : Steady s (switchMode p m s) := by
  refine .updPgm_same _ _ _ id ?_ ?_ ?_ <;> cases m <;> rfl

theorem switchSource_steady (p : ProgId) (sel : SrcSel) (cause : Cause) (s : State) :
    Steady s (switchSource p sel cause s) :=
  ((((Steady.foldl (switchLaneNow_steady sel) _ s).trans (.updCtl _ p _ rfl)).trans (recompute_steady p _)).trans
    (cancelProbe_steady _ _ _)).trans (srcNotice_steady _ _ _)

theorem applyChange_steady (p : ProgId) (x : Change) (s : State) : Steady s (applyChange p x s) := by
  obtain ⟨source, mode⟩ := x
  have moded : Steady s (match mode with | some m => switchMode p m s | none => s) := by
    cases mode with
    | none => exact .refl s
    | some m => exact switchMode_steady p m s
  cases source with
  | none => exact moded
  | some y => exact moded.trans (switchSource_steady p y.1 y.2 _)

theorem changeoverSwitch_steady (p : ProgId) (s : State) : Steady s (changeoverSwitch p s) := by
  unfold changeoverSwitch
  dsimp only
  split
  · exact (applyChange_steady p _ s).trans (.updCtl _ _ _ rfl)
  · exact .refl s

theorem outputFadeUpEnd_steady (p : ProgId) (s : State) : Steady s (outputFadeUpEnd p s) := by
  unfold outputFadeUpEnd
  dsimp only
  split
  · exact .updCtl _ _ _ rfl
  · exact .refl s

theorem revertCheck_steady (s : State) (p : ProgId) : Steady s (revertCheck s p) := by
  unfold revertCheck
  dsimp only
  split
  · exact .updCtl _ _ _ rfl
  · split
    · split
      · have counted : Steady s (s.updCtl p fun c => { c with revertCount := 0 }) := .updCtl _ _ _ rfl
        cases h : requestSource p .main .revert (s.updCtl p fun c => { c with revertCount := 0 }) with
        | none => exact counted
        | some t => exact counted.trans (requestSource_steady _ _ _ _ _ h)
      · exact .updCtl _ _ _ rfl
    · exact .updCtl _ _ _ rfl

/-! ### Contact lines (09) -/

theorem pushGpi_steady (c : GpiChange) (s : State) : Steady s (pushGpi c s) := by
  unfold pushGpi
  split
  next room =>
    refine ⟨rfl, rfl, rfl, rfl, rfl, rfl, rfl, fun _ => ?_, .refl _, fun _ _ => id⟩
    have : s.gpiFifo.length < 32 := room
    simp only [List.length_append, List.length_singleton]; omega
  · exact .of_frame rfl

theorem onDefined_steady (ps : List ProgId) (f : ProgId → State → State) (h : ∀ p s, Steady s (f p s)) (s : State) :
    Steady s (onDefined ps f s) := by
  refine .foldl (fun t p => ?_) _ _
  split
  · exact .refl t
  · exact h p t

theorem runFunction_steady (c : GpiChange) (s : State) : Steady s (runFunction c s) := by
  unfold runFunction
  split
  · exact onDefined_steady _ _ (fun p t => pushOn_steady p _ t) s
  · split
    · exact .refl s
    · exact onDefined_steady _ _ popOrCount_steady s
  · exact onDefined_steady _ _ integrationReset_steady s
  · exact trigger_steady _ _ s
  · exact .refl s

theorem deliver_steady (s : State) (c : GpiChange) : Steady s (deliver s c) := by
  unfold deliver
  dsimp only
  have run := (pushGpi_steady c s).trans (runFunction_steady c _)
  split
  · exact run.trans (probeMarker_steady _ _ _)
  · exact run

theorem formMatch_steady (s : State) : Steady s (formMatch s) := .updWatch _ _

theorem evaluateWatch_steady (changed : List LineId) (s : State) : Steady s (evaluateWatch changed s) := by
  unfold evaluateWatch
  extract_lets fires s1
  have formed : Steady s s1 := by
    unfold s1
    split
    · exact .refl s
    · exact formMatch_steady s
  split
  · exact (formed.trans (.updWatch _ _)).trans (.foldl (fun t c => trigger_steady c .watch t) _ _)
  · exact formed

theorem firstInstant_steady (levels : Levels) (s : State) : Steady s (firstInstant levels s) := by
  have first : Steady s { s with gpiFirst := false } := .of_frame rfl
  exact (first.trans (.foldl (fun t l => .updGpi t l _) _ _)).trans (formMatch_steady _)

theorem laterInstant_steady (levels : Levels) (s : State) : Steady s (laterInstant levels s) := by
  unfold laterInstant
  extract_lets changes s1 s2
  have stepped : Steady s s1 := .foldl (fun t l => .updGpi t l _) _ _
  have delivered : Steady s s2 := stepped.trans (.foldl deliver_steady changes s1)
  split
  · exact delivered
  · exact delivered.trans (evaluateWatch_steady _ s2)

theorem gpiSampleInstant_steady (levels : Levels) (s : State) : Steady s (gpiSampleInstant levels s) := by
  unfold gpiSampleInstant
  dsimp only
  split
  · have taken : Steady s { s with gpiDue := false, pins := { s.pins with gpi := levels } } := .of_frame rfl
    split
    · exact taken.trans (firstInstant_steady _ _)
    · exact taken.trans (laterInstant_steady _ _)
  · exact .refl s

theorem contribute_steady (n : PointId) (lines : List LineId) (up : Bool) (s : State) : Steady s (contribute n lines up s) :=
  .foldl (fun t l => .updGpo t l _) _ _

theorem writeManual_steady (l : LineId) (b : Bool) (s : State) : Steady s (writeManual l b s) := .updGpo _ _ _

/-! ### Alarm points (08) -/

theorem almNotice_steady (n : PointId) (k : Kw) (b : Bool) (s : State) : Steady s (almNotice n k b s) := .notify _ _ _

theorem almNoticeIf_steady (n : PointId) (k : Kw) (b : Bool) (s : State) : Steady s (almNoticeIf n k b s) := by
  unfold almNoticeIf
  split
  · exact almNotice_steady _ _ _ _
  · exact .refl s

theorem runAction_steady (n : PointId) (s : State) : Steady s (runAction n s) := by
  have skipped : Steady s (skipAction n s) := .updPoint _ _ _
  unfold runAction
  split
  · unfold runChangeover
    split
    next p _ =>
      split
      · exact skipped
      · cases h : requestSource p .backup (.alarm n) s with
        | none => exact skipped
        | some t => exact requestSource_steady _ _ _ _ _ h
    · exact .refl s
  · exact trigger_steady _ _ s
  · exact .refl s
  · exact .refl s

theorem enterActive_steady (n : PointId) (s : State) : Steady s (enterActive n s) :=
  (((Steady.updPoint _ _ _).trans (contribute_steady _ _ _ _)).trans (almNoticeIf_steady _ _ _ _)).trans (runAction_steady _ _)

theorem returnToClear_steady (n : PointId) (s : State) : Steady s (returnToClear n s) :=
  ((Steady.updPoint _ _ _).trans (contribute_steady _ _ _ _)).trans (almNoticeIf_steady _ _ _ _)

theorem raiseStep_steady (n : PointId) (run : Nat) (s : State) : Steady s (raiseStep n run s) := by
  unfold raiseStep
  split
  · exact enterActive_steady n s
  · exact .updPoint _ _ _

theorem clearStep_steady (n : PointId) (run : Nat) (s : State) : Steady s (clearStep n run s) := by
  unfold clearStep
  split
  · exact returnToClear_steady n s
  · exact .updPoint _ _ _

theorem movePoint_steady (n : PointId) (v : Option MeasVal) (s : State) : Steady s (movePoint n v s) := by
  unfold movePoint
  dsimp only
  split
  case h_1 | h_2 =>
    split
    · exact raiseStep_steady _ _ s
    · exact .updPoint _ _ _
  case h_3 =>
    split
    · exact clearStep_steady _ _ s
    · exact .refl s
  case h_4 =>
    split
    · exact clearStep_steady _ _ s
    · exact .updPoint _ _ _
  case h_5 | h_6 => exact .refl s

theorem visitPoint_steady (s : State) (n : PointId) : Steady s (visitPoint s n) := by
  unfold visitPoint
  dsimp only
  split
  · exact (Steady.updPoint _ _ _).trans (movePoint_steady _ _ _)
  · exact .refl s

theorem alarmScan_steady (s : State) : Steady s (alarmScan s) := by
  unfold alarmScan
  dsimp only
  split
  · have begun : Steady s { s with scanNo := s.scanNo + 1, scanDue := false } := .of_frame rfl
    have spent (t : State) : Steady t { t with reports := Vector.replicate 8 none } := .of_frame rfl
    exact ((begun.trans (.foldl visitPoint_steady allPoints _)).trans (.foldl revertCheck_steady allProgs _)).trans (spent _)
  · exact .refl s

theorem writePoint_steady (n : PointId) (c : PointCfg) (s : State) : Steady s (writePoint n c s) := by
  unfold writePoint
  split
  · exact ((contribute_steady _ _ _ s).trans (.updPoint _ _ _)).trans (almNotice_steady _ _ _ _)
  · exact .updPoint _ _ _

/-! ### The entries of a take (11) -/

theorem onPgm_steady (p : ProgId) (s : State) (f : State → State × Outcome) (h : Steady s (f s).1) :
    Steady s (onPgm p s f).1 := by
  unfold onPgm
  split
  · exact .refl s
  · exact h

theorem orState_steady (s : State) (r : Option State) (h : ∀ t, r = some t → Steady s t) : Steady s (orState s r).1 := by
  cases r with
  | none => exact .refl s
  | some t => exact h t rfl

theorem applyAction_steady (a : TakeAction) (s : State) : Steady s (applyAction a s).1 := by
  match a with
  | .video p v => exact onPgm_steady p s _ (writeVideo_steady p v s)
  | .trim p o => exact onPgm_steady p s _ (writeTrim_steady p o s)
  | .recall p n => exact onPgm_steady p s _ (recallOn_steady p n s)
  | .push p n => exact onPgm_steady p s _ (pushOn_steady p n s)
  | .pop p => exact onPgm_steady p s _ (popOrCount_steady p s)
  | .reset p => exact onPgm_steady p s _ (integrationReset_steady p s)
  | .source p sel => exact orState_steady s _ (requestSource_steady p sel .take s)
  | .mode p m => exact orState_steady s _ (requestMode_steady p m s)
  | .gpo l b => exact writeManual_steady l b s

theorem applyEntries_steady (es : List TakeEntry) (acc : List Fld) (s : State) : Steady s (applyEntries es acc s).2 := by
  induction es generalizing acc s with
  | nil => exact .refl s
  | cons e es ih => exact (applyAction_steady e.action s).trans (ih _ _)

theorem lineBoundary_steady (s : State) : Steady s (lineBoundary s) := .of_dlyMoves (lineBoundary_moves s)

theorem takeController_steady (s : State) : Steady s (takeController s) := by
  have here (t : State) : Steady t { t with boundaryHere := true } := .of_frame rfl
  exact (controllerBoundary_steady s).trans (here _)

end Sys2Proof.Machine
end

section
/-! SUPPORT. `Steady` for the requests: what a request leaves is `Steady`, or one of the few states that `Kept` speaks of. -/

namespace Sys2Proof.Machine

/-! ### Arguments -/

/-- What holds of the state a request found and of every state its block leaves holds of the state behind its arguments. -/
theorem withIndex_state {k : NameKind} {n : Nat} {t : Tok} {s : State} {f : Fin n → Answer} (P : State → Prop) (h0 : P s)
    (h : ∀ i, P (f i).2) : P (withIndex k n t s f).2 := by
  unfold withIndex
  split
  · exact h0
  · split
    · exact h0
    · exact h _

theorem withArgs_state {α : Type} {bad : Bool} {v : Option α} {s : State} {f : α → Answer} (P : State → Prop) (h0 : P s)
    (h : ∀ x, v = some x → P (f x).2) : P (withArgs bad v s f).2 := by
  unfold withArgs
  split
  · exact h0
  · split
    · exact h0
    · exact h _ rfl

theorem withId_state {t : Tok} {s : State} {f : TakeEntry → Answer} (P : State → Prop) (h0 : P s) (h : ∀ e, P (f e).2) :
    P (withId t s f).2 := by
  unfold withId
  split
  · exact h0
  · split
    · exact h0
    · split
      · exact h0
      · exact h _

/-! ### Answers -/

@[simp] theorem okReply_fst (fields : List Fld) (s : State) : (okReply fields s).1 = .ok fields [] := rfl
@[simp] theorem okReply_snd (fields : List Fld) (s : State) : (okReply fields s).2 = s := rfl
@[simp] theorem refuse_fst (e : ErrCode) (s : State) : (refuse e s).1 = .er e := rfl
@[simp] theorem refuse_snd (e : ErrCode) (s : State) : (refuse e s).2 = s := rfl
@[simp] theorem okClamped_fst (fields : List Fld) (b : Bool) (s : State) :
    (okClamped fields b s).1 = .ok fields (flagIf b .clamped) := rfl
@[simp] theorem okClamped_snd (fields : List Fld) (b : Bool) (s : State) : (okClamped fields b s).2 = s := rfl

theorem Steady.ok {s t : State} {fields : List Fld} (h : Steady s t) : Steady s (okReply fields t).2 := h

theorem Steady.okClamped {s t : State} {fields : List Fld} {b : Bool} (h : Steady s t) :
    Steady s (okClamped fields b t).2 := h

/-! ### Ports, lanes and programmes -/

section
variable (args : List Tok) (s : State)

theorem reqTimeQuery_state : (reqTimeQuery args s).2 = s := by unfold reqTimeQuery; split <;> rfl
theorem reqRefQuery_state : (reqRefQuery args s).2 = s := by unfold reqRefQuery; split <;> rfl

theorem reqPortQuery_steady : Steady s (reqPortQuery args s).2 := by
  unfold reqPortQuery
  split
  · exact .refl s
  · exact withIndex_state _ (.refl s) fun _ => .refl s
  · exact withIndex_state _ (.refl s) fun _ => .ok (.updPort _ _ _)
  · exact .refl s

theorem reqLaneSet_steady : Steady s (reqLaneSet args s).2 := by
  have set (k : LaneId) (m b : Option Source) : Steady s (setLane k m b s).2 := by
    unfold setLane
    extract_lets running
    split
    · exact .refl s
    · exact .ok (((formLane_steady s k).trans (.updLane _ k _)).trans (reevaluate_steady k _))
  have go (t m b : Tok) : Steady s
      (match readSource m, readSource b with
        | some m, some b => withIndex .L 24 t s fun k =>
          match m, b with
          | some m, some b => setLane k m b s
          | _, _ => refuse .range s
        | _, _ => refuse .synErr s).2 := by
    split
    · refine withIndex_state _ (.refl s) fun k => ?_
      split
      · exact set _ _ _
      · exact .refl s
    · exact .refl s
  unfold reqLaneSet
  dsimp only
  split
  · exact go _ _ _
  · exact go _ _ _
  · exact .refl s

theorem reqLaneQuery_steady : Steady s (reqLaneQuery args s).2 := by
  unfold reqLaneQuery
  split
  · exact .refl s
  · exact withIndex_state _ (.refl s) fun _ => .refl s
  · exact withIndex_state _ (.refl s) fun _ => .ok (.updLane _ _ _)
  · exact .refl s

theorem reqPgmDefine_steady : Steady s (reqPgmDefine args s).2 := by
  refine withArgs_state _ (.refl s) fun x _ => ?_
  dsimp only
  split
  · exact .refl s
  · split
    · exact .refl s
    · exact definePgm_steady _ _ _ _ s

theorem reqPgmDelete_steady : Steady s (reqPgmDelete args s).2 := by
  unfold reqPgmDelete
  split
  · refine withIndex_state _ (.refl s) fun p => ?_
    split
    · exact .refl s
    · exact .ok ((lanesToMain_steady _ s).trans (.updPgm _ _ _ fun _ _ defined => absurd rfl defined))
  · exact .refl s

theorem reqPgmRun_steady : Steady s (reqPgmRun args s).2 := by
  unfold reqPgmRun
  split
  · refine withIndex_state _ (.refl s) fun p => ?_
    split
    · exact .refl s
    next parked =>
      have defined : s.pgms[p].ctl.state ≠ .undefined := fun e => parked (by rw [e]; exact PgmState.noConfusion)
      split
      · exact .refl s
      next t h => exact runProgramme_steady p s t defined h
  · exact .refl s

theorem reqPgmPark_steady : Steady s (reqPgmPark args s).2 := by
  unfold reqPgmPark
  split
  · refine withIndex_state _ (.refl s) fun p => ?_
    split
    · exact .refl s
    next running => exact parkPgm_steady p s fun e => running (by rw [e]; exact PgmState.noConfusion)
  · exact .refl s

theorem reqPgmSource_steady : Steady s (reqPgmSource args s).2 := by
  unfold reqPgmSource
  split
  · split
    · exact .refl s
    · refine withIndex_state _ (.refl s) fun p => ?_
      split
      · exact .refl s
      next h => exact requestSource_steady _ _ _ _ _ h
  · exact .refl s

theorem reqPgmMode_steady : Steady s (reqPgmMode args s).2 := by
  unfold reqPgmMode
  split
  · split
    · exact .refl s
    · refine withIndex_state _ (.refl s) fun p => ?_
      split
      · exact .refl s
      next h => exact requestMode_steady _ _ _ _ h
  · exact .refl s

theorem setRevert_steady (p : ProgId) (r : Option Nat) (b : Bool) : Steady s (setRevert p r b s).2 := by
  unfold setRevert
  split
  · exact .refl s
  · exact .okClamped (.updCtl _ _ _ rfl)

theorem reqPgmRevert_steady : Steady s (reqPgmRevert args s).2 := by
  unfold reqPgmRevert
  split
  · exact withIndex_state _ (.refl s) fun p => setRevert_steady s p _ _
  · split
    · exact .refl s
    · exact withIndex_state _ (.refl s) fun p => setRevert_steady s p _ _
  · exact .refl s

theorem reqPgmQuery_steady : Steady s (reqPgmQuery args s).2 := by
  unfold reqPgmQuery
  split
  · exact .refl s
  · exact withIndex_state _ (.refl s) fun _ => .refl s
  · exact withIndex_state _ (.refl s) fun _ => .ok (.updCtl _ _ _ rfl)
  · exact .refl s

/-! ### Delay lines, meter and gain -/

theorem reqDlyVideo_steady : Steady s (reqDlyVideo args s).2 := by
  unfold reqDlyVideo
  split
  · split
    · exact .refl s
    · refine withIndex_state _ (.refl s) fun p => ?_
      split
      · exact .refl s
      · exact writeVideo_steady p _ s
  · exact .refl s

theorem reqDlyTrim_steady : Steady s (reqDlyTrim args s).2 := by
  unfold reqDlyTrim
  split
  · split
    · exact .refl s
    · refine withIndex_state _ (.refl s) fun p => ?_
      split
      · exact .refl s
      · exact writeTrim_steady p _ s
  · exact .refl s

theorem reqDlyMotion_steady : Steady s (reqDlyMotion args s).2 := by
  unfold reqDlyMotion
  split
  · refine withIndex_state _ (.refl s) fun p => ?_
    split
    · exact .refl s
    · split
      · exact .refl s
      · exact .ok (.updDly _ _ _)
  · exact .refl s

theorem reqDlyQuery_state : (reqDlyQuery args s).2 = s := by
  unfold reqDlyQuery
  split
  · rfl
  · exact withIndex_state (· = s) rfl fun _ => rfl
  · rfl

theorem reqMtrQuery_state : (reqMtrQuery args s).2 = s := by
  unfold reqMtrQuery
  split
  · exact withIndex_state (· = s) rfl fun _ => rfl
  · rfl

theorem reqMtrBinsQuery_state : (reqMtrBinsQuery args s).2 = s := by
  unfold reqMtrBinsQuery
  split
  · split
    · rfl
    · exact withIndex_state (· = s) rfl fun _ => rfl
  · rfl

theorem reqMtrReset_steady : Steady s (reqMtrReset args s).2 := by
  unfold reqMtrReset
  split
  · refine withIndex_state _ (.refl s) fun p => ?_
    split
    · exact .refl s
    · exact integrationReset_steady p s
  · exact .refl s

theorem withPreset_state {t u : Tok} {f : ProgId → PresetId → Answer} (P : State → Prop) (h0 : P s)
    (h : ∀ p n, P (f p n).2) : P (withPreset t u s f).2 := by
  unfold withPreset
  split
  · exact h0
  · refine withIndex_state P h0 fun p => ?_
    split
    · exact h0
    · split
      · exact h0
      · exact h p _

theorem reqPresetRecall_steady : Steady s (reqPresetRecall args s).2 := by
  unfold reqPresetRecall
  split
  · exact withPreset_state s _ (.refl s) fun p n => recallOn_steady p n s
  · exact .refl s

theorem reqPresetPush_steady : Steady s (reqPresetPush args s).2 := by
  unfold reqPresetPush
  split
  · exact withPreset_state s _ (.refl s) fun p n => pushOn_steady p n s
  · exact .refl s

theorem reqPresetPop_steady : Steady s (reqPresetPop args s).2 := by
  unfold reqPresetPop
  split
  · refine withIndex_state _ (.refl s) fun p => ?_
    split
    · exact .refl s
    next deep =>
      rw [not_or, not_lt] at deep
      exact popOn_steady p s deep.2
  · exact .refl s

theorem reqPresetQuery_state : (reqPresetQuery args s).2 = s := by
  unfold reqPresetQuery
  split
  · exact withIndex_state (· = s) rfl fun _ => rfl
  · rfl

theorem reqPresetPgmQuery_steady : Steady s (reqPresetPgmQuery args s).2 := by
  unfold reqPresetPgmQuery
  split
  · exact withIndex_state _ (.refl s) fun _ => .refl s
  · exact withIndex_state _ (.refl s) fun p =>
      .updCor_same s p (fun c => { c with overflow := 0, underflow := 0 }) rfl rfl rfl
  · exact .refl s

/-! ### Probe and alarm points -/

theorem reqPrbArm_steady : Steady s (reqPrbArm args s).2 := by
  refine withArgs_state _ (.refl s) fun x _ => ?_
  dsimp only
  split
  · exact .refl s
  · split
    · exact .refl s
    · exact .okClamped (.updProbe _ _)

theorem reqPrbCancel_steady : Steady s (reqPrbCancel args s).2 := by
  unfold reqPrbCancel
  split
  · split
    · split
      · exact cancelProbe_steady _ _ s
      · exact .refl s
    · exact .refl s
  · exact .refl s

theorem reqPrbQuery_state : (reqPrbQuery args s).2 = s := by unfold reqPrbQuery; split <;> rfl

theorem reqAlmSet_steady : Steady s (reqAlmSet args s).2 :=
  withArgs_state _ (.refl s) fun _ _ => writePoint_steady _ _ s

theorem reqAlmOff_steady : Steady s (reqAlmOff args s).2 := by
  unfold reqAlmOff
  split
  · refine withIndex_state _ (.refl s) fun n => ?_
    split
    · exact .refl s
    · split
      · exact ((contribute_steady _ _ _ s).trans (.updPoint _ _ _)).trans (almNotice_steady _ _ _ _)
      · exact .ok (.updPoint _ _ _)
  · exact .refl s

theorem reqAlmAck_steady : Steady s (reqAlmAck args s).2 := by
  unfold reqAlmAck
  split
  · exact .foldl (fun t n => .updPoint t n _) _ _
  · exact withIndex_state _ (.refl s) fun n => .updPoint _ _ _
  · exact .refl s

theorem reqAlmForceOn_steady : Steady s (reqAlmForceOn args s).2 := by
  unfold reqAlmForceOn
  split
  · refine withIndex_state _ (.refl s) fun n => ?_
    split
    · exact .refl s
    · exact .refl s
    · exact (((Steady.updPoint _ _ _).trans (contribute_steady _ _ _ _)).trans (almNoticeIf_steady _ _ _ _)).trans
        (runAction_steady _ _)
  · exact .refl s

theorem reqAlmForceOff_steady : Steady s (reqAlmForceOff args s).2 := by
  unfold reqAlmForceOff
  split
  · refine withIndex_state _ (.refl s) fun n => ?_
    split
    · exact ((Steady.updPoint _ _ _).trans (contribute_steady _ _ _ _)).trans (almNoticeIf_steady _ _ _ _)
    · exact .refl s
  · exact .refl s

theorem reqAlmQuery_steady : Steady s (reqAlmQuery args s).2 := by
  unfold reqAlmQuery
  split
  · exact withIndex_state _ (.refl s) fun _ => .refl s
  · exact withIndex_state _ (.refl s) fun _ => .ok (.updPoint _ _ _)
  · exact .refl s

theorem reqAlmListQuery_state : (reqAlmListQuery args s).2 = s := by unfold reqAlmListQuery; split <;> rfl

/-! ### Contact lines -/

theorem reqGpiSet_steady : Steady s (reqGpiSet args s).2 := withArgs_state _ (.refl s) fun _ _ => .okClamped (.updGpi _ _ _)

theorem reqGpiQuery_state : (reqGpiQuery args s).2 = s := by
  unfold reqGpiQuery
  split
  · rfl
  · exact withIndex_state (· = s) rfl fun _ => rfl
  · rfl

theorem reqGpiPop_steady : Steady s (reqGpiPop args s).2 := by
  unfold reqGpiPop
  split
  · split
    · exact .of_frame rfl
    next e rest h =>
      refine ⟨rfl, rfl, rfl, rfl, rfl, rfl, rfl, fun room => ?_, .refl _, fun _ _ => id⟩
      rw [h, List.length_cons] at room
      exact Nat.le_of_succ_le room
  · exact .refl s

theorem reqWatchSet_steady : Steady s (reqWatchSet args s).2 :=
  withArgs_state _ (.refl s) fun _ _ => .ok ((Steady.updWatch _ _).trans (formMatch_steady _))

theorem reqWatchQuery_steady : Steady s (reqWatchQuery args s).2 := by
  unfold reqWatchQuery
  split
  · exact .ok (.updWatch _ _)
  · exact .refl s

theorem reqGpoSet_steady : Steady s (reqGpoSet args s).2 := by
  unfold reqGpoSet
  split
  · refine withIndex_state _ (.refl s) fun l => ?_
    split
    · exact .refl s
    · exact writeManual_steady _ _ s
  · exact .refl s

theorem reqGpoPolarity_steady : Steady s (reqGpoPolarity args s).2 := by
  unfold reqGpoPolarity
  split
  · refine withIndex_state _ (.refl s) fun l => ?_
    split
    · exact .refl s
    · exact .ok (.updGpo _ _ _)
  · exact .refl s

theorem reqGpoHold_steady : Steady s (reqGpoHold args s).2 := by
  unfold reqGpoHold
  split
  · split
    · exact .refl s
    · split
      · exact .refl s
      · exact .foldl (fun t l => .updGpo t l _) _ _
  · exact .refl s

theorem reqGpoQuery_state : (reqGpoQuery args s).2 = s := by
  unfold reqGpoQuery
  split
  · rfl
  · exact withIndex_state (· = s) rfl fun _ => rfl
  · rfl

/-! ### Captures and takes -/

theorem reqCapArm_steady : Steady s (reqCapArm args s).2 := by
  refine withArgs_state _ (.refl s) fun x _ => ?_
  dsimp only
  split
  · exact .refl s
  · split
    · exact .refl s
    · exact (Steady.updSlot _ _ _).trans (.setOwners _ _ (attachPages_length _ _ _))

theorem reqCapTrig_steady : Steady s (reqCapTrig args s).2 := by
  unfold reqCapTrig
  split
  · exact withIndex_state _ (.refl s) fun c => trigger_steady _ _ s
  · exact .refl s

theorem readSlot_steady (c : SlotId) (lane : Int) (offset : Option Int) (count : Int) :
    Steady s (readSlot c lane offset count s).2 := by
  unfold readSlot
  extract_lets x lanes k n start words last
  split
  · exact .refl s
  · split
    · exact .refl s
    · exact .okClamped (.updSlot _ _ _)

theorem reqCapRead_steady : Steady s (reqCapRead args s).2 := by
  unfold reqCapRead
  split
  · split
    · exact withIndex_state _ (.refl s) fun c => readSlot_steady s c _ _ _
    · exact .refl s
  · split
    · exact withIndex_state _ (.refl s) fun c => readSlot_steady s c _ _ _
    · exact .refl s
  · exact .refl s

theorem reqCapRelease_steady : Steady s (reqCapRelease args s).2 := by
  unfold reqCapRelease
  split
  · refine withIndex_state _ (.refl s) fun c => ?_
    split
    · exact .refl s
    · refine .ok ?_
      cases s.slots[c].mode
      · exact freeSlot_steady c s
      · exact .updSlot _ _ _
  · exact .refl s

theorem reqCapFree_steady : Steady s (reqCapFree args s).2 := by
  unfold reqCapFree
  split
  · refine withIndex_state _ (.refl s) fun c => ?_
    have freed : Steady s (if s.slots[c].state = .free then s else freeSlot c s) := by
      split
      · exact .refl s
      · exact freeSlot_steady c s
    exact freed
  · exact .refl s

theorem reqCapQuery_state : (reqCapQuery args s).2 = s := by
  unfold reqCapQuery
  split
  · rfl
  · exact withIndex_state (· = s) rfl fun _ => rfl
  · rfl

theorem reqTakQuery_state : (reqTakQuery args s).2 = s := by
  unfold reqTakQuery
  split
  · rfl
  · exact withId_state (· = s) rfl fun _ => rfl
  · rfl

theorem reqTakListQuery_state : (reqTakListQuery args s).2 = s := by
  unfold reqTakListQuery
  split
  · split <;> rfl
  · rfl

end

end Sys2Proof.Machine
end

section
/-! SUPPORT. Folds over the programmes, the writing of a preset, the order of the take queue, and what a frame boundary, a house
sample and the starts leave `Steady`. -/

namespace Sys2Proof.Machine

/-! ### Folds over the programmes -/

theorem mem_allProgs (p : ProgId) : p ∈ allProgs := by revert p; decide

theorem allProgs_nodup : allProgs.Nodup := by decide

/-- A fold whose step moves the records of its own programme alone, as a function of those records, under a property that
the steps keep. -/
theorem foldl_pgms (P : State → Prop) (f : State → ProgId → State) (G : ProgId → Pgm → Pgm)
    (own : ∀ s p, P s → (f s p).pgms[p] = G p s.pgms[p]) (other : ∀ s p q, P s → p ≠ q → (f s p).pgms[q] = s.pgms[q])
    (keep : ∀ s p, P s → P (f s p)) (ps : List ProgId) (nodup : ps.Nodup) (s : State) (h : P s) (q : ProgId) :
    (ps.foldl f s).pgms[q] = if q ∈ ps then G q s.pgms[q] else s.pgms[q] := by
  induction ps generalizing s with
  | nil => rfl
  | cons p ps ih =>
    obtain ⟨fresh, nodup⟩ := List.nodup_cons.mp nodup
    rw [List.foldl_cons, ih nodup _ (keep s p h)]
    by_cases e : q = p
    · subst e
      rw [if_neg fresh, if_pos List.mem_cons_self, own s q h]
    · rw [other s p q h (Ne.symm e)]
      simp only [List.mem_cons, e, false_or]

/-- `foldl_pgms` over all programmes. -/
theorem foldl_allProgs (P : State → Prop) (f : State → ProgId → State) (G : ProgId → Pgm → Pgm)
    (own : ∀ s p, P s → (f s p).pgms[p] = G p s.pgms[p]) (other : ∀ s p q, P s → p ≠ q → (f s p).pgms[q] = s.pgms[q])
    (keep : ∀ s p, P s → P (f s p)) (s : State) (h : P s) (q : ProgId) :
    (allProgs.foldl f s).pgms[q] = G q s.pgms[q] := by
  rw [foldl_pgms P f G own other keep allProgs allProgs_nodup s h, if_pos (mem_allProgs q)]

/-! ### Writing a preset (R103, R108) -/

/-- R108: the correction record of a programme behind a change to the preset `r`. -/
def Pgm.presetChanged (r : Preset) (g : Pgm) : Pgm :=
  { g with cor := (g.cor.clampTo r).follow g.ctl.state g.ctl.mode }

/-- Reading a preset behind the writing of one. -/
theorem getElem_set_preset (v : Vector Preset 16) (n m : PresetId) (r : Preset) :
    (v.set n r)[m] = if m = n then r else v[m] := by
  simp only [Fin.getElem_fin, Vector.getElem_set]
  by_cases h : m = n
  · subst h; simp
  · rw [if_neg h, if_neg fun e => h (Fin.ext e.symm)]

theorem presetOf_of_top {s : State} {p : ProgId} {n : PresetId} (h : s.pgms[p].cor.top = n) : s.presetOf p = s.presets[n] := by
  subst h; rfl

theorem presetChange_own (p : ProgId) (s : State) :
    (presetChange p s).pgms[p] = s.pgms[p].presetChanged (s.presetOf p) := State.updCor_self _ _ _

theorem presetChange_other (p q : ProgId) (h : p ≠ q) (s : State) : (presetChange p s).pgms[q] = s.pgms[q] :=
  State.updCor_ne _ h _

/-- R103: of the programmes, those with the written preset at the top of the stack take the change. -/
theorem writePreset_pgm (n : PresetId) (r : Preset) (s : State) (q : ProgId) :
    (writePreset n r s).pgms[q] =
      if s.pgms[q].ctl.state ≠ .undefined ∧ s.pgms[q].cor.top = n then s.pgms[q].presetChanged r else s.pgms[q] := by
  refine foldl_allProgs (fun t => t.presets = s.presets.set n r)
    (fun s p => if s.pgms[p].ctl.state ≠ .undefined ∧ s.pgms[p].cor.top = n then presetChange p s else s)
    (fun _ g => if g.ctl.state ≠ .undefined ∧ g.cor.top = n then g.presetChanged r else g)
    (fun t p table => ?_) (fun t p q _ ne => ?_) (fun t p table => ?_) _ rfl q
  · split
    next h =>
      have record : t.presetOf p = r := by rw [presetOf_of_top h.2, table, getElem_set_preset, if_pos rfl]
      rw [presetChange_own, record]
    · rfl
  · split
    · exact presetChange_other p q ne t
    · rfl
  · split
    · exact table
    · exact table

/-- R103: the record, and nothing else but correction records, is written. -/
theorem writePreset_frame (n : PresetId) (r : Preset) (s : State) :
    writePreset n r s = { s with presets := s.presets.set n r, pgms := (writePreset n r s).pgms } := by
  refine foldl_keeps (fun t : State => t = { s with presets := s.presets.set n r, pgms := t.pgms }) _ (fun t p h => ?_) _ _ rfl
  split
  · rw [h]; rfl
  · exact h

theorem writePreset_presets (n : PresetId) (r : Preset) (s : State) : (writePreset n r s).presets = s.presets.set n r := by
  rw [writePreset_frame]

theorem writePreset_profile (n : PresetId) (r : Preset) (s : State) : (writePreset n r s).profile = s.profile := by
  rw [writePreset_frame]

/-- R102, R103: a field written onto a record keeps its limits. -/
theorem PresetEdit.field_gainRange (e e1 : PresetEdit) (k v : Tok) (h : e.preset.gainRange) (written : e.field k v = some e1) :
    e1.preset.gainRange := by
  obtain ⟨b0, b1, c0, c1, a0, a1, r0, r1⟩ := h
  have bounds (lo hi x : Int) (le : lo ≤ hi) := clampInt_range lo hi x le
  have rate (x : Int) : 10 ≤ cutRate x ∧ cutRate x ≤ 3000 := by
    have := bounds 10 3000 x (by decide)
    unfold cutRate
    omega
  unfold PresetEdit.field at written
  split at written
  case h_8 => exact nomatch written
  all_goals
    obtain ⟨x, -, rfl⟩ := Option.map_eq_some_iff.mp written
  case h_1 | h_2 | h_7 => exact ⟨b0, b1, c0, c1, a0, a1, r0, r1⟩
  case h_3 => exact ⟨(bounds 0 1200 x (by decide)).1, (bounds 0 1200 x (by decide)).2, c0, c1, a0, a1, r0, r1⟩
  case h_4 => exact ⟨b0, b1, (bounds 0 3000 x (by decide)).1, (bounds 0 3000 x (by decide)).2, a0, a1, r0, r1⟩
  case h_5 => exact ⟨b0, b1, c0, c1, (rate x).1, (rate x).2, r0, r1⟩
  case h_6 => exact ⟨b0, b1, c0, c1, a0, a1, (rate x).1, (rate x).2⟩

theorem PresetEdit.fields_gainRange (args : List Tok) (e e1 : PresetEdit) (h : e.preset.gainRange)
    (written : e.fields args = some e1) : e1.preset.gainRange := by
  match args with
  | [] =>
    obtain rfl := Option.some.inj written
    exact h
  | [_] => exact nomatch written
  | k :: v :: rest =>
    unfold PresetEdit.fields at written
    split at written
    next e2 first => exact PresetEdit.fields_gainRange rest e2 e1 (PresetEdit.field_gainRange e e2 k v h first) written
    · exact nomatch written

theorem tableInRange_set {t : Vector Preset 16} (h : tableInRange t) (n : PresetId) (r : Preset) (hr : r.gainRange) :
    tableInRange (t.set n r) := by
  intro m
  rw [getElem_set_preset]
  split
  · exact hr
  · exact h m

/-- R103, R105, R108: a record within its limits that is written keeps every gain in range. -/
theorem writePreset_gainHeld (n : PresetId) (r : Preset) (s : State) (hr : r.gainRange) (h : GainHeld s) :
    GainHeld (writePreset n r s) := by
  obtain ⟨table, profile, held⟩ := h
  have written := tableInRange_set table n r hr
  rw [GainHeld_iff, writePreset_presets, writePreset_profile]
  refine ⟨written, profile, fun q => ?_⟩
  rw [writePreset_pgm]
  split
  next top =>
    intro defined
    obtain ⟨low, high, -⟩ := held q defined
    have applied := Preset.clampGain_range r s.pgms[q].cor.g hr
    have star := Preset.clampGain_range r s.pgms[q].cor.gStar hr
    have stack : (s.pgms[q].presetChanged r).cor.stack = s.pgms[q].cor.stack := by
      simp [Pgm.presetChanged, Correction.clampTo]
    have record : (s.presets.set n r)[(s.pgms[q].presetChanged r).cor.top] = r := by
      have : (s.pgms[q].presetChanged r).cor.top = n := by rw [← top.2]; simp only [Correction.top, stack]
      rw [getElem_set_preset, if_pos this]
    simp only [record, stack]
    simp only [Pgm.presetChanged, Correction.clampTo, Correction.follow_g, Correction.follow_gStar, Correction.setGain_g]
    exact ⟨low, high, applied.1, applied.2, star.1, star.2⟩
  next other =>
    intro defined
    have e : (s.presets.set n r)[s.pgms[q].cor.top] = s.presets[s.pgms[q].cor.top] := by
      rw [getElem_set_preset, if_neg fun e => other ⟨defined, e⟩]
    rw [e]
    exact held q defined

/-! ### The take queue (R176 to R179) -/

/-- R176: entries in order, none due now: those left behind the ones due next are not due next. -/
theorem due_ne_of_mem_dropWhile (fc : FrameCount) (l : List TakeEntry)
    (order : l.Pairwise fun a b => ahead fc a.due ≤ ahead fc b.due) (later : ∀ e ∈ l, e.due ≠ fc) :
    ∀ e ∈ l.dropWhile (fun e => decide (e.due = fc + 1)), e.due ≠ fc + 1 := by
  induction l with
  | nil => exact fun _ h => nomatch h
  | cons x l ih =>
    obtain ⟨first, order⟩ := List.pairwise_cons.mp order
    rw [List.dropWhile_cons]
    split
    · exact ih order fun e h => later e (List.mem_cons_of_mem x h)
    next far =>
      have far : x.due ≠ fc + 1 := by simpa using far
      have now := later x List.mem_cons_self
      have beyond : 1 < ahead fc x.due := by unfold ahead; bv_omega
      intro e he next
      have le : ahead fc x.due ≤ ahead fc e.due := by
        obtain rfl | he := List.mem_cons.mp he
        · exact le_refl _
        · exact first e he
      rw [next] at le
      have one : ahead fc (fc + 1) = 1 := by unfold ahead; bv_omega
      omega

/-- R176: distances from the next frame. -/
theorem ahead_succ (fc due : FrameCount) (h : due ≠ fc) : ahead (fc + 1) due = ahead fc due - 1 := by
  unfold ahead; bv_omega

theorem TakesOrdered.next {s t : State} (h : TakesOrdered s) (fc : t.fc = s.fc + 1)
    (takes : t.takes = s.takes.dropWhile fun e => decide (e.due = s.fc + 1)) : TakesOrdered t := by
  obtain ⟨few, order, coming, ids⟩ := h
  have sub : t.takes.Sublist s.takes := takes ▸ List.dropWhile_sublist _
  refine ⟨sub.length_le.trans few, ?_, fun e he => ?_, ids.sublist sub⟩
  · refine (order.sublist sub).imp_of_mem fun {a b} ha hb le => ?_
    rw [fc, ahead_succ _ _ (coming a (sub.subset ha)), ahead_succ _ _ (coming b (sub.subset hb))]
    exact Nat.sub_le_sub_right le 1
  · rw [fc]
    exact due_ne_of_mem_dropWhile s.fc s.takes order coming e (takes ▸ he)

theorem insertTake_perm (fc : FrameCount) (e : TakeEntry) (l : List TakeEntry) : (insertTake fc e l).Perm (e :: l) := by
  induction l with
  | nil => exact .refl _
  | cons x l ih =>
    unfold insertTake
    split
    · exact (ih.cons x).trans (.swap e x l)
    · exact .refl _

/-- R176: an entry joins an ordered queue in order. -/
theorem insertTake_ordered (fc : FrameCount) (e : TakeEntry) (l : List TakeEntry)
    (order : l.Pairwise fun a b => ahead fc a.due ≤ ahead fc b.due) :
    (insertTake fc e l).Pairwise fun a b => ahead fc a.due ≤ ahead fc b.due := by
  induction l with
  | nil => exact List.pairwise_singleton _ _
  | cons x l ih =>
    obtain ⟨first, rest⟩ := List.pairwise_cons.mp order
    unfold insertTake
    split
    next le =>
      refine List.pairwise_cons.mpr ⟨fun y hy => ?_, ih rest⟩
      obtain rfl | hy := List.mem_cons.mp ((insertTake_perm fc e l).subset hy)
      · exact le
      · exact first y hy
    next gt =>
      have lt : ahead fc e.due ≤ ahead fc x.due := Nat.le_of_not_le gt
      refine List.pairwise_cons.mpr ⟨fun y hy => ?_, order⟩
      obtain rfl | hy := List.mem_cons.mp hy
      · exact lt
      · exact lt.trans (first y hy)

theorem idInUse_iff (takes : List TakeEntry) (id : BitVec 16) : idInUse takes id = true ↔ id ∈ takes.map (·.id) := by
  simp [idInUse]

/-- R178: with 32 entries or fewer, one of the 33 ids from the next id on is free. -/
theorem exists_free_id (takes : List TakeEntry) (next : BitVec 16) (few : takes.length ≤ 32) :
    ∃ j, j < 33 ∧ idInUse takes (next + BitVec.ofNat 16 j) = false := by
  by_contra none
  have used : (List.range 33).map (fun j => next + BitVec.ofNat 16 j) ⊆ takes.map (·.id) := by
    intro id h
    obtain ⟨j, hj, rfl⟩ := List.mem_map.mp h
    rw [← idInUse_iff]
    by_contra free
    exact none ⟨j, List.mem_range.mp hj, by simpa using free⟩
  have distinct : ((List.range 33).map fun j => next + BitVec.ofNat 16 j).Nodup := by
    refine List.Nodup.map_on (fun i hi j hj e => ?_) List.nodup_range
    rw [List.mem_range] at hi hj
    have := congrArg BitVec.toNat (add_left_cancel e)
    simp only [BitVec.toNat_ofNat] at this
    omega
  have := (distinct.subperm used).length_le
  simp only [List.length_map, List.length_range] at this
  omega

theorem freeId_free (takes : List TakeEntry) (next : BitVec 16) (few : takes.length ≤ 32) :
    freeId takes next ∉ takes.map (·.id) := by
  rw [← idInUse_iff]
  obtain ⟨j, lt, free⟩ := exists_free_id takes next few
  unfold freeId
  split
  next i h => simpa using List.find?_some h
  next h => simpa [free] using List.find?_eq_none.mp h j (List.mem_range.mpr lt)

/-- R177: an accepted entry is due at a frame to come. -/
theorem makeEntry_due_ne (s : State) (named : FrameCount) (a : TakeAction) : (makeEntry s named a).due ≠ s.fc := by
  unfold makeEntry
  dsimp only
  split
  · bv_omega
  next early =>
    intro e
    rw [e] at early
    simp [isLate, ahead] at early

/-- R177, R178: an accepted entry joins a queue with room in order. -/
theorem addTake_ordered (s : State) (named : FrameCount) (a : TakeAction) (h : TakesOrdered s) (room : s.takes.length < 32) :
    TakesOrdered (addTake (makeEntry s named a) s) := by
  obtain ⟨few, order, coming, ids⟩ := h
  have perm := insertTake_perm s.fc (makeEntry s named a) s.takes
  refine ⟨?_, insertTake_ordered _ _ _ order, fun e he => ?_, ?_⟩
  · show (insertTake s.fc (makeEntry s named a) s.takes).length ≤ 32
    rw [perm.length_eq]; exact room
  · obtain rfl | he := List.mem_cons.mp (perm.subset he)
    · exact makeEntry_due_ne s named a
    · exact coming e he
  · refine (perm.pairwise_iff fun {x y} (h : x.id ≠ y.id) => h.symm).mpr (List.pairwise_cons.mpr ⟨fun e he => ?_, ids⟩)
    intro (same : freeId s.takes s.nextId = e.id)
    exact freeId_free s.takes s.nextId few (same ▸ List.mem_map_of_mem he)

end Sys2Proof.Machine
end

section
/-! SUPPORT, O12. What a frame boundary, a house sample and the starts leave `Steady`. -/

namespace Sys2Proof.Machine

/-! ### The frame boundary (R2, R13, R179) -/

theorem Steady.setTakes {s t : State} (h : Steady s t) (es : List TakeEntry) : Steady (s.setTakes es) (t.setTakes es) :=
  ⟨h.hc, h.fc, h.pending, h.presets, h.profile, rfl, h.pages, h.records, h.link, h.gains⟩

theorem drop_takeWhile_length {α : Type} (p : α → Bool) (l : List α) : l.drop (l.takeWhile p).length = l.dropWhile p := by
  induction l with
  | nil => rfl
  | cons x l ih =>
    rw [List.takeWhile_cons, List.dropWhile_cons]
    split
    · exact ih
    · rfl

/-- The take of a boundary removes the entries due at FC, and is `Steady` beyond that. -/
theorem applyTake_steady (origin : Kw) (s : State) :
    Steady (s.setTakes (s.takes.dropWhile fun e => decide (e.due = s.fc))) (applyTake origin s) := by
  have rest : s.takes.drop s.dueEntries.length = s.takes.dropWhile fun e => decide (e.due = s.fc) :=
    drop_takeWhile_length _ _
  unfold applyTake
  dsimp only
  split
  next none =>
    rw [← rest, none]
    exact .refl s
  next =>
    rw [rest]
    exact (applyEntries_steady _ _ _).trans (.notify _ _ _)

/-- R2: FC and the last boundary behind a boundary at a tick position. -/
def State.raised (s : State) (pos : TickPos) : State := { s with fc := s.fc + 1, ref := s.ref.boundedAt pos }

/-- Log entry 10: the number of the next free order has been used. -/
def State.seeded (s : State) : State := { s with freeSeed := s.freeSeed + 1 }

/-- R181: a boundary whose take comes before the delay lines. -/
def takeThenLines (origin : Kw) (s : State) : State := lineBoundary (takeController (applyTake origin s))

/-- R181: a boundary whose take comes behind the delay lines. -/
def linesThenTake (origin : Kw) (s : State) : State := takeController (applyTake origin (lineBoundary s))

/-- R13, R181: the two orders of a boundary, the second where the take moves a line. -/
theorem frameBoundary_cases (pos : TickPos) (origin : Kw) (s : State) :
    frameBoundary pos origin s = takeThenLines origin (s.raised pos) ∨
      (s.raised pos).takeMovesLine = true ∧
        (frameBoundary pos origin s = takeThenLines origin (s.raised pos).seeded ∨
          frameBoundary pos origin s = linesThenTake origin (s.raised pos).seeded) := by
  have order : frameBoundary pos origin s =
      if (s.raised pos).takeMovesLine then
        if Config.takeBeforeLines (s.raised pos).freeSeed then takeThenLines origin (s.raised pos).seeded
        else linesThenTake origin (s.raised pos).seeded
      else takeThenLines origin (s.raised pos) := rfl
  rw [order]
  split
  next moves =>
    refine .inr ⟨moves, ?_⟩
    split
    · exact .inl rfl
    · exact .inr rfl
  · exact .inl rfl

/-- The queue without the entries due at FC. -/
def State.dueGone (s : State) : State := s.setTakes (s.takes.dropWhile fun e => decide (e.due = s.fc))

/-- A frame boundary is `Steady` beyond the count and the removal of its entries. -/
theorem frameBoundary_steady (pos : TickPos) (origin : Kw) (s : State) :
    Steady (s.raised pos).dueGone (frameBoundary pos origin s) := by
  have takeFirst (t : State) : Steady t.dueGone (takeThenLines origin t) :=
    ((applyTake_steady origin t).trans (takeController_steady _)).trans (lineBoundary_steady _)
  have linesFirst (t : State) : Steady t.dueGone (linesThenTake origin t) := by
    have lines := lineBoundary_steady t
    have take := (applyTake_steady origin (lineBoundary t)).trans (takeController_steady _)
    rw [lines.takes, lines.fc] at take
    exact (lines.setTakes _).trans take
  have seeded (t : State) : Steady t.dueGone t.seeded.dueGone := .of_frame rfl
  obtain h | ⟨-, h | h⟩ := frameBoundary_cases pos origin s <;> rw [h]
  · exact takeFirst _
  · exact (seeded _).trans (takeFirst _)
  · exact (seeded _).trans (linesFirst _)

/-! ### No programme left waiting (R50) -/

/-- R50: no RUNNING programme is in WAITING. -/
def NoneWaiting (s : State) : Prop := ∀ p : ProgId, s.pgms[p].ctl.state = .running → s.pgms[p].ctl.out ≠ .waiting

theorem NoneWaiting.of_ctl {s t : State} (h : NoneWaiting s) (same : ∀ p : ProgId, t.pgms[p].ctl = s.pgms[p].ctl) :
    NoneWaiting t := by
  intro p running
  rw [same p] at running
  rw [same p]
  exact h p running

theorem Ctl.atBoundary_out (c : Ctl) : c.atBoundary.out ≠ .waiting := by
  unfold Ctl.atBoundary
  dsimp only
  split <;> exact OutState.noConfusion

/-- R50: the record of a programme behind a frame boundary. -/
def Ctl.bounded (c : Ctl) : Ctl := if c.state = .running ∧ c.out = .waiting then c.atBoundary else c

theorem Ctl.bounded_out (c : Ctl) (h : c.bounded.state = .running) : c.bounded.out ≠ .waiting := by
  unfold Ctl.bounded at h ⊢
  split
  · exact c.atBoundary_out
  next free =>
    rw [if_neg free] at h
    exact fun out => free ⟨h, out⟩

theorem controllerBoundary_pgm (s : State) (q : ProgId) :
    (controllerBoundary s).pgms[q] = { s.pgms[q] with ctl := s.pgms[q].ctl.bounded } := by
  refine foldl_allProgs (fun _ => True)
    (fun s p => if s.pgms[p].ctl.state = .running ∧ s.pgms[p].ctl.out = .waiting then s.updCtl p Ctl.atBoundary else s)
    (fun _ g => { g with ctl := g.ctl.bounded }) (fun t p _ => ?_) (fun t p q _ ne => ?_) (fun _ _ _ => trivial) s trivial q
  · unfold Ctl.bounded
    by_cases h : t.pgms[p].ctl.state = .running ∧ t.pgms[p].ctl.out = .waiting
    · rw [if_pos h, if_pos h]; exact State.updCtl_self t p Ctl.atBoundary
    · rw [if_neg h, if_neg h]
  · split
    · exact State.updCtl_ne t ne Ctl.atBoundary
    · rfl

theorem controllerBoundary_noneWaiting (s : State) : NoneWaiting (controllerBoundary s) := by
  intro p running
  simp only [controllerBoundary_pgm] at running ⊢
  exact s.pgms[p].ctl.bounded_out running

theorem takeController_pgms (s : State) : (takeController s).pgms = (controllerBoundary s).pgms := by
  simp only [takeController]

theorem frameBoundary_noneWaiting (pos : TickPos) (origin : Kw) (s : State) : NoneWaiting (frameBoundary pos origin s) := by
  have controller (t : State) : NoneWaiting (takeController t) :=
    (controllerBoundary_noneWaiting t).of_ctl fun p => by rw [takeController_pgms]
  have lines (t : State) : NoneWaiting (lineBoundary (takeController t)) :=
    (controller t).of_ctl (lineBoundary_moves _).ctl
  obtain h | ⟨-, h | h⟩ := frameBoundary_cases pos origin s <;> rw [h]
  · exact lines _
  · exact lines _
  · exact controller _

theorem frameBoundary_boundaryHere (pos : TickPos) (origin : Kw) (s : State) : (frameBoundary pos origin s).boundaryHere = true := by
  have controller (t : State) : (takeController t).boundaryHere = true := rfl
  have lines (t : State) : (lineBoundary (takeController t)).boundaryHere = true := by rw [(lineBoundary_moves _).rest]; rfl
  obtain h | ⟨-, h | h⟩ := frameBoundary_cases pos origin s <;> rw [h]
  · exact lines _
  · exact lines _
  · exact controller _

theorem BoundaryMoves.phase {s t : State} (h : BoundaryMoves s t) : t.phase = s.phase := by unfold BoundaryMoves at h; rw [h]

theorem BoundaryMoves.nextId {s t : State} (h : BoundaryMoves s t) : t.nextId = s.nextId := by unfold BoundaryMoves at h; rw [h]

/-- Settles O12: the count and the queue from `frameBoundary_steady`, the rest from what a boundary moves at all. -/
theorem frameBoundaryCounts : Obligations.FrameBoundaryCounts := by
  intro s pos o t
  have steady : Steady (s.raised pos).dueGone t := frameBoundary_steady pos o s
  have phase : t.phase = s.phase := (frameBoundary_boundaryMoves pos o s).phase
  have id : t.nextId = s.nextId := (frameBoundary_boundaryMoves pos o s).nextId
  exact ⟨steady.fc, frameBoundary_ref pos o s, steady.hc, phase, frameBoundary_boundaryHere pos o s,
    steady.takes, id, frameBoundary_noneWaiting pos o s⟩

/-! ### The house sample (R1) -/

theorem Steady.withHc {s t : State} (h : Steady s t) (x : HouseCount) : Steady { s with hc := x } { t with hc := x } :=
  ⟨rfl, h.fc, h.pending, h.presets, h.profile, h.takes, h.pages, h.records, h.link, h.gains⟩

theorem recordProbe_steady (s : State) : Steady s (recordProbe s) := by
  unfold recordProbe
  split
  · split
    · exact .updProbe _ _
    · exact .refl s
  · exact .refl s

theorem recordSlot_steady (s : State) (c : SlotId) : Steady s (recordSlot s c) := by
  unfold recordSlot
  split
  · exact .updSlot _ _ _
  · exact .refl s

theorem Correction.tick_stack (c : Correction) : c.tick.stack = c.stack ∧ c.tick.g = c.g ∧ c.tick.gStar = c.gStar := by
  unfold Correction.tick
  dsimp only
  split <;> exact ⟨rfl, rfl, rfl⟩

@[simp] theorem Ctl.tick_state (c : Ctl) : c.tick.state = c.state := by
  unfold Ctl.tick
  split
  · rfl
  · split <;> rfl

theorem tickPgm_steady (s : State) (p : ProgId) : Steady s (tickPgm s p) := by
  unfold tickPgm
  split
  · obtain ⟨stack, g, gStar⟩ := s.pgms[p].cor.tick_stack
    refine .updPgm_same _ _ _ (fun defined => ?_) ?_ ?_ ?_
    · simpa [Pgm.tick] using defined
    all_goals
      unfold Pgm.tick
      dsimp only
      split
      · assumption
      · rfl
  · exact .refl s

theorem advance_steady (s : State) : Steady { s with hc := s.hc + 1 } (advance s) := by
  have lanes : Steady s (allLanes.foldl (fun s k => s.updLane k fun l => { l with latch := none, outLatch := none }) s) :=
    .foldl (fun t k => .updLane t k _) _ _
  have outputs := lanes.trans (.foldl (f := fun s l => s.updGpo l Gpo.next) (fun t l => .updGpo t l _) allLines _)
  have dues (t : State) (x : HouseCount) (c g : Bool) :
      Steady { t with hc := x } { t with hc := x, phase := 0, closeDue := c, gpiDue := g, boundaryHere := false } := .of_frame rfl
  exact (outputs.withHc _).trans (dues _ _ _ _)

theorem deliverOutputs_steady (s : State) : Steady s (deliverOutputs s) := by
  unfold deliverOutputs; exact .updPins _ _

/-- A house sample is `Steady` beyond the advance of HC. -/
theorem houseSample_steady (s : State) : Steady { s with hc := s.hc + 1 } (houseSample s) := by
  have produced := ((formLanesOf_steady allLanes s).trans (deliverOutputs_steady _)).trans (recordProbe_steady _)
  have taken := (produced.trans (.foldl recordSlot_steady allSlots _)).trans (.foldl tickPgm_steady allProgs _)
  have advanced := advance_steady (allProgs.foldl tickPgm (allSlots.foldl recordSlot
    (recordProbe (deliverOutputs (formLanesOf allLanes s)))))
  rw [taken.hc] at advanced
  exact (taken.withHc _).trans advanced

/-! ### The starts (R194, R195) -/

theorem helloNotice_steady (s : State) : Steady s (helloNotice s) := .notify _ _ _

/-- R41: of the controller records a run moves its own programme's alone. -/
theorem runProgramme_ctl {p : ProgId} {s t : State} (h : runProgramme p s = some t) (q : ProgId) :
    t.pgms[q].ctl = if p = q then s.pgms[q].ctl.run else s.pgms[q].ctl := by
  unfold runProgramme at h
  extract_lets s1 c need grant s2 at h
  have line : s2.pgms[q].ctl = if p = q then s.pgms[q].ctl.run else s.pgms[q].ctl := by
    have formed : s1.pgms[q].ctl = s.pgms[q].ctl := (formLength_moves p s).ctl q
    show ((s1.setOwners _).updPgm p _).pgms[q].ctl = _
    rw [getElem_updPgm]
    split
    · exact congrArg Ctl.run formed
    · exact formed
  split at h
  · exact nomatch h
  · obtain rfl := Option.some.inj h
    split
    · rw [(pagesNotice_moves p false s2).ctl q]; exact line
    · exact line

/-- R194: every programme an image defines is defined. -/
def Stored (c : Image) (s : State) : Prop := ∀ (p : ProgId) x, c.pgms[p] = some x → s.pgms[p].ctl.state ≠ .undefined

/-- R194: the run of one stored programme. -/
def runOne (c : Image) (s : State) (p : ProgId) : State :=
  match c.pgms[p] with
  | some x => if x.running then (runProgramme p s).getD s else s
  | none => s

theorem runStored_eq (c : Image) (s : State) : runStored c s = allProgs.foldl (runOne c) s := rfl

theorem runOne_stored (c : Image) (s : State) (p : ProgId) (h : Stored c s) : Stored c (runOne c s p) ∧ Steady s (runOne c s p) := by
  unfold runOne
  split
  next x image =>
    split
    · cases run : runProgramme p s with
      | none => exact ⟨h, .refl s⟩
      | some t =>
        refine ⟨fun q y stored => ?_, runProgramme_steady p s t (h p x image) run⟩
        show t.pgms[q].ctl.state ≠ .undefined
        rw [runProgramme_ctl run]
        split
        · exact PgmState.noConfusion
        · exact h q y stored
    · exact ⟨h, .refl s⟩
  · exact ⟨h, .refl s⟩

theorem runStored_steady (c : Image) (s : State) (h : Stored c s) : Steady s (runStored c s) := by
  rw [runStored_eq]
  exact (foldl_keeps (fun t => Stored c t ∧ Steady s t) (runOne c)
    (fun t p held => ⟨(runOne_stored c t p held.1).1, held.2.trans (runOne_stored c t p held.1).2⟩) allProgs s
    ⟨h, .refl s⟩).2

theorem loadAll_pgm (cause : StartCause) (b a : Bool) (store : Store) (s : State) (p : ProgId) :
    (loadAll cause b a store s).pgms[p] = loadPgm store.config.pgms[p] := by
  have table : (loadAll cause b a store s).pgms = store.config.pgms.map loadPgm := rfl
  rw [table]
  exact Vector.getElem_map loadPgm p.isLt

theorem loadAll_stored (cause : StartCause) (b a : Bool) (store : Store) (s : State) :
    Stored store.config (loadAll cause b a store s) := by
  intro p x image
  rw [loadAll_pgm, image]
  exact PgmState.noConfusion

/-- R194: a start is `Steady` beyond the loading of the blocks. -/
theorem start_steady (cause : StartCause) (b a : Bool) (store : Store) (s : State) :
    Steady (loadAll cause b a store s) (start cause b a store s) :=
  (runStored_steady store.config _ (loadAll_stored cause b a store s)).trans (helloNotice_steady _)

theorem loadPgm_held (x : Option PgmImage) (t : Vector Preset 16) (h : tableInRange t) : (loadPgm x).held t := by
  cases x with
  | none => exact fun defined => absurd rfl defined
  | some x => exact Correction.start_held _ _ _ x.basePreset t h

theorem factory_inRange : tableInRange (Vector.replicate 16 Preset.factory) := by
  intro n
  simp only [Fin.getElem_fin, Vector.getElem_replicate]
  unfold Preset.gainRange
  decide

theorem Store.config_inRange (store : Store) (h : ∀ img crc, store = .image img crc → tableInRange img.presets) :
    tableInRange store.config.presets := by
  match store with
  | .never | .broken => exact factory_inRange
  | .image img crc => exact h img crc rfl

/-- R102, R194: the values of a start are in range where the store's table is. -/
theorem loadAll_gainHeld (cause : StartCause) (b a : Bool) (store : Store) (s : State)
    (h : ∀ img crc, store = .image img crc → tableInRange img.presets) : GainHeld (loadAll cause b a store s) := by
  have table := store.config_inRange h
  rw [GainHeld_iff]
  refine ⟨table, ⟨h, fun _ e => nomatch e⟩, fun p => ?_⟩
  rw [loadAll_pgm]
  exact loadPgm_held _ _ table

theorem restartBlocks_steady (s : State) : Steady (s.setTakes []) (restartBlocks s) :=
  ⟨rfl, rfl, rfl, rfl, rfl, rfl, rfl, fun _ => Nat.zero_le _, .refl _, fun _ _ => id⟩

theorem dropSlots_steady (s : State) : Steady s (dropSlots s) := by
  refine .foldl (fun t c => ?_) _ _
  unfold dropSlot
  split
  · exact .updSlot _ _ _
  · exact (freeSlot_steady c t).trans (.updSlot _ _ _)

theorem Pgm.restart_held (g : Pgm) (pages : Nat) (t : Vector Preset 16) (h : tableInRange t) : (g.restart pages).held t := by
  unfold Pgm.restart
  split
  next undefined => exact fun defined => absurd undefined defined
  · exact Correction.start_held _ _ _ _ t h

theorem releaseBeyondNeed_moves (s : State) (p : ProgId) : DlyMoves s (releaseBeyondNeed s p) := by
  unfold releaseBeyondNeed
  dsimp only
  split
  · exact .trans (.setOwners _ _ (releaseLanes_length _ _ _ _)) (.updDly _ _ _)
  · exact .refl s

theorem askAgain_moves (s : State) (p : ProgId) : DlyMoves s (askAgain s p) := by
  unfold askAgain
  extract_lets d held need grant s1 len s2
  have asked : DlyMoves s s1 := .trans (.setOwners _ _ (attachLanes_length _ _ _ _)) (.updDly _ _ _)
  have met : DlyMoves s s2 := asked.trans (.updDly _ _ _)
  split
  · exact .refl s
  · split
    · exact (asked.trans (.updDly _ _ _)).trans (pagesNotice_moves _ _ _)
    · split
      · exact met.trans (pagesNotice_moves _ _ _)
      · exact met

/-- RESTART PROC is `Steady` beyond the emptying of the take queue. -/
theorem restartProc_steady (s : State) : Steady (s.setTakes []) (restartProc s) := by
  unfold restartProc
  extract_lets s1 s2
  have blocks : Steady (s.setTakes []) s1 := (restartBlocks_steady s).trans (dropSlots_steady _)
  have programmes : Steady (s.setTakes []) s2 :=
    blocks.trans (.foldl (fun t p => .updPgm t p _ fun table _ => Pgm.restart_held _ _ _ table) _ _)
  exact ((programmes.trans (.foldl (fun t p => .of_dlyMoves (releaseBeyondNeed_moves t p)) _ _)).trans
    (.foldl (fun t p => .of_dlyMoves (askAgain_moves t p)) _ _)).trans (helloNotice_steady _)

end Sys2Proof.Machine
end

section
/-! SUPPORT, O1 to O7. What a command keeps: the relation `Kept` for events and for the blocks of requests, and `Bounds` for every
command, from which the statements on the whole machine follow. -/

namespace Sys2Proof.Machine

/-! ### What a block keeps -/

/-- What an event or the block of a request keeps of the time, the queue and the bounds of `Safety`; `n` is the number of lines it may
send beyond the 40 up to which notices go to the transmit FIFO. -/
structure Kept (n : Nat) (s t : State) : Prop where
  hc : t.hc = s.hc
  pending : t.pending = s.pending
  link : s.link.held.length ≤ 16 → t.link.held.length ≤ 16 ∧ t.link.fifo.length ≤ max s.link.fifo.length 40 + n
  stores : StoresBounded s → StoresBounded t
  gain : GainHeld s → GainHeld t
  takes : TakesOrdered s → TakesOrdered t

theorem Steady.stores {s t : State} (h : Steady s t) : StoresBounded s → StoresBounded t :=
  fun ⟨pages, records⟩ => ⟨h.pages.trans pages, h.records records⟩

theorem Steady.gain {s t : State} (h : Steady s t) : GainHeld s → GainHeld t := by
  rw [GainHeld_iff, GainHeld_iff, h.presets, h.profile]
  exact fun ⟨table, profile, held⟩ => ⟨table, profile, fun p => h.gains table p (held p)⟩

theorem Steady.ordered {s t : State} (h : Steady s t) : TakesOrdered s → TakesOrdered t := by
  unfold TakesOrdered
  rw [h.takes, h.fc]
  exact id

namespace Kept
variable {m n : Nat} {s t u : State}

theorem of_steady (h : Steady s t) : Kept n s t :=
  ⟨h.hc, h.pending, fun held => ⟨h.link.held held, h.link.fifo.trans (Nat.le_add_right _ n)⟩, h.stores, h.gain, h.ordered⟩

theorem of_eq (h : t = s) : Kept n s t := by subst h; exact of_steady (.refl t)

theorem trans (h : Kept m s t) (k : Kept n t u) : Kept (m + n) s u where
  hc := k.hc.trans h.hc
  pending := k.pending.trans h.pending
  link := fun held => by
    obtain ⟨held', fifo⟩ := h.link held
    obtain ⟨held'', fifo'⟩ := k.link held'
    exact ⟨held'', by omega⟩
  stores := fun a => k.stores (h.stores a)
  gain := fun a => k.gain (h.gain a)
  takes := fun a => k.takes (h.takes a)

theorem steady (h : Kept n s t) (k : Steady t u) : Kept n s u := h.trans (of_steady (n := 0) k)

theorem mono (h : Kept m s t) (le : m ≤ n) : Kept n s t :=
  { h with link := fun held => ⟨(h.link held).1, by have := (h.link held).2; omega⟩ }

end Kept

/-! ### Boundaries, saves and the gate -/

/-- R178, R179: a frame boundary keeps the queue in order ahead of the new FC. -/
theorem frameBoundary_kept (pos : TickPos) (origin : Kw) (s : State) : Kept 0 s (frameBoundary pos origin s) := by
  have steady := frameBoundary_steady pos origin s
  have whole : Kept 0 (s.raised pos).dueGone (frameBoundary pos origin s) := .of_steady steady
  exact ⟨whole.hc, whole.pending, whole.link, whole.stores, whole.gain, fun ordered => ordered.next steady.fc steady.takes⟩

theorem frefPulse_kept (ph : BitVec 8) (s : State) : Kept 0 s (frefPulse ph s) := by
  have phased : Kept 0 s { s with phase := ph } := .of_steady (.of_frame rfl)
  unfold frefPulse
  extract_lets s1 pos s2 s3
  have bounded : Kept 0 s s2 := by
    unfold s2
    split
    · exact phased.trans (frameBoundary_kept _ _ _)
    · exact phased
  have pulsed : Kept 0 s s3 := bounded.steady (.updRef _ _)
  split
  · exact pulsed.steady (.notify _ _ _)
  · exact pulsed

theorem flywheelBoundary_kept (s : State) : Kept 0 s (flywheelBoundary s) := by
  unfold flywheelBoundary
  split
  · split
    · exact ((Kept.of_steady (n := 0) (.atInstant s _)).trans (frameBoundary_kept _ _ _)).steady (.updRef _ _)
    · exact .of_eq rfl
  · exact .of_eq rfl

theorem missingPulseExpiry_kept (s : State) : Kept 0 s (missingPulseExpiry s) := by
  unfold missingPulseExpiry
  split
  · split
    · exact ((Kept.of_steady (n := 0) ((Steady.atInstant s _).trans (.updRef _ _))).trans (frameBoundary_kept _ _ _)).steady
        (.notify _ _ _)
    · exact .of_eq rfl
  · exact .of_eq rfl

theorem saveComplete_kept (ok : Bool) (s : State) : Kept 0 s (saveComplete ok s) := by
  unfold saveComplete
  split
  next img saving =>
    have saved : Kept 0 s (s.updProfile fun _ => savedProfile img ok) := by
      refine ⟨rfl, rfl, fun held => ⟨held, Nat.le_max_left _ _⟩, id, fun ⟨table, ⟨_, image⟩, held⟩ => ?_, id⟩
      refine ⟨table, ⟨fun img' crc e => ?_, fun _ e => nomatch e⟩, held⟩
      cases ok with
      | false => exact nomatch e
      | true =>
        obtain ⟨rfl, -⟩ := Store.image.inj e
        exact image img saving
    exact saved.steady (.notify _ _ _)
  · exact .of_eq rfl

theorem Profile.interrupted_inRange {p : Profile} (h : p.inRange) (img : Image) (crc : BitVec 32)
    (e : p.interrupted = .image img crc) : tableInRange img.presets := by
  unfold Profile.interrupted at e
  split at e
  · exact nomatch e
  · exact h.1 img crc e

theorem powerLoss_kept (s : State) : Kept 0 s (powerLoss s) := by
  refine ⟨rfl, rfl, fun held => ⟨held, Nat.le_max_left _ _⟩, id, fun ⟨table, profile, held⟩ => ?_, id⟩
  exact ⟨table, ⟨Profile.interrupted_inRange profile, fun _ e => nomatch e⟩, held⟩

/-! ### Requests -/

section
variable (args : List Tok) (s : State)

theorem refly_kept : Kept 0 s (refly s) := by
  unfold refly
  dsimp only
  split
  · exact (frameBoundary_kept _ _ s).steady (.updRef _ _)
  · exact .of_steady (.updRef _ _)

theorem reqRefSet_kept : Kept 0 s (reqRefSet args s).2 := by
  unfold reqRefSet
  split
  · split
    · exact .of_eq rfl
    next rate _ =>
      have set : Kept 0 s (s.updRef fun r => { r with rate := rate, tracked := rate.period }) := .of_steady (.updRef _ _)
      dsimp only
      split
      · exact .of_eq rfl
      · split
        case h_1 | h_2 => exact set.trans (refly_kept _)
        case h_3 | h_4 => exact set.steady (.updRef _ _)
  · exact .of_eq rfl

theorem reqPresetSet_kept : Kept 0 s (reqPresetSet args s).2 := by
  have written (n : PresetId) (r : Preset) (h : tableInRange s.presets → r.gainRange) : Kept 0 s (writePreset n r s) := by
    have gain (held : GainHeld s) : GainHeld (writePreset n r s) := writePreset_gainHeld n r s (h held.1) held
    have frame := writePreset_frame n r s
    generalize writePreset n r s = t at frame gain
    refine ⟨by rw [frame], by rw [frame], fun held => ?_, fun stores => ?_, gain, fun takes => ?_⟩ <;> rw [frame]
    · exact ⟨held, Nat.le_max_left _ _⟩
    · exact stores
    · exact takes
  unfold reqPresetSet
  split
  · refine withIndex_state _ (.of_eq rfl) fun n => ?_
    split
    · exact .of_eq rfl
    next e fields =>
      rw [okClamped_snd]
      exact written n e.preset fun table => PresetEdit.fields_gainRange _ _ e (table n) fields
  · exact withIndex_state _ (.of_eq rfl) fun _ => .of_eq rfl
  · exact .of_eq rfl

theorem reqTakAdd_kept : Kept 0 s (reqTakAdd args s).2 := by
  refine withArgs_state _ (.of_eq rfl) fun x _ => ?_
  split
  · exact .of_eq rfl
  next room =>
    refine ⟨rfl, rfl, fun held => ⟨held, Nat.le_max_left _ _⟩, id, id, fun ordered => ?_⟩
    exact addTake_ordered s _ _ ordered (Nat.lt_of_not_le room)

theorem reqTakCancel_kept : Kept 0 s (reqTakCancel args s).2 := by
  unfold reqTakCancel
  split
  · refine withId_state _ (.of_eq rfl) fun e => ?_
    refine ⟨rfl, rfl, fun held => ⟨held, Nat.le_max_left _ _⟩, id, id, fun ⟨few, order, coming, ids⟩ => ?_⟩
    have sub : (s.takes.filter fun x => decide (x.id ≠ e.id)).Sublist s.takes := List.filter_sublist
    exact ⟨sub.length_le.trans few, order.sublist sub, fun x hx => coming x (sub.subset hx), ids.sublist sub⟩
  · exact .of_eq rfl

theorem reqHelloQuery_kept : Kept 0 s (reqHelloQuery args s).2 := by
  unfold reqHelloQuery
  split
  · exact .of_eq rfl
  · exact ⟨rfl, rfl, fun held => ⟨held, Nat.le_max_left _ _⟩, id, id, id⟩
  · exact .of_eq rfl

theorem reqGateClose_kept : Kept 0 s (reqGateClose args s).2 := by
  unfold reqGateClose
  split
  · exact ⟨rfl, rfl, fun held => ⟨held, Nat.le_max_left _ _⟩, id, id, id⟩
  · exact .of_eq rfl

/-- R190: GATE OPEN sends at most the 16 held lines and a LOST notice. -/
theorem reqGateOpen_kept : Kept 17 s (reqGateOpen args s).2 := by
  unfold reqGateOpen
  split
  · refine ⟨rfl, rfl, fun held => ⟨Nat.zero_le _, ?_⟩, id, id, id⟩
    have lost : (if 0 < s.link.lost then [Line.notice .lost [natFld s.link.lost]] else []).length ≤ 1 := by
      split <;> simp
    show (s.link.fifo ++ s.link.held ++ _).length ≤ _
    rw [List.length_append, List.length_append]
    omega
  · exact .of_eq rfl

theorem reqSave_kept : Kept 0 s (reqSave args s).2 := by
  unfold reqSave
  split
  · split
    · exact .of_eq rfl
    · refine ⟨rfl, rfl, fun held => ⟨held, Nat.le_max_left _ _⟩, id, fun ⟨table, ⟨store, _⟩, held⟩ => ?_, id⟩
      refine ⟨table, ⟨store, fun img e => ?_⟩, held⟩
      obtain rfl := Option.some.inj e
      exact table
  · exact .of_eq rfl

end

/-! ### Lines -/

theorem sendReply_kept (tag : Option Nat) (r : Reply) (s : State) : Kept 1 s (s.sendReply tag r) := by
  refine ⟨rfl, rfl, fun held => ⟨held, ?_⟩, id, id, id⟩
  show (s.link.fifo ++ [_]).length ≤ _
  rw [List.length_append, List.length_singleton]
  omega

/-- R187: a request sends one line beyond those of its block. -/
theorem answer_kept {s : State} {f : State → Answer} (tag : Nat) (h : Kept 17 s (f s).2) : Kept 18 s (s.answer tag f) := by
  unfold State.answer
  split
  · exact h.trans (sendReply_kept _ _ _)
  · exact (sendReply_kept _ _ s).mono (by decide)

theorem answerError_kept (tag : Option Nat) (e : ErrCode) (s : State) : Kept 18 s (answerError tag e s) := by
  unfold answerError
  split
  · split <;> exact (sendReply_kept _ _ s).mono (by decide)
  · exact (sendReply_kept _ _ s).mono (by decide)

theorem restartProc_kept (s : State) : Kept 0 s (restartProc s) := by
  have whole : Kept 0 (s.setTakes []) (restartProc s) := .of_steady (restartProc_steady s)
  refine ⟨whole.hc, whole.pending, whole.link, whole.stores, whole.gain, fun _ => whole.takes ?_⟩
  exact ⟨Nat.zero_le _, List.Pairwise.nil, fun _ h => (List.not_mem_nil h).elim, List.Pairwise.nil⟩

theorem takeRestartProc_kept (tag : Nat) (args : List Tok) (s : State) : Kept 18 s (takeRestartProc tag args s) := by
  have replied (tag : Option Nat) (r : Reply) : Kept 18 s (s.sendReply tag r) := (sendReply_kept tag r s).mono (by decide)
  unfold takeRestartProc
  split
  · exact replied _ _
  split
  · exact replied _ _
  split
  · exact replied _ _
  · exact ((sendReply_kept _ _ s).trans (restartProc_kept _)).mono (by decide)

/-- Every line but RESTART FULL. -/
theorem runLine_kept (i : Instr) (s : State) (h : ∀ tag args, i ≠ .restartFull tag args) : Kept 18 s (runLine i s) := by
  have steady {t : State} (k : Steady s t) : Kept 17 s t := .of_steady k
  have same {t : State} (k : t = s) : Kept 17 s t := .of_eq k
  have kept {t : State} (k : Kept 0 s t) : Kept 17 s t := k.mono (by decide)
  match i with
  | .restartFull tag args => exact absurd rfl (h tag args)
  | .powerOn _ _ | .resetnRelease _ _ | .houseSample | .subBlockClose | .multiplierRampEnd _ | .gpiSampleInstant _
  | .frefPulse _ | .flywheelBoundary | .missingPulseExpiry | .frameEdge _ _ _ | .windowClose _ | .signalExpiry _
  | .laneFadeInEnd _ | .changeoverSwitch _ | .outputFadeUpEnd _ | .slewStep _ | .jumpBottom _ | .jumpFadeUpEnd _
  | .alarmScan | .envelopeWindow | .probeSearchComplete | .probeTimeout | .captureComplete _ | .saveComplete _
  | .txLineSent | .powerLoss => exact .of_eq rfl
  | .lineTooLong => exact (sendReply_kept _ _ s).mono (by decide)
  | .unknownVerb tag => exact answerError_kept tag .verb s
  | .badLine tag => exact answerError_kept tag .synErr s
  | .restartProc tag args => exact takeRestartProc_kept tag args s
  | .timeQuery tag args => exact answer_kept tag (same (reqTimeQuery_state args s))
  | .refSet tag args => exact answer_kept tag (kept (reqRefSet_kept args s))
  | .refQuery tag args => exact answer_kept tag (same (reqRefQuery_state args s))
  | .portQuery tag args => exact answer_kept tag (steady (reqPortQuery_steady args s))
  | .laneSet tag args => exact answer_kept tag (steady (reqLaneSet_steady args s))
  | .laneQuery tag args => exact answer_kept tag (steady (reqLaneQuery_steady args s))
  | .pgmDefine tag args => exact answer_kept tag (steady (reqPgmDefine_steady args s))
  | .pgmRun tag args => exact answer_kept tag (steady (reqPgmRun_steady args s))
  | .pgmPark tag args => exact answer_kept tag (steady (reqPgmPark_steady args s))
  | .pgmDelete tag args => exact answer_kept tag (steady (reqPgmDelete_steady args s))
  | .pgmMode tag args => exact answer_kept tag (steady (reqPgmMode_steady args s))
  | .pgmSource tag args => exact answer_kept tag (steady (reqPgmSource_steady args s))
  | .pgmRevert tag args => exact answer_kept tag (steady (reqPgmRevert_steady args s))
  | .pgmQuery tag args => exact answer_kept tag (steady (reqPgmQuery_steady args s))
  | .dlyVideo tag args => exact answer_kept tag (steady (reqDlyVideo_steady args s))
  | .dlyTrim tag args => exact answer_kept tag (steady (reqDlyTrim_steady args s))
  | .dlyMotion tag args => exact answer_kept tag (steady (reqDlyMotion_steady args s))
  | .dlyQuery tag args => exact answer_kept tag (same (reqDlyQuery_state args s))
  | .mtrQuery tag args => exact answer_kept tag (same (reqMtrQuery_state args s))
  | .mtrBinsQuery tag args => exact answer_kept tag (same (reqMtrBinsQuery_state args s))
  | .mtrReset tag args => exact answer_kept tag (steady (reqMtrReset_steady args s))
  | .presetSet tag args => exact answer_kept tag (kept (reqPresetSet_kept args s))
  | .presetRecall tag args => exact answer_kept tag (steady (reqPresetRecall_steady args s))
  | .presetPush tag args => exact answer_kept tag (steady (reqPresetPush_steady args s))
  | .presetPop tag args => exact answer_kept tag (steady (reqPresetPop_steady args s))
  | .presetQuery tag args => exact answer_kept tag (same (reqPresetQuery_state args s))
  | .presetPgmQuery tag args => exact answer_kept tag (steady (reqPresetPgmQuery_steady args s))
  | .prbArm tag args => exact answer_kept tag (steady (reqPrbArm_steady args s))
  | .prbCancel tag args => exact answer_kept tag (steady (reqPrbCancel_steady args s))
  | .prbQuery tag args => exact answer_kept tag (same (reqPrbQuery_state args s))
  | .almSet tag args => exact answer_kept tag (steady (reqAlmSet_steady args s))
  | .almOff tag args => exact answer_kept tag (steady (reqAlmOff_steady args s))
  | .almAck tag args => exact answer_kept tag (steady (reqAlmAck_steady args s))
  | .almForceOn tag args => exact answer_kept tag (steady (reqAlmForceOn_steady args s))
  | .almForceOff tag args => exact answer_kept tag (steady (reqAlmForceOff_steady args s))
  | .almQuery tag args => exact answer_kept tag (steady (reqAlmQuery_steady args s))
  | .almListQuery tag args => exact answer_kept tag (same (reqAlmListQuery_state args s))
  | .gpiSet tag args => exact answer_kept tag (steady (reqGpiSet_steady args s))
  | .gpiQuery tag args => exact answer_kept tag (same (reqGpiQuery_state args s))
  | .gpiPop tag args => exact answer_kept tag (steady (reqGpiPop_steady args s))
  | .watchSet tag args => exact answer_kept tag (steady (reqWatchSet_steady args s))
  | .watchQuery tag args => exact answer_kept tag (steady (reqWatchQuery_steady args s))
  | .gpoSet tag args => exact answer_kept tag (steady (reqGpoSet_steady args s))
  | .gpoPolarity tag args => exact answer_kept tag (steady (reqGpoPolarity_steady args s))
  | .gpoHold tag args => exact answer_kept tag (steady (reqGpoHold_steady args s))
  | .gpoQuery tag args => exact answer_kept tag (same (reqGpoQuery_state args s))
  | .capArm tag args => exact answer_kept tag (steady (reqCapArm_steady args s))
  | .capTrig tag args => exact answer_kept tag (steady (reqCapTrig_steady args s))
  | .capRead tag args => exact answer_kept tag (steady (reqCapRead_steady args s))
  | .capRelease tag args => exact answer_kept tag (steady (reqCapRelease_steady args s))
  | .capFree tag args => exact answer_kept tag (steady (reqCapFree_steady args s))
  | .capQuery tag args => exact answer_kept tag (same (reqCapQuery_state args s))
  | .takAdd tag args => exact answer_kept tag (kept (reqTakAdd_kept args s))
  | .takCancel tag args => exact answer_kept tag (kept (reqTakCancel_kept args s))
  | .takQuery tag args => exact answer_kept tag (same (reqTakQuery_state args s))
  | .takListQuery tag args => exact answer_kept tag (same (reqTakListQuery_state args s))
  | .helloQuery tag args => exact answer_kept tag (kept (reqHelloQuery_kept args s))
  | .gateClose tag args => exact answer_kept tag (kept (reqGateClose_kept args s))
  | .gateOpen tag args => exact answer_kept tag (reqGateOpen_kept args s)
  | .save tag args => exact answer_kept tag (kept (reqSave_kept args s))

/-! ### Commands -/

/-- A line of the link is received. -/
theorem exec_line (i : Instr) (s : State) (h : isLine i = true) : exec i s = receive i (runLine i) s := by
  cases i
  all_goals cases h
  all_goals rfl

/-- What each event of the part or at a pin runs; a line is no event. -/
def runEvent : Instr → State → State
  | .powerOn b a => powerOn b a
  | .resetnRelease b a => resetnRelease b a
  | .houseSample => houseSample
  | .subBlockClose => subBlockClose
  | .multiplierRampEnd p => multiplierRampEnd p
  | .gpiSampleInstant levels => gpiSampleInstant levels
  | .frefPulse phase => frefPulse phase
  | .flywheelBoundary => flywheelBoundary
  | .missingPulseExpiry => missingPulseExpiry
  | .frameEdge i phase words => frameEdge i phase words
  | .windowClose i => windowClose i
  | .signalExpiry i => signalExpiry i
  | .laneFadeInEnd k => laneFadeInEnd k
  | .changeoverSwitch p => changeoverSwitch p
  | .outputFadeUpEnd p => outputFadeUpEnd p
  | .slewStep p => slewStep p
  | .jumpBottom p => jumpBottom p
  | .jumpFadeUpEnd p => jumpFadeUpEnd p
  | .alarmScan => alarmScan
  | .envelopeWindow => envelopeWindow
  | .probeSearchComplete => probeSearchComplete
  | .probeTimeout => probeTimeout
  | .captureComplete c => captureComplete c
  | .saveComplete ok => saveComplete ok
  | .txLineSent => txLineSent
  | .powerLoss => powerLoss
  | _ => id

/-- An event acts while the supply is present, POWER_ON always (log entry 18). -/
theorem exec_event (i : Instr) (s : State) (h : isLine i = false) (on : ∀ b a, i ≠ .powerOn b a) :
    exec i s = event (runEvent i) s := by
  cases i
  case powerOn b a => exact absurd rfl (on b a)
  all_goals cases h
  all_goals rfl

/-- Every event but a house sample, a start and the sending of a line. -/
theorem runEvent_kept (i : Instr) (s : State) (on : ∀ b a, i ≠ .powerOn b a) (reset : ∀ b a, i ≠ .resetnRelease b a)
    (sample : i ≠ .houseSample) (sent : i ≠ .txLineSent) : Kept 0 s (runEvent i s) := by
  match i with
  | .powerOn b a => exact absurd rfl (on b a)
  | .resetnRelease b a => exact absurd rfl (reset b a)
  | .houseSample => exact absurd rfl sample
  | .txLineSent => exact absurd rfl sent
  | .frefPulse phase => exact frefPulse_kept phase s
  | .flywheelBoundary => exact flywheelBoundary_kept s
  | .missingPulseExpiry => exact missingPulseExpiry_kept s
  | .saveComplete ok => exact saveComplete_kept ok s
  | .powerLoss => exact powerLoss_kept s
  | .subBlockClose => exact .of_steady (subBlockClose_steady s)
  | .multiplierRampEnd p => exact .of_steady (multiplierRampEnd_steady p s)
  | .gpiSampleInstant levels => exact .of_steady (gpiSampleInstant_steady levels s)
  | .frameEdge i phase words => exact .of_steady (frameEdge_steady i phase words s)
  | .windowClose i => exact .of_steady (windowClose_steady i s)
  | .signalExpiry i => exact .of_steady (signalExpiry_steady i s)
  | .laneFadeInEnd k => exact .of_steady (laneFadeInEnd_steady k s)
  | .changeoverSwitch p => exact .of_steady (changeoverSwitch_steady p s)
  | .outputFadeUpEnd p => exact .of_steady (outputFadeUpEnd_steady p s)
  | .slewStep p => exact .of_steady (.of_dlyMoves (slewStep_moves p s))
  | .jumpBottom p => exact .of_steady (.of_dlyMoves (jumpBottom_moves p s))
  | .jumpFadeUpEnd p => exact .of_steady (.of_dlyMoves (jumpFadeUpEnd_moves p s))
  | .alarmScan => exact .of_steady (alarmScan_steady s)
  | .envelopeWindow => exact .of_steady (envelopeWindow_steady s)
  | .probeSearchComplete => exact .of_steady (probeSearchComplete_steady s)
  | .probeTimeout => exact .of_steady (probeTimeout_steady s)
  | .captureComplete c => exact .of_steady (captureComplete_steady c s)
  | .lineTooLong | .unknownVerb _ | .badLine _ | .restartProc _ _ | .restartFull _ _ | .timeQuery _ _ | .refSet _ _
  | .refQuery _ _ | .portQuery _ _ | .laneSet _ _ | .laneQuery _ _ | .pgmDefine _ _ | .pgmRun _ _ | .pgmPark _ _
  | .pgmDelete _ _ | .pgmMode _ _ | .pgmSource _ _ | .pgmRevert _ _ | .pgmQuery _ _ | .dlyVideo _ _ | .dlyTrim _ _
  | .dlyMotion _ _ | .dlyQuery _ _ | .mtrQuery _ _ | .mtrBinsQuery _ _ | .mtrReset _ _ | .presetSet _ _
  | .presetRecall _ _ | .presetPush _ _ | .presetPop _ _ | .presetQuery _ _ | .presetPgmQuery _ _ | .prbArm _ _
  | .prbCancel _ _ | .prbQuery _ _ | .almSet _ _ | .almOff _ _ | .almAck _ _ | .almForceOn _ _ | .almForceOff _ _
  | .almQuery _ _ | .almListQuery _ _ | .gpiSet _ _ | .gpiQuery _ _ | .gpiPop _ _ | .watchSet _ _ | .watchQuery _ _
  | .gpoSet _ _ | .gpoPolarity _ _ | .gpoHold _ _ | .gpoQuery _ _ | .capArm _ _ | .capTrig _ _ | .capRead _ _
  | .capRelease _ _ | .capFree _ _ | .capQuery _ _ | .takAdd _ _ | .takCancel _ _ | .takQuery _ _ | .takListQuery _ _
  | .helloQuery _ _ | .gateClose _ _ | .gateOpen _ _ | .save _ _ => exact .of_eq rfl

/-- What every command keeps: the queue and the bounds of `Safety`. -/
structure Bounds (s t : State) : Prop where
  pending : t.pending = s.pending
  link : LinkBounded s → LinkBounded t
  stores : StoresBounded s → StoresBounded t
  gain : GainHeld s → GainHeld t
  takes : TakesOrdered s → TakesOrdered t

namespace Bounds
variable {s t u : State}

theorem refl (s : State) : Bounds s s := ⟨rfl, id, id, id, id⟩

theorem trans (h : Bounds s t) (k : Bounds t u) : Bounds s u :=
  ⟨k.pending.trans h.pending, fun a => k.link (h.link a), fun a => k.stores (h.stores a), fun a => k.gain (h.gain a),
    fun a => k.takes (h.takes a)⟩

/-- An event sends nothing but notices, which go to the FIFO up to 40 lines. -/
theorem of_kept (h : Kept 0 s t) : Bounds s t := by
  refine ⟨h.pending, fun ⟨fifo, held⟩ => ?_, h.stores, h.gain, h.takes⟩
  obtain ⟨held', fifo'⟩ := h.link held
  exact ⟨by omega, held'⟩

/-- A line is taken while the FIFO holds 40 lines or fewer, and leaves room for what it sends. -/
theorem of_line (h : Kept 18 s t) (room : s.link.fifo.length ≤ 40) : Bounds s t := by
  refine ⟨h.pending, fun ⟨_, held⟩ => ?_, h.stores, h.gain, h.takes⟩
  obtain ⟨held', fifo'⟩ := h.link held
  exact ⟨by omega, held'⟩

end Bounds

/-- R194: a start meets the bounds whatever it follows, and keeps the table of the store in range. -/
theorem start_bounds (cause : StartCause) (b a : Bool) (store : Store) (s : State)
    (h : GainHeld s → ∀ img crc, store = .image img crc → tableInRange img.presets) : Bounds s (start cause b a store s) := by
  have steady := start_steady cause b a store s
  have loaded : Kept 0 (loadAll cause b a store s) (start cause b a store s) := .of_steady steady
  refine ⟨loaded.pending, fun _ => ?_, fun _ => ?_, fun gain => ?_, fun _ => ?_⟩
  · obtain ⟨held, fifo⟩ := loaded.link (Nat.zero_le _)
    exact ⟨fifo.trans (by show max 0 40 + 0 ≤ 64; decide), held⟩
  · exact loaded.stores ⟨List.length_replicate, Nat.zero_le _⟩
  · exact loaded.gain (loadAll_gainHeld cause b a store s (h gain))
  · exact loaded.takes ⟨Nat.zero_le _, List.Pairwise.nil, fun _ h => (List.not_mem_nil h).elim, List.Pairwise.nil⟩

theorem takeRestartFull_bounds (tag : Nat) (args : List Tok) (s : State) (room : s.link.fifo.length ≤ 40) :
    Bounds s (takeRestartFull tag args s) := by
  have replied (tag : Option Nat) (r : Reply) : Bounds s (s.sendReply tag r) :=
    .of_line ((sendReply_kept tag r s).mono (by decide)) room
  unfold takeRestartFull
  split
  · exact replied _ _
  split
  · exact replied _ _
  split
  · exact replied _ _
  · have started := start_bounds .full s.pins.baudsel s.pins.atnpol s.profile.store s fun gain => gain.2.1.1
    have sent (t : State) (x : List Line) : Bounds t (t.updLink fun l => { l with txd := x }) := ⟨rfl, id, id, id, id⟩
    exact started.trans (sent _ _)

theorem runLine_bounds (i : Instr) (s : State) (room : s.link.fifo.length ≤ 40) : Bounds s (runLine i s) := by
  by_cases full : ∃ tag args, i = .restartFull tag args
  · obtain ⟨tag, args, rfl⟩ := full
    exact takeRestartFull_bounds tag args s room
  · exact .of_line (runLine_kept i s fun tag args e => full ⟨tag, args, e⟩) room

/-- R188: what waits is taken only while the FIFO holds 40 lines or fewer. -/
theorem takeWaiting_bounds (n : Nat) (s : State) : Bounds s (takeWaiting n s) := by
  induction n generalizing s with
  | zero => exact .refl s
  | succ n ih =>
    unfold takeWaiting
    split
    · exact .refl s
    next i rest _ =>
      split
      next room =>
        have popped : Bounds s (s.updLink fun l => { l with waiting := rest }) := ⟨rfl, id, id, id, id⟩
        exact (popped.trans (runLine_bounds i _ room)).trans (ih _)
      · exact .refl s

theorem txLineSent_bounds (s : State) : Bounds s (txLineSent s) := by
  unfold txLineSent
  split
  · exact .refl s
  next x rest fifo =>
    have left : Bounds s (s.updLink fun l => { l with fifo := rest, txd := [x] }) := by
      refine ⟨rfl, fun ⟨few, held⟩ => ⟨?_, held⟩, id, id, id⟩
      rw [fifo, List.length_cons] at few
      exact Nat.le_of_succ_le few
    exact left.trans (takeWaiting_bounds _ _)

theorem houseSample_bounds (s : State) : Bounds s (houseSample s) := by
  have whole : Kept 0 { s with hc := s.hc + 1 } (houseSample s) := .of_steady (houseSample_steady s)
  have advanced : Bounds s { s with hc := s.hc + 1 } := ⟨rfl, id, id, id, id⟩
  exact advanced.trans (.of_kept whole)

theorem runEvent_bounds (i : Instr) (s : State) : Bounds s (runEvent i s) := by
  by_cases h : (∃ b a, i = .powerOn b a) ∨ (∃ b a, i = .resetnRelease b a) ∨ i = .houseSample ∨ i = .txLineSent
  · obtain ⟨b, a, rfl⟩ | ⟨b, a, rfl⟩ | rfl | rfl := h
    · exact start_bounds _ _ _ _ s fun gain => Profile.interrupted_inRange gain.2.1
    · exact start_bounds _ _ _ _ s fun gain => Profile.interrupted_inRange gain.2.1
    · exact houseSample_bounds s
    · exact txLineSent_bounds s
  · exact .of_kept (runEvent_kept i s (fun b a e => h (.inl ⟨b, a, e⟩)) (fun b a e => h (.inr (.inl ⟨b, a, e⟩)))
      (fun e => h (.inr (.inr (.inl e)))) fun e => h (.inr (.inr (.inr e))))

/-- Every command answers a next state, and keeps the queue and the bounds. -/
theorem exec_bounds (i : Instr) (s : State) : ∃ t, exec i s = .next t ∧ Bounds s t := by
  have acted (f : State → State) (h : Bounds s (f s)) : ∃ t, event f s = .next t ∧ Bounds s t := by
    unfold event
    split
    · exact ⟨s, rfl, .refl s⟩
    · exact ⟨f s, rfl, h⟩
  cases line : isLine i with
  | false =>
    by_cases on : ∃ b a, i = .powerOn b a
    · obtain ⟨b, a, rfl⟩ := on
      exact ⟨_, rfl, runEvent_bounds (.powerOn b a) s⟩
    · rw [exec_event i s line fun b a e => on ⟨b, a, e⟩]
      exact acted _ (runEvent_bounds i s)
  | true =>
    rw [exec_line i s line]
    unfold receive
    split
    · exact ⟨s, rfl, .refl s⟩
    · split
      next ready => exact ⟨_, rfl, runLine_bounds i s ready.1⟩
      · exact ⟨_, rfl, rfl, id, id, id, id⟩

theorem step_bounds {s t : State} (h : step s = .next t) : ∃ q, Bounds (s.withPending q) t := by
  unfold step at h
  split at h
  · obtain rfl := Host.Outcome.next.inj h
    exact ⟨s.pending, .refl s⟩
  next i rest _ =>
    obtain ⟨u, next, bounds⟩ := exec_bounds i (s.withPending rest)
    rw [next] at h
    obtain rfl := Host.Outcome.next.inj h
    exact ⟨rest, bounds⟩

/-! ### The statements -/

/-- Settles O1. -/
theorem stepRunsFrontCommand : Obligations.StepRunsFrontCommand := fun _ _ _ => rfl

/-- Settles O3. -/
theorem linkStaysBounded : Obligations.LinkStaysBounded := by
  intro s t h next
  obtain ⟨q, bounds⟩ := step_bounds next
  exact bounds.link h

/-- Settles O4. -/
theorem storesStayBounded : Obligations.StoresStayBounded := by
  intro s t h next
  obtain ⟨q, bounds⟩ := step_bounds next
  exact bounds.stores h

/-- Settles O5. -/
theorem gainStaysInPresetRange : Obligations.GainStaysInPresetRange := by
  intro s t h next
  obtain ⟨q, bounds⟩ := step_bounds next
  exact bounds.gain h

/-- Settles O6. -/
theorem takeQueueStaysOrdered : Obligations.TakeQueueStaysOrdered := by
  intro s t h next
  obtain ⟨q, bounds⟩ := step_bounds next
  exact bounds.takes h

/-- Settles O7: the table is the factory one, and no programme is defined. -/
theorem resetMeetsBounds : Obligations.ResetMeetsBounds := by
  refine ⟨⟨Nat.zero_le _, Nat.zero_le _⟩, ⟨List.length_replicate, Nat.zero_le _⟩, ?table,
    ⟨Nat.zero_le _, List.Pairwise.nil, fun _ h => (List.not_mem_nil h).elim, List.Pairwise.nil⟩⟩
  rw [GainHeld_iff]
  refine ⟨factory_inRange, ⟨fun _ _ e => (nomatch e), fun _ e => (nomatch e)⟩, fun p defined => absurd ?undefined defined⟩
  have table : State.reset.pgms = Vector.replicate 8 Pgm.undefined := rfl
  rw [table, Fin.getElem_fin, Vector.getElem_replicate]
  rfl

/-- R1, R194: of the lines RESTART FULL alone moves HC. -/
theorem runLine_hc (i : Instr) (s : State) (h : ∀ tag args, i ≠ .restartFull tag args) : (runLine i s).hc = s.hc :=
  (runLine_kept i s h).hc

/-- With no line waiting the sending of a line leaves HC. -/
theorem txLineSent_hc (s : State) (h : s.link.waiting = []) : (txLineSent s).hc = s.hc := by
  unfold txLineSent
  split
  · rfl
  · rw [h]; rfl

/-- R1: what an event that is no start makes of HC. -/
theorem runEvent_hc (i : Instr) (s : State) (on : ∀ b a, i ≠ .powerOn b a) (reset : ∀ b a, i ≠ .resetnRelease b a)
    (sent : i = .txLineSent → s.link.waiting = []) :
    (runEvent i s).hc = if i = .houseSample then s.hc + 1 else s.hc := by
  split
  next sample => rw [sample]; exact (houseSample_steady s).hc
  next other =>
    by_cases tx : i = .txLineSent
    · rw [tx]; exact txLineSent_hc s (sent tx)
    · exact (runEvent_kept i s on reset other tx).hc

/-- Settles O2. -/
theorem everyCommandAnswersNext : Obligations.EveryCommandAnswersNext := by
  intro c s
  obtain ⟨t, next, bounds⟩ := exec_bounds c s
  refine ⟨t, next, bounds.pending, fun on reset full sent => ?_⟩
  cases line : isLine c with
  | false =>
    rw [exec_event c s line on] at next
    unfold event at next
    split at next
    next off =>
      obtain rfl := Host.Outcome.next.inj next
      simp [off]
    next supplied =>
      obtain rfl := Host.Outcome.next.inj next
      rw [runEvent_hc c s on reset sent]
      simp [supplied]
  | true =>
    have other : c ≠ .houseSample := by rintro rfl; exact nomatch line
    rw [if_neg fun h => other h.1]
    rw [exec_line c s line] at next
    unfold receive at next
    split at next
    · obtain rfl := Host.Outcome.next.inj next
      rfl
    · split at next <;> obtain rfl := Host.Outcome.next.inj next
      · exact runLine_hc c s full
      · rfl

end Sys2Proof.Machine
end

section
/-! SUPPORT, O9, O11 and O13. How a request is answered, REF SET, the flywheel, and a boundary with no entry due. -/

namespace Sys2Proof.Machine

/-! ### Requests of a part that takes a line at once -/

section requests
variable {i : Instr} {tag : Nat} {f : State → Answer} {s : State} (ready : Ready s) (ht : tag ≤ 9999)
include ready ht

/-- R187, R188: a request that its block answers OK. -/
theorem receive_okFlags {t : State} {fields : List Fld} {flags : List RFlag} (h : f s = (.ok fields flags, t)) :
    receive i (fun s => s.answer tag f) s = .next (t.okTo tag fields flags) := by
  rw [receive_answer i tag f s ready ht, h]

theorem receive_ok {t : State} {fields : List Fld} (h : f s = okReply fields t) :
    receive i (fun s => s.answer tag f) s = .next (t.okTo tag fields) := receive_okFlags ready ht h

/-- R187, R188: a request that its block refuses. -/
theorem receive_er {e : ErrCode} (h : f s = refuse e s) : receive i (fun s => s.answer tag f) s = .next (s.erTo tag e) := by
  rw [receive_answer i tag f s ready ht, h]; rfl

end requests

/-! ### REF SET (R6) -/

theorem reqRefSet_same (s : State) (t : Tok) (h : Tok.rate? t = some s.ref.rate) : reqRefSet [t] s = okReply [] s := by
  simp [reqRefSet, h]

/-- R6: the nominal rate and the tracked period of a new rate. -/
def State.atRate (s : State) (r : FrameRate) : State := s.updRef fun x => { x with rate := r, tracked := r.period }

theorem reqRefSet_idle (s : State) (t : Tok) (r : FrameRate) (read : Tok.rate? t = some r) (new : r ≠ s.ref.rate)
    (idle : s.ref.state = .free ∨ s.ref.state = .lost) : reqRefSet [t] s = okReply [] (refly (s.atRate r)) := by
  obtain h | h := idle <;> simp [reqRefSet, read, new, h, State.atRate]

theorem reqRefSet_busy (s : State) (t : Tok) (r : FrameRate) (read : Tok.rate? t = some r) (new : r ≠ s.ref.rate)
    (busy : s.ref.state = .acquiring ∨ s.ref.state = .locked) :
    reqRefSet [t] s = okReply [] ((s.atRate r).updRef Ref.restart) := by
  obtain h | h := busy <;> simp [reqRefSet, read, new, h, State.atRate]

theorem frameBoundary_tracked (pos : TickPos) (o : Kw) (s : State) : (frameBoundary pos o s).ref.tracked = s.ref.tracked := by
  rw [frameBoundary_ref]; rfl

/-- Settles O9. -/
theorem refSetChangesRate : Obligations.RefSetChangesRate := by
  intro s tag t r ready ht read P gen
  refine ⟨fun same => ?same, fun new idle reached => ?waits, fun new idle passed near => ?now, fun q new busy last => ?restarts⟩
  case same =>
    exact receive_ok ready ht (reqRefSet_same s t (same ▸ read))
  case waits =>
    refine receive_ok ready ht ((reqRefSet_idle s t r read new idle).trans (congrArg (okReply []) ?_))
    have no : ¬ (gen ≠ s.now ∧ notBefore gen s.now = true) := by
      rintro ⟨other, near⟩
      exact reached.elim other fun far => far (of_decide_eq_true near)
    exact if_neg no
  case now =>
    refine receive_ok ready ht ((reqRefSet_idle s t r read new idle).trans (congrArg (okReply []) ?_))
    have yes : gen ≠ s.now ∧ notBefore gen s.now = true := ⟨passed, decide_eq_true near⟩
    refine (if_pos yes).trans (State.updRef_congr ?_)
    rw [frameBoundary_tracked]
    rfl
  case restarts =>
    refine receive_ok ready ht ((reqRefSet_busy s t r read new busy).trans (congrArg (okReply []) ?_))
    simp only [State.atRate, State.updRef, Ref.restart, last, Option.getD_some, missingInterval]
    rfl

/-! ### The flywheel (R11, R12) -/

@[simp] theorem atInstant_ref (s : State) (x : TickPos) : (s.atInstant x).ref = s.ref := by
  unfold State.atInstant
  split <;> rfl

/-- Settles O11. -/
theorem flywheelMakesBoundaries : Obligations.FlywheelMakesBoundaries := by
  intro s powered
  refine ⟨fun x next reached => ?made, fun early => ?early, fun x q expiry reached last => ?lost, fun early => ?quiet⟩
  case made =>
    have made : flywheelBoundary s = (frameBoundary x .FLYWHEEL (s.atInstant x)).updRef fun r =>
        { r with nextGen := some (later x r.tracked) } := by
      simp only [flywheelBoundary, next, reached, if_true]
    refine (event_powered _ s powered).trans (congrArg _ (made.trans (State.updRef_congr ?_)))
    rw [frameBoundary_tracked, atInstant_ref]
  case early =>
    refine (event_powered _ s powered).trans (congrArg _ ?_)
    unfold flywheelBoundary
    split
    next x next => rw [early x next]; rfl
    · rfl
  case lost =>
    have lost : missingPulseExpiry s = refNotice (frameBoundary x .FLYWHEEL ((s.atInstant x).updRef Ref.lose)) := by
      simp only [missingPulseExpiry, expiry, reached, if_true]
    have record : (s.atInstant x).updRef Ref.lose = (s.atInstant x).updRef fun r =>
        { r with state := .lost, expiry := none, nextGen := some (later q (2 * s.ref.tracked)) } := by
      refine State.updRef_congr ?_
      simp only [Ref.lose, atInstant_ref, last, Option.getD_some]
    refine (event_powered _ s powered).trans (congrArg _ (lost.trans ?_))
    rw [record]
    unfold refNotice
    rw [frameBoundary_ref, State.updRef_ref, atInstant_ref]
    rfl
  case quiet =>
    refine (event_powered _ s powered).trans (congrArg _ ?_)
    unfold missingPulseExpiry
    split
    next x expiry => rw [early x expiry]; rfl
    · rfl

/-! ### A boundary with no entry due (R50, R72) -/

theorem dueEntries_eq_nil (s : State) (h : ∀ e, s.takes.head? = some e → e.due ≠ s.fc) : s.dueEntries = [] := by
  unfold State.dueEntries
  cases takes : s.takes with
  | nil => rfl
  | cons e es =>
    have far := h e (by rw [takes]; rfl)
    simp [far]

/-- R13: without an entry due the controller takes the boundary, and behind it the delay lines. -/
theorem frameBoundary_nothing_due (pos : TickPos) (o : Kw) (s : State)
    (h : ∀ e, s.takes.head? = some e → e.due ≠ s.fc + 1) :
    frameBoundary pos o s = lineBoundary (takeController (s.raised pos)) := by
  have none : (s.raised pos).dueEntries = [] := dueEntries_eq_nil _ h
  obtain h | ⟨moves, -⟩ := frameBoundary_cases pos o s
  · rw [h]
    unfold takeThenLines applyTake
    rw [none]
    rfl
  · rw [State.takeMovesLine, none] at moves
    exact nomatch moves

/-- R50: the controller moves controller records alone. -/
theorem controllerBoundary_frame (s : State) : controllerBoundary s = { s with pgms := (controllerBoundary s).pgms } := by
  refine foldl_keeps (fun t : State => t = { s with pgms := t.pgms }) _ (fun t p h => ?_) _ _ rfl
  split
  · rw [h]; rfl
  · exact h

theorem takeController_frame (s : State) :
    takeController s = { s with boundaryHere := true, pgms := (takeController s).pgms } := by
  unfold takeController
  rw [controllerBoundary_frame s]

/-- R72: the delay lines move delay records alone at a boundary. -/
theorem lineBoundary_frame (s : State) : lineBoundary s = { s with pgms := (lineBoundary s).pgms } := by
  refine foldl_keeps (fun t : State => t = { s with pgms := t.pgms }) _ (fun t p h => ?_) _ _ rfl
  dsimp only
  split
  · rw [h]; rfl
  · exact h

/-- R72: the delay record of a programme behind a frame boundary. -/
def Pgm.lineBounded (g : Pgm) : Pgm :=
  if g.ctl.state = .running ∧ g.dly.motion = .still ∧ g.dly.dTarget ≠ g.dly.dApp then { g with dly := g.dly.start } else g

theorem Pgm.lineBounded_eq (g : Pgm) :
    g.lineBounded = { g with dly :=
      if g.ctl.state = .running ∧ g.dly.motion = .still ∧ g.dly.dTarget ≠ g.dly.dApp then g.dly.start else g.dly } := by
  unfold Pgm.lineBounded
  split <;> rfl

theorem Ctl.bounded_state (c : Ctl) : c.bounded.state = c.state := by
  unfold Ctl.bounded
  split
  · exact c.atBoundary_state
  · rfl

theorem lineBoundary_pgm (s : State) (q : ProgId) : (lineBoundary s).pgms[q] = s.pgms[q].lineBounded := by
  refine foldl_allProgs (fun _ => True)
    (fun s p => if s.pgms[p].ctl.state = .running ∧ s.pgms[p].dly.motion = .still ∧
      s.pgms[p].dly.dTarget ≠ s.pgms[p].dly.dApp then s.updDly p Delay.start else s)
    (fun _ g => g.lineBounded) (fun t p _ => ?_) (fun t p q _ ne => ?_) (fun _ _ _ => trivial) s trivial q
  · unfold Pgm.lineBounded
    split
    · exact State.updDly_self t p Delay.start
    · rfl
  · split
    · exact State.updDly_ne t ne Delay.start
    · rfl

/-- R72: a motion starts by the mode the line chooses. -/
theorem Delay.start_eq (d : Delay) :
    d.start =
      if d.motionMode = .slew ∨ (d.motionMode = .auto ∧ ((d.dTarget : Int) - d.dApp).natAbs ≤ 960) then
        { d with motion := .slewing, slewCount := 0 }
      else { d with motion := .fadingDown, jumpPos := 0 } := by
  unfold Delay.start
  cases d.motionMode with
  | slew => simp
  | jump => simp
  | auto => simp [absDiff_eq_natAbs, Config.autoSlewLimit]

/-- R50, R72: the record of a programme behind a boundary with no entry due, branch by branch. -/
theorem Pgm.bounded_eq (g : Pgm) :
    ({ g with ctl := g.ctl.bounded } : Pgm).lineBounded =
      { g with
        ctl :=
          if g.ctl.state = .running ∧ g.ctl.out = .waiting then
            if g.ctl.realParts g.ctl.pending = Change.empty then { g.ctl with out := .opened, pending := Change.empty }
            else { g.ctl with out := .fadingDown, fadePos := 0, begunLate := false,
                              inflight := some (g.ctl.realParts g.ctl.pending), pending := Change.empty }
          else g.ctl
        dly :=
          if g.ctl.state = .running ∧ g.dly.motion = .still ∧ g.dly.dTarget ≠ g.dly.dApp then
            if g.dly.motionMode = .slew ∨
                (g.dly.motionMode = .auto ∧ ((g.dly.dTarget : Int) - g.dly.dApp).natAbs ≤ 960) then
              { g.dly with motion := .slewing, slewCount := 0 }
            else { g.dly with motion := .fadingDown, jumpPos := 0 }
          else g.dly } := by
  rw [Pgm.lineBounded_eq]
  dsimp only
  rw [Ctl.bounded_state, Delay.start_eq]
  rfl

theorem State.raised_pgms (s : State) (pos : TickPos) : (s.raised pos).pgms = s.pgms := rfl

/-- Settles O13. -/
theorem boundaryStartsFadesAndMotions : Obligations.BoundaryStartsFadesAndMotions := by
  intro s pos o none t
  have whole : t = lineBoundary (takeController (s.raised pos)) := frameBoundary_nothing_due pos o s none
  clear_value t
  refine ⟨?frame, fun p => ?record⟩
  case frame =>
    have moved : t = { takeController (s.raised pos) with pgms := t.pgms } := by
      rw [whole]
      exact lineBoundary_frame _
    rw [takeController_frame] at moved
    exact moved
  case record =>
    have record : t.pgms[p] = ({ s.pgms[p] with ctl := s.pgms[p].ctl.bounded } : Pgm).lineBounded := by
      rw [whole, lineBoundary_pgm, takeController_pgms, controllerBoundary_pgm, State.raised_pgms]
    exact record.trans (Pgm.bounded_eq _)

end Sys2Proof.Machine
end

section
/-! SUPPORT, O8 and O17. The house sample, block by block, and the ends of fades and ramps. -/

namespace Sys2Proof.Machine

/-! ### Folds over tables -/

/-- A fold that sets each entry of a table from its index alone. -/
theorem getElem_foldl_set {α : Type} {n : Nat} (f : Fin n → α) (ks : List (Fin n)) (v : Vector α n) (j : Fin n) :
    (ks.foldl (fun v (k : Fin n) => v.set k.val (f k)) v)[j] = if j ∈ ks then f j else v[j] := by
  induction ks generalizing v with
  | nil => simp
  | cons k ks ih =>
    rw [List.foldl_cons, ih]
    by_cases later : j ∈ ks
    · simp [later]
    · by_cases e : j = k
      · subst e; simp [later]
      · have apart : (k : Nat) ≠ j := fun h => e (Fin.ext h.symm)
        simp [later, e, Vector.getElem_set_ne, apart]

theorem mem_allLines (l : LineId) : l ∈ allLines := by revert l; decide
theorem allLines_nodup : allLines.Nodup := by decide
theorem mem_allSlots (c : SlotId) : c ∈ allSlots := by revert c; decide
theorem allSlots_nodup : allSlots.Nodup := by decide

@[simp] theorem getElem_updSlot (s : State) (j c : SlotId) (f : Slot → Slot) :
    (s.updSlot j f).slots[c] = if j = c then f s.slots[c] else s.slots[c] := by
  by_cases h : j = c
  · subst h; simp [State.updSlot]
  · have : (j : Nat) ≠ c := fun e => h (Fin.ext e)
    simp [State.updSlot, Vector.getElem_set_ne, this, h]

/-! ### The words of the house sample (R30, R34, R44) -/

/-- The words of every lane are fixed. -/
theorem formAll_frame (s : State) : formLanesOf allLanes s = { s with lanes := (formLanesOf allLanes s).lanes } :=
  (formLanesOf_eq s allLanes allLanes_nodup).1

theorem formAll_lane (s : State) (k : LaneId) : (formLanesOf allLanes s).lanes[k] = laneFormed s k := by
  rw [(formLanesOf_eq s allLanes allLanes_nodup).2 k, if_pos (mem_allLanes k)]

theorem formAll_pgms (s : State) : (formLanesOf allLanes s).pgms = s.pgms := by rw [formAll_frame]
theorem formAll_owners (s : State) : (formLanesOf allLanes s).owners = s.owners := by rw [formAll_frame]

/-- R44: the outputs delivered move the output pins alone. -/
theorem deliverOutputs_frame (s : State) :
    deliverOutputs s = { s with pins := { s.pins with out := (deliverOutputs s).pins.out } } := rfl

theorem deliverOutputs_out (s : State) (k : LaneId) :
    (deliverOutputs s).pins.out[k] = s.lanes[k].outLatch.getD s.programmeWords[k] := by
  unfold deliverOutputs
  dsimp only [State.updPins]
  rw [getElem_foldl_set (fun k => s.outputWord s.programmeWords k), if_pos (mem_allLanes k)]
  rfl

/-- R44: a channel outside the lanes of a programme keeps its word. -/
theorem foldl_channels_other (ws : List (LaneId × Sample)) (out : Vector Sample 24) (k : LaneId)
    (h : k ∉ ws.map (·.1)) : (ws.foldl (fun out kw => out.set kw.1 kw.2) out)[k] = out[k] := by
  induction ws generalizing out with
  | nil => rfl
  | cons w ws ih =>
    simp only [List.map_cons, List.mem_cons, not_or] at h
    rw [List.foldl_cons, ih _ h.2]
    have apart : (w.1 : Nat) ≠ k := fun e => h.1 (Fin.ext e.symm)
    simp [Vector.getElem_set_ne, apart]

/-- R44: a channel of a lane that is listed once carries the word at its place. -/
theorem foldl_channels_own (ws : List (LaneId × Sample)) (out : Vector Sample 24) (i : Nat) (k : LaneId) (w : Sample)
    (once : (ws.map (·.1)).Nodup) (at_i : ws[i]? = some (k, w)) :
    (ws.foldl (fun out kw => out.set kw.1 kw.2) out)[k] = w := by
  induction ws generalizing out i with
  | nil => simp at at_i
  | cons x ws ih =>
    simp only [List.map_cons, List.nodup_cons] at once
    rw [List.foldl_cons]
    cases i with
    | zero =>
      obtain rfl : x = (k, w) := by simpa using at_i
      rw [foldl_channels_other _ _ _ once.1]
      simp
    | succ i => exact ih _ i once.2 (by simpa using at_i)

/-- R44: what one programme adds to the output words. -/
def State.withChannels (s : State) (out : Vector Sample 24) (p : ProgId) : Vector Sample 24 :=
  if s.pgms[p].ctl.state = .running then
    (s.pgms[p].ctl.lanes.zip (channelWords s.pgms[p] (s.laneWords p))).foldl (fun out kw => out.set kw.1 kw.2) out
  else out

theorem State.programmeWords_eq (s : State) : s.programmeWords = allProgs.foldl s.withChannels (Vector.replicate 24 0) := rfl

theorem State.withChannels_other (s : State) (out : Vector Sample 24) (p : ProgId) (k : LaneId)
    (h : s.pgms[p].ctl.state = .running → k ∉ s.pgms[p].ctl.lanes) : (s.withChannels out p)[k] = out[k] := by
  unfold State.withChannels
  split
  next running =>
    refine foldl_channels_other _ _ _ fun mem => h running ?_
    obtain ⟨w, listed, rfl⟩ := List.mem_map.mp mem
    exact (List.of_mem_zip listed).1
  · rfl

theorem State.foldl_withChannels_other (s : State) (ps : List ProgId) (out : Vector Sample 24) (k : LaneId)
    (h : ∀ p ∈ ps, s.pgms[p].ctl.state = .running → k ∉ s.pgms[p].ctl.lanes) :
    (ps.foldl s.withChannels out)[k] = out[k] := by
  induction ps generalizing out with
  | nil => rfl
  | cons p ps ih =>
    rw [List.foldl_cons, ih _ fun q hq => h q (List.mem_cons_of_mem _ hq)]
    exact s.withChannels_other out p k (h p List.mem_cons_self)

/-- R44: a channel whose lane is in the list of no RUNNING programme carries 0. -/
theorem State.programmeWords_none (s : State) (k : LaneId)
    (h : ∀ p : ProgId, s.pgms[p].ctl.state = .running → k ∉ s.pgms[p].ctl.lanes) : s.programmeWords[k] = 0 := by
  rw [State.programmeWords_eq, s.foldl_withChannels_other allProgs _ k fun p _ => h p]
  simp

/-! ### The records of the house sample -/

/-- R168: a slot's record behind a house sample. -/
def State.slotRecorded (s : State) (c : SlotId) (x : Slot) : Slot :=
  match x.pgm with
  | some p => x.record s.hc (s.slotPages c / x.lanes * Config.pageWords) (s.pgms[p].ctl.lanes.map fun k => s.pins.out[k])
  | none => x

/-- R168: the slots move their own records alone. -/
theorem recordSlots_eq (s : State) (cs : List SlotId) (nodup : cs.Nodup) :
    cs.foldl recordSlot s = { s with slots := (cs.foldl recordSlot s).slots } ∧
      ∀ c : SlotId, (cs.foldl recordSlot s).slots[c] = if c ∈ cs then s.slotRecorded c s.slots[c] else s.slots[c] := by
  have one : ∀ (t : State) (c : SlotId), recordSlot t c = t.updSlot c (t.slotRecorded c) := by
    intro t c
    unfold recordSlot
    split
    next p named =>
      refine congrArg (fun x => ({ t with slots := t.slots.set c x } : State)) ?_
      simp only [State.slotRecorded, named]
      rfl
    next unnamed =>
      have same : t.slotRecorded c t.slots[c] = t.slots[c] := by simp only [State.slotRecorded, unnamed]
      unfold State.updSlot
      rw [same]
      simp
  induction cs generalizing s with
  | nil => exact ⟨rfl, fun c => by simp⟩
  | cons d cs ih =>
    obtain ⟨fresh, nodup⟩ := List.nodup_cons.mp nodup
    obtain ⟨frame, slot⟩ := ih (recordSlot s d) nodup
    rw [List.foldl_cons]
    refine ⟨?_, fun c => ?_⟩
    · rw [frame, one]; rfl
    · have rest : (recordSlot s d).slotRecorded c = s.slotRecorded c := by rw [one]; rfl
      rw [slot c, rest, one, getElem_updSlot]
      by_cases e : c = d
      · subst e; simp [fresh]
      · simp [e, Ne.symm e]

/-- R122: the probe records lane 0 of its programme, and nothing else moves. -/
theorem recordProbe_frame (s : State) : recordProbe s = { s with probe := (recordProbe s).probe } := by
  unfold recordProbe
  split
  · split <;> rfl
  · rfl

theorem recordProbe_idle (s : State) (armed : s.probe.state ≠ .armed) (searching : s.probe.state ≠ .searching) :
    (recordProbe s).probe = s.probe := by
  have kept : ∀ w, s.probe.record s.hc w = s.probe := by
    intro w
    unfold Probe.record
    split
    next state => exact absurd state armed
    next state => exact absurd state searching
    next => rfl
  unfold recordProbe
  split
  · split
    · exact kept _
    · rfl
  · rfl

theorem recordProbe_at (s : State) (p : ProgId) (k : LaneId) (ks : List LaneId) (h : s.probe.pgm = some p)
    (lanes : s.pgms[p].ctl.lanes = k :: ks) : (recordProbe s).probe = s.probe.record s.hc (s.laneWord k) := by
  unfold recordProbe
  rw [h]
  dsimp only
  rw [lanes]
  rfl

/-- A programme's records behind a house sample. -/
def State.ticked (s : State) (p : ProgId) (g : Pgm) : Pgm :=
  if g.ctl.state = .running then
    g.tick (g.ctl.lanes.map s.laneWord) (g.ctl.lanes.any fun k => !s.laneValidNow k) (s.pagesHeld p)
  else g

theorem tickAll_frame (s : State) : allProgs.foldl tickPgm s = { s with pgms := (allProgs.foldl tickPgm s).pgms } := by
  refine foldl_keeps (fun t : State => t = { s with pgms := t.pgms }) _ (fun t p h => ?_) _ _ rfl
  unfold tickPgm
  split
  · rw [h]; rfl
  · exact h

theorem tickPgm_eq (s : State) (p : ProgId) : tickPgm s p = s.updPgm p (s.ticked p) := by
  unfold tickPgm
  split
  next running =>
    refine congrArg (fun g => ({ s with pgms := s.pgms.set p g } : State)) ?_
    unfold State.ticked
    rw [if_pos running]
    rfl
  next stopped =>
    have same : s.ticked p s.pgms[p] = s.pgms[p] := if_neg stopped
    unfold State.updPgm
    rw [same]
    simp

theorem tickAll_pgm (s : State) (p : ProgId) : (allProgs.foldl tickPgm s).pgms[p] = s.ticked p s.pgms[p] := by
  refine foldl_allProgs (fun t => t = { s with pgms := t.pgms }) tickPgm s.ticked
    (fun t q h => ?_) (fun t q r h ne => ?_) (fun t q h => ?_) s rfl p
  · rw [tickPgm_eq, getElem_updPgm, if_pos rfl, h]
    rfl
  · rw [tickPgm_eq, getElem_updPgm, if_neg ne]
  · rw [tickPgm_eq, h]
    rfl

/-! ### HC advances (R1) -/

theorem advance_frame (s : State) :
    advance s = { s with
      hc := s.hc + 1, phase := 0, closeDue := s.closeDue || decide ((s.hc + 1).toNat % Config.subBlock = 0),
      gpiDue := s.gpiDue || decide ((s.hc + 1).toNat % Config.gpiPeriod = 0), boundaryHere := false,
      lanes := (advance s).lanes, gpos := (advance s).gpos } := by
  have lanes : ∀ t : State, allLanes.foldl (fun s k => s.updLane k fun l => { l with latch := none, outLatch := none }) t =
      { t with lanes := (allLanes.foldl (fun s k => s.updLane k fun l => { l with latch := none, outLatch := none }) t).lanes } :=
    fun t => (foldl_updLane (fun _ l => { l with latch := none, outLatch := none }) _ (fun _ _ => rfl) _ allLanes_nodup t).1
  have lines : ∀ t : State, allLines.foldl (fun s l => s.updGpo l Gpo.next) t =
      { t with gpos := (allLines.foldl (fun s l => s.updGpo l Gpo.next) t).gpos } := by
    intro t
    refine foldl_keeps (fun u : State => u = { t with gpos := u.gpos }) _ (fun u l h => ?_) _ _ rfl
    rw [h]; rfl
  unfold advance
  dsimp only
  rw [lines, lanes]

theorem advance_lane (s : State) (k : LaneId) :
    (advance s).lanes[k] = { s.lanes[k] with latch := none, outLatch := none } := by
  have lanes := (foldl_updLane (fun _ l => { l with latch := none, outLatch := none })
    (fun s k => s.updLane k fun l => { l with latch := none, outLatch := none }) (fun _ _ => rfl) _ allLanes_nodup s).2 k
  rw [if_pos (mem_allLanes k)] at lanes
  have lines : ∀ t : State, (allLines.foldl (fun s l => s.updGpo l Gpo.next) t).lanes = t.lanes := by
    intro t
    exact foldl_keeps (fun u : State => u.lanes = t.lanes) (fun s l => s.updGpo l Gpo.next) (fun u l h => h) _ _ rfl
  unfold advance
  dsimp only
  rw [lines]
  exact lanes

/-- A fold that changes each output line of a list by itself. -/
theorem foldl_updGpo (f : Gpo → Gpo) (ls : List LineId) (nodup : ls.Nodup) (s : State) (l : LineId) :
    (ls.foldl (fun s l => s.updGpo l f) s).gpos[l] = if l ∈ ls then f s.gpos[l] else s.gpos[l] := by
  induction ls generalizing s with
  | nil => simp
  | cons j ls ih =>
    obtain ⟨fresh, nodup⟩ := List.nodup_cons.mp nodup
    rw [List.foldl_cons, ih nodup, getElem_updGpo]
    by_cases e : l = j
    · subst e; simp [fresh]
    · simp [e, Ne.symm e]

/-- R163: the contact outputs follow their computed levels. -/
theorem advance_gpo (s : State) (l : LineId) : (advance s).gpos[l] = s.gpos[l].next := by
  have lanes : (allLanes.foldl (fun s k => s.updLane k fun l => { l with latch := none, outLatch := none }) s).gpos = s.gpos :=
    foldl_keeps (fun u : State => u.gpos = s.gpos) (fun s k => s.updLane k fun l => { l with latch := none, outLatch := none })
      (fun u l h => h) _ _ rfl
  unfold advance
  dsimp only
  rw [foldl_updGpo _ _ allLines_nodup, if_pos (mem_allLines l), lanes]

/-! ### The house sample, block by block -/

/-- The state whose outputs of this house sample are delivered. -/
def State.delivered (s : State) : State := deliverOutputs (formLanesOf allLanes s)

/-- The state whose probe and slots have recorded this house sample. -/
def State.recorded (s : State) : State := allSlots.foldl recordSlot (recordProbe s.delivered)

theorem houseSample_eq (s : State) : houseSample s = advance (allProgs.foldl tickPgm s.recorded) := rfl

theorem State.delivered_frame (s : State) :
    s.delivered = { s with lanes := (formLanesOf allLanes s).lanes, pins := { s.pins with out := s.delivered.pins.out } } := by
  unfold State.delivered
  rw [deliverOutputs_frame, formAll_frame]

theorem State.delivered_hc (s : State) : s.delivered.hc = s.hc := by rw [State.delivered_frame]
theorem State.delivered_owners (s : State) : s.delivered.owners = s.owners := by rw [State.delivered_frame]
theorem State.delivered_pgms (s : State) : s.delivered.pgms = s.pgms := by rw [State.delivered_frame]
theorem State.delivered_lanes (s : State) : s.delivered.lanes = (formLanesOf allLanes s).lanes := by rw [State.delivered_frame]
theorem State.delivered_probe (s : State) : s.delivered.probe = s.probe := by rw [State.delivered_frame]

theorem State.recorded_frame (s : State) :
    s.recorded = { s with
      lanes := (formLanesOf allLanes s).lanes, pins := { s.pins with out := s.delivered.pins.out }
      probe := (recordProbe s.delivered).probe, slots := s.recorded.slots } := by
  have slots : s.recorded = { recordProbe s.delivered with slots := s.recorded.slots } :=
    (recordSlots_eq _ allSlots allSlots_nodup).1
  have probe := recordProbe_frame s.delivered
  have delivered := s.delivered_frame
  generalize s.recorded = t, recordProbe s.delivered = u, s.delivered = v at *
  rw [slots, probe, delivered]

theorem houseSample_frame (s : State) :
    houseSample s = { s with
      hc := s.hc + 1, phase := 0, closeDue := s.closeDue || decide ((s.hc + 1).toNat % Config.subBlock = 0),
      gpiDue := s.gpiDue || decide ((s.hc + 1).toNat % Config.gpiPeriod = 0), boundaryHere := false,
      lanes := (houseSample s).lanes, pgms := (houseSample s).pgms, probe := (recordProbe s.delivered).probe,
      gpos := (houseSample s).gpos, slots := s.recorded.slots,
      pins := { s.pins with out := s.delivered.pins.out } } := by
  have whole := advance_frame (allProgs.foldl tickPgm s.recorded)
  rw [← houseSample_eq] at whole
  have ticked := tickAll_frame s.recorded
  have recorded := s.recorded_frame
  generalize houseSample s = t, allProgs.foldl tickPgm s.recorded = u, s.recorded = v, s.delivered = w at *
  rw [whole, ticked, recorded]

theorem houseSample_lane (s : State) (k : LaneId) :
    (houseSample s).lanes[k] = { laneFormed s k with latch := none, outLatch := none } := by
  rw [houseSample_eq, advance_lane, tickAll_frame, State.recorded_frame]
  dsimp only
  rw [formAll_lane]

theorem houseSample_pgm (s : State) (p : ProgId) : (houseSample s).pgms[p] = s.recorded.ticked p s.pgms[p] := by
  rw [houseSample_eq, advance_frame]
  dsimp only
  rw [tickAll_pgm]
  refine congrArg _ ?_
  rw [State.recorded_frame]

theorem houseSample_gpo (s : State) (l : LineId) : (houseSample s).gpos[l] = s.gpos[l].next := by
  rw [houseSample_eq, advance_gpo, tickAll_frame, State.recorded_frame]

/-- R35, R44: forming its word leaves what a park has fixed on a lane's channel. -/
theorem laneFormed_outLatch (s : State) (k : LaneId) : (laneFormed s k).outLatch = s.lanes[k].outLatch := by
  rw [laneFormed_eq]
  obtain ⟨r, n, f, w, h⟩ := Lane.form_frame s.ports s.lanes[k]
  rw [h]

theorem delivered_out (s : State) (k : LaneId) :
    s.delivered.pins.out[k] = s.lanes[k].outLatch.getD (formLanesOf allLanes s).programmeWords[k] := by
  unfold State.delivered
  rw [deliverOutputs_out, formAll_lane, laneFormed_outLatch]

theorem recorded_slot (s : State) (c : SlotId) : s.recorded.slots[c] = s.delivered.slotRecorded c s.slots[c] := by
  have moved := (recordSlots_eq (recordProbe s.delivered) allSlots allSlots_nodup).2 c
  rw [if_pos (mem_allSlots c)] at moved
  have same : ∀ u v : State, u = { v with probe := u.probe } → u.slotRecorded c u.slots[c] = v.slotRecorded c v.slots[c] := by
    intro u v h
    rw [h]
    rfl
  have slots : s.delivered.slots = s.slots := by rw [State.delivered_frame]
  rw [← slots]
  exact moved.trans (same _ _ (recordProbe_frame _))

/-- R30, R31, R35: the lane of a word not yet fixed. -/
theorem laneFormed_valid (s : State) (k : LaneId) (x : Source) (free : s.lanes[k].latch = none)
    (valid : s.lanes[k].valid = true) (named : s.lanes[k].source = some x) :
    laneFormed s k =
      let l := s.lanes[k]
      let q := s.ports[x.port]
      let depth : Rat := q.frameNo - l.readPos
      let slips := 48 < depth ∨ depth < 16
      { l with
        readPos := (if slips then (q.frameNo : Rat) - (32 + (depth - depth.floor)) else l.readPos) +
          (1048576 : Rat) / (q.ratio.getD 1048576 : Nat)
        slips := if slips then min 65535 (l.slips + 1) else l.slips
        fadePos := if l.fade = .fadingIn then min 240 (l.fadePos + 1) else l.fadePos
        latch := some ((formLane s k).laneWord k, true) } := by
  unfold laneFormed
  simp only [free, valid, named]

theorem laneFormed_still (s : State) (k : LaneId)
    (h : s.lanes[k].latch ≠ none ∨ s.lanes[k].valid = false ∨ s.lanes[k].source = none) :
    ∃ w, laneFormed s k = { s.lanes[k] with latch := w } := by
  unfold laneFormed
  dsimp only
  split
  next w fixed => exact ⟨s.lanes[k].latch, rfl⟩
  next x free valid named =>
    rcases h with h | h | h
    · exact absurd free h
    · rw [valid] at h; nomatch h
    · rw [named] at h; nomatch h
  next => exact ⟨_, rfl⟩

/-- R168, R171: what a slot records by its state. -/
theorem Slot.record_idle (x : Slot) (h : x.state = .free ∨ x.state = .held) (hc : HouseCount) (room : Nat) (words : List Sample) :
    x.record hc room words = x := by
  unfold Slot.record
  rcases h with h | h <;> rw [h]

theorem Slot.record_armed (x : Slot) (h : x.state = .armed) (hc : HouseCount) (room : Nat) (words : List Sample) :
    x.record hc room words = { x with
      rings := List.zipWith (fun ring w => (w :: ring).take room) x.rings words
      recorded := countUp Config.count32 x.recorded } := by
  unfold Slot.record
  rw [h]

theorem Slot.record_post (x : Slot) (h : x.state = .post) {at_ : HouseCount} (triggered : x.trigAt = some at_) (hc : HouseCount)
    (room : Nat) (words : List Sample) :
    x.record hc room words = if samplesFrom at_ hc < x.post then { x with
      rings := List.zipWith (fun ring w => (w :: ring).take room) x.rings words
      recorded := countUp Config.count32 x.recorded } else x := by
  unfold Slot.record
  rw [h, triggered]
  rfl

/-- R163: the level a contact output drives. -/
theorem Gpo.next_eq (g : Gpo) :
    g.next = { g with
      pin := if g.cfg.held then g.pin
        else if g.cfg.polarity = .high then g.cfg.manual || decide (g.contrib ≠ [])
        else !(g.cfg.manual || decide (g.contrib ≠ [])) } := by
  have level : g.computed = (g.cfg.manual || decide (g.contrib ≠ [])) := by
    unfold Gpo.computed
    cases g.contrib <;> simp
  unfold Gpo.next drive
  rw [level]
  split
  · rfl
  · cases g.cfg.polarity <;> rfl

/-- Settles O8. -/
theorem houseSampleAdvances : Obligations.HouseSampleAdvances := by
  intro s powered
  refine ⟨houseSample s, event_powered _ s powered, ?_⟩
  have frame := houseSample_frame s
  have lanes := houseSample_lane s
  have pgms := houseSample_pgm s
  have gpos := houseSample_gpo s
  have out := delivered_out s
  have slots := recorded_slot s
  generalize houseSample s = t at frame lanes pgms gpos ⊢
  have tOut : t.pins.out = s.delivered.pins.out := by rw [frame]
  have tProbe : t.probe = (recordProbe s.delivered).probe := by rw [frame]
  have tSlots : t.slots = s.recorded.slots := by rw [frame]
  have tClose : t.closeDue = (s.closeDue || decide ((s.hc + 1).toNat % 4800 = 0)) := by rw [frame]; rfl
  have tGpi : t.gpiDue = (s.gpiDue || decide ((s.hc + 1).toNat % 48 = 0)) := by rw [frame]; rfl
  have recordedWith : ∀ (c : SlotId) (p : ProgId), s.slots[c].pgm = some p → s.delivered.slotRecorded c s.slots[c] =
      s.slots[c].record s.hc (s.slotPages c / s.slots[c].lanes * 1024)
        (s.pgms[p].ctl.lanes.map fun k => s.delivered.pins.out[k]) := by
    intro c p named
    unfold State.slotRecorded State.slotPages
    rw [named]
    dsimp only
    rw [s.delivered_hc, s.delivered_owners, s.delivered_pgms]
    rfl
  refine ⟨by rw [frame], by rw [frame], by rw [frame], ?close, ?gpi, fun k => ⟨fun still => ?still, fun x free valid named => ?moves⟩,
    fun k open_ none => ?silent, fun k w fixed => ?parked, fun p stopped => ?stopped, fun armed searching => ?probe,
    fun l => ?gpo, fun c idle => ?idle, fun c p named => ⟨fun armed => ?armed, fun h post at_h => ?post⟩, ?frame⟩
  case close => rw [tClose]; simp
  case gpi => rw [tGpi]; simp
  case still =>
    obtain ⟨w, formed⟩ := laneFormed_still s k still
    rw [lanes, formed]
  case moves =>
    rw [lanes, laneFormed_valid s k x free valid named]
  case silent =>
    rw [tOut, out, open_]
    refine State.programmeWords_none _ k ?_
    rw [formAll_pgms]
    exact none
  case parked => rw [tOut, out, fixed]; rfl
  case stopped =>
    rw [pgms]
    exact if_neg stopped
  case probe =>
    rw [← s.delivered_probe] at armed searching
    rw [tProbe, recordProbe_idle _ armed searching, s.delivered_probe]
  case gpo =>
    rw [gpos]
    exact Gpo.next_eq _
  case idle =>
    rw [tSlots, slots]
    unfold State.slotRecorded
    split
    · exact Slot.record_idle _ idle _ _ _
    · rfl
  case armed =>
    rw [tSlots, slots, recordedWith c p named, Slot.record_armed _ armed, tOut]
    rfl
  case post =>
    rw [tSlots, slots, recordedWith c p named, Slot.record_post _ post at_h, tOut]
    rfl
  case frame =>
    have hcs : t.hc = s.hc + 1 := by rw [frame]
    have phase : t.phase = 0 := by rw [frame]
    have here : t.boundaryHere = false := by rw [frame]
    rw [hcs, phase, here, tProbe, tSlots, tOut, tClose, tGpi]
    exact frame

/-! ### Ends of fades and ramps (R35, R52, R114) -/

theorem State.updCtl_congr {s : State} {p : ProgId} {f g : Ctl → Ctl} (h : f s.pgms[p].ctl = g s.pgms[p].ctl) :
    s.updCtl p f = s.updCtl p g := by
  simp only [State.updCtl, State.updPgm, h]

/-- Settles O17. -/
theorem fadesAndRampsEnd : Obligations.FadesAndRampsEnd := by
  intro s powered
  refine ⟨fun k fading last => ?laneEnds, fun k early => ?laneEarly, fun p => ?fadeEnds, fun p early => ?fadeEarly,
    fun p running full last => ?rampEnds, fun p early => ?rampEarly⟩
  case laneEnds => exact (event_powered _ s powered).trans (congrArg _ (if_pos ⟨fading, last⟩))
  case laneEarly => exact (event_powered _ s powered).trans (congrArg _ (if_neg early))
  case fadeEnds =>
    intro c x running up last
    exact (event_powered _ s powered).trans (congrArg _ ((if_pos ⟨running, up, last⟩).trans (State.updCtl_congr rfl)))
  case fadeEarly => exact (event_powered _ s powered).trans (congrArg _ (if_neg early))
  case rampEnds => exact (event_powered _ s powered).trans (congrArg _ (if_pos ⟨running, full, last⟩))
  case rampEarly => exact (event_powered _ s powered).trans (congrArg _ (if_neg early))

end Sys2Proof.Machine
end

section
/-! SUPPORT and O35. The converter's word in the cases that R30 fixes, and the audio path of a RUNNING programme. -/

namespace Sys2Proof.Machine

/-! ### The converter's word (R30) -/

theorem cutTo30_zero : cutTo30 0 = 0 := by
  unfold cutTo30
  rw [zero_mul, show (0 : Rat).floor = 0 from Rat.floor_intCast 0]
  norm_num

theorem cutTo30_one : cutTo30 1 = 1 := by
  have whole : ((1 : Rat) * 10 ^ 30).floor = 10 ^ 30 := by
    rw [one_mul, show (10 ^ 30 : Rat) = ((10 ^ 30 : Int) : Rat) by norm_num, Rat.floor_intCast]
  unfold cutTo30
  rw [whole]
  norm_num

theorem cosTurns_zero : cosTurns 0 = 1 := by
  have start : ∀ ns : List Nat, ns.foldr (fun _ _ => cutTo30 1) 1 = 1 := by
    intro ns
    cases ns with
    | nil => rfl
    | cons n ns => exact cutTo30_one
  unfold cosTurns
  rw [show (0 : Rat).floor = 0 from Rat.floor_intCast 0]
  norm_num [cutTo30_zero]
  exact start _

/-- The content at frequency 0 is the mean of the words of one period. -/
theorem contentAt_zero (words : List Sample) (n : Nat) (age : Rat) :
    contentAt words 0 n age = (((words.take n).map fun w => (w.toInt : Rat)).sum) / n := by
  have part : ∀ w : Sample × Nat, (w.1.toInt : Rat) * cosTurns (((0 : Nat) : Rat) * (age - w.2) / n) = (w.1.toInt : Rat) := by
    intro w
    rw [Nat.cast_zero, zero_mul, zero_div, cosTurns_zero, mul_one]
  unfold contentAt
  simp only [part, true_or, if_true]
  rw [show (fun w : Sample × Nat => (w.1.toInt : Rat)) = (fun w : Sample => (w.toInt : Rat)) ∘ Prod.fst from rfl,
    ← List.map_map, List.zipIdx_map_fst]
  ring

/-- R30: what repeats after one word or after two holds no content to which the rule gives no gain, in a feed at its own rate or
above 48k. -/
theorem bandContent_unstated_one (c : RateClass) (ratio : Nat) (words : List Sample) (age : Rat) :
    bandContent .unstated c ratio 1 words age = 0 ∧ bandContent .kept c ratio 1 words age = contentAt words 0 1 age := by
  have band : bandOf c ratio 0 1 = .kept := by simp [bandOf]
  simp [bandContent, List.range_succ, band]

theorem bandContent_alternating (c : RateClass) (ratio : Nat) (high : c = .k882 ∨ c = .k96) (below : ratio < 1048576)
    (words : List Sample) (age : Rat) :
    bandContent .unstated c ratio 2 words age = 0 ∧ bandContent .kept c ratio 2 words age = contentAt words 0 2 age := by
  have zero : bandOf c ratio 0 2 = .kept := by simp [bandOf]
  have one : bandOf c ratio 1 2 = .removed := by
    unfold bandOf Config.unity
    rw [if_pos ⟨high, by omega⟩]
  simp [bandContent, List.range_succ, zero, one]

theorem repeatingSignal_of_kept (c : RateClass) (ratio n : Nat) (words : List Sample) (age : Rat)
    (h : ∀ age, bandContent .unstated c ratio n words age = 0 ∧ bandContent .kept c ratio n words age = contentAt words 0 n age) :
    repeatingSignal c ratio n words age = (contentAt words 0 n age, 0) := by
  have rest : ∀ js : List Rat, (js.map fun j => bandContent .unstated c ratio n words j) = js.map fun _ => (0 : Rat) :=
    fun js => List.map_congr_left fun j _ => (h j).1
  have none : ∀ js : List Rat, freePart c ratio age 0 (js.map fun _ => (0 : Rat)) = 0 := by
    refine fun js => freePart_small fun x hx => ?_
    obtain ⟨_, _, rfl⟩ := List.mem_map.mp hx
    simp [wholePart, show (0 : Rat).floor = 0 from Rat.floor_intCast 0]
  unfold repeatingSignal
  rw [rest]
  dsimp only
  rw [none, (h age).2]
  simp

/-- The period of a stream of one word. -/
theorem periodOf_constant (n : Nat) (w : Sample) (some_ : 0 < n) : periodOf (List.replicate n w) = some 1 := by
  have first : ∃ ks, (List.range (max 1 (n / 2))).map (· + 1) = 1 :: ks := by
    obtain ⟨m, h⟩ : ∃ m, max 1 (n / 2) = m + 1 := ⟨max 1 (n / 2) - 1, by omega⟩
    rw [h, List.range_succ_eq_map]
    exact ⟨_, rfl⟩
  obtain ⟨ks, first⟩ := first
  have filled : (List.replicate n w).isEmpty = false := by cases n with
    | zero => omega
    | succ n => rfl
  unfold periodOf
  rw [filled, if_neg Bool.false_ne_true, List.length_replicate, first, List.find?_cons_of_pos]
  simp [List.take_replicate, List.drop_replicate, Config.steadySpan]

/-- The period of a stream of two words that alternate. -/
theorem periodOf_alternating (words : List Sample) (a b : Sample) (apart : a ≠ b) (four : 4 ≤ words.length)
    (alt : ∀ (i : Nat) (w : Sample), words[i]? = some w → w = if i % 2 = 0 then a else b) : periodOf words = some 2 := by
  have first : ∃ ks, (List.range (max 1 (words.length / 2))).map (· + 1) = 1 :: 2 :: ks := by
    obtain ⟨m, h⟩ : ∃ m, max 1 (words.length / 2) = m + 2 := ⟨max 1 (words.length / 2) - 2, by omega⟩
    rw [h, List.range_succ_eq_map, List.range_succ_eq_map]
    exact ⟨_, rfl⟩
  obtain ⟨ks, first⟩ := first
  have filled : words.isEmpty = false := by cases words with
    | nil => simp at four
    | cons w ws => rfl
  have at_ : ∀ i, i < words.length → words[i]? = some (if i % 2 = 0 then a else b) := by
    intro i inside
    rw [List.getElem?_eq_getElem inside]
    exact congrArg some (alt i _ (List.getElem?_eq_getElem inside))
  unfold periodOf
  rw [filled, if_neg Bool.false_ne_true, first, List.find?_cons_of_neg, List.find?_cons_of_pos]
  · refine decide_eq_true (List.ext_getElem? fun i => ?_)
    rw [List.getElem?_drop, List.getElem?_take, List.getElem?_take, List.getElem?_take, List.length_take]
    have same : (2 + i) % 2 = i % 2 := by omega
    by_cases inside : 2 + i < words.length ∧ 2 + i < max (2 * 2) Config.steadySpan
    · rw [if_pos inside.2, if_pos (by omega), if_pos (by omega), at_ _ inside.1, at_ i (by omega), same]
    · rw [if_neg (by omega : ¬ i < min (max (2 * 2) Config.steadySpan) words.length - 2)]
      split
      next near => exact List.getElem?_eq_none (by omega)
      · rfl
  · refine fun same => apart ?_
    have same := congrArg (·[0]?) (of_decide_eq_true same)
    have wide : 2 ≤ max (2 * 1) Config.steadySpan := by decide
    rw [List.getElem?_drop, List.getElem?_take, List.getElem?_take, List.getElem?_take, List.length_take,
      if_pos (by omega), if_pos (by omega), if_pos (by omega), at_ _ (by omega), at_ _ (by omega)] at same
    simpa using same.symm

/-- A word's value lies in the range of 24 bits. -/
theorem Sample.toInt_range (w : Sample) : -8388608 ≤ w.toInt ∧ w.toInt ≤ 8388607 := by
  have low := w.le_toInt
  have high := w.toInt_lt
  omega

theorem sampleOf_toInt (w : Sample) : sampleOf w.toInt = w := BitVec.ofInt_toInt

theorem toInt_sampleOf (x : Int) (low : -8388608 ≤ x) (high : x ≤ 8388607) : (sampleOf x).toInt = x := by
  unfold sampleOf
  rw [BitVec.toInt_ofInt, Int.bmod_def]
  omega

/-- The saturated word beside a mean of two words. -/
theorem wordNear_mean (a b : Sample) (free : Sample) :
    (2 * (wordNear ((a.toInt + b.toInt : Rat) / 2) 0 free).toInt - (a.toInt + b.toInt)).natAbs ≤ 1 := by
  have ra := Sample.toInt_range a
  have rb := Sample.toInt_range b
  have floor : ((a.toInt + b.toInt : Rat) / 2).floor = (a.toInt + b.toInt) / 2 := by
    have := Rat.floor_intCast_div_natCast (a.toInt + b.toInt) 2
    push_cast at this
    exact this
  have ceil : ((a.toInt + b.toInt : Rat) / 2).ceil = (a.toInt + b.toInt + 1) / 2 := by
    have below := Rat.floor_intCast_div_natCast (-(a.toInt + b.toInt)) 2
    push_cast at below
    have below : (-((a.toInt + b.toInt : Rat) / 2)).floor = -(a.toInt + b.toInt) / 2 := by
      rw [← below, ← neg_div, neg_add]
      rfl
    rw [Rat.ceil_eq_neg_floor_neg, below]
    omega
  unfold wordNear
  rw [floor, ceil]
  dsimp only
  rw [toInt_sampleOf]
  all_goals
    unfold clampInt
    split <;> omega

/-- R30: a 48k feed at a tracked ratio of exactly 1,048,576 is delivered unchanged. -/
theorem converterWord_unity (p : Port) (chan : Fin 8) (l : Lane) (f : Frame) (cls : p.cls = some .k48)
    (ratio : p.ratio = some 1048576) (at_ : p.recent[((p.frameNo : Int) - (l.readPos - 64).floor).toNat]? = some f) :
    converterWord p chan l = f[chan] := by
  have carry : RateClass.k48.carry = 64 := by
    norm_num [RateClass.carry, RateClass.latency, RateClass.ratio, Config.unity, Config.centreDepth]
  unfold converterWord
  rw [cls, ratio, Option.getD_some, Option.getD_some]
  dsimp only
  rw [if_pos ⟨rfl, rfl⟩, carry]
  unfold Port.wordsAround Port.wordsOf
  rw [List.headD_eq_head?_getD, List.head?_drop, List.getElem?_map, at_]
  rfl

/-- R30: the word of a signal that repeats with one word or with two, which holds nothing but its mean. -/
theorem converterWord_formed (p : Port) (chan : Fin 8) (l : Lane) (n : Nat) (period : periodOf (p.wordsOf chan) = some n)
    (kept : ∀ age, bandContent .unstated (p.cls.getD .k48) (p.ratio.getD Config.unity) n (p.wordsOf chan) age = 0 ∧
      bandContent .kept (p.cls.getD .k48) (p.ratio.getD Config.unity) n (p.wordsOf chan) age = contentAt (p.wordsOf chan) 0 n age) :
    ∃ free words : _, converterWord p chan l =
      if p.cls.getD .k48 = .k48 ∧ p.ratio.getD Config.unity = Config.unity then
        List.headD (List.drop words (p.wordsOf chan))
          (wordNear ((((p.wordsOf chan).take n).map fun w => (w.toInt : Rat)).sum / n) 0 free)
      else wordNear ((((p.wordsOf chan).take n).map fun w => (w.toInt : Rat)).sum / n) 0 free := by
  unfold converterWord
  dsimp only
  rw [period]
  dsimp only
  rw [repeatingSignal_of_kept _ _ _ _ _ kept, contentAt_zero]
  exact ⟨_, _, rfl⟩

theorem converterWord_constant (p : Port) (chan : Fin 8) (l : Lane) (w : Sample) (some_ : p.recent ≠ [])
    (same : ∀ f ∈ p.recent, f[chan] = w) : converterWord p chan l = w := by
  have words : p.wordsOf chan = List.replicate p.recent.length w := by
    refine List.eq_replicate_iff.mpr ⟨List.length_map _, fun x hx => ?_⟩
    obtain ⟨f, listed, rfl⟩ := List.mem_map.mp hx
    exact same f listed
  have filled : 0 < p.recent.length := List.length_pos_iff.mpr some_
  obtain ⟨free, age, word⟩ := converterWord_formed p chan l 1 (words ▸ periodOf_constant _ w filled)
    fun age => bandContent_unstated_one _ _ _ _
  have mean : (((p.wordsOf chan).take 1).map fun w => (w.toInt : Rat)).sum / (1 : Nat) = (w.toInt : Int) := by
    rw [words, List.take_replicate, Nat.min_eq_left filled]
    simp
  have range := Sample.toInt_range w
  have near : wordNear ((((p.wordsOf chan).take 1).map fun w => (w.toInt : Rat)).sum / (1 : Nat)) 0 free = w := by
    rw [mean, wordNear_whole, clampInt_of_mem _ _ _ range.1 range.2, sampleOf_toInt]
  rw [word, near]
  split
  · rw [words, List.drop_replicate, List.headD_eq_head?_getD]
    cases p.recent.length - age <;> rfl
  · rfl

theorem converterWord_alternating (p : Port) (chan : Fin 8) (l : Lane) (a b : Sample)
    (high : p.cls = some .k882 ∨ p.cls = some .k96) (r : Nat) (ratio : p.ratio = some r) (below : r < 1048576)
    (four : 4 ≤ p.recent.length)
    (alt : ∀ (i : Nat) (f : Frame), p.recent[i]? = some f → f[chan] = if i % 2 = 0 then a else b) :
    (2 * (converterWord p chan l).toInt - (a.toInt + b.toInt)).natAbs ≤ 1 := by
  by_cases apart : a = b
  · subst apart
    have constant : converterWord p chan l = a := by
      refine converterWord_constant p chan l a (fun empty => by rw [empty] at four; simp at four) fun f listed => ?_
      obtain ⟨i, at_i⟩ := List.mem_iff_getElem?.mp listed
      simpa using alt i f at_i
    rw [constant]
    omega
  · have words : ∀ (i : Nat) (w : Sample), (p.wordsOf chan)[i]? = some w → w = if i % 2 = 0 then a else b := by
      intro i w at_i
      unfold Port.wordsOf at at_i
      rw [List.getElem?_map] at at_i
      obtain ⟨f, at_f, rfl⟩ := Option.map_eq_some_iff.mp at_i
      exact alt i f at_f
    have long : 4 ≤ (p.wordsOf chan).length := by unfold Port.wordsOf; rwa [List.length_map]
    have two : (p.wordsOf chan).take 2 = [a, b] := by
      match h : p.wordsOf chan, long with
      | x :: y :: rest, _ =>
        have x_eq := words 0 x (by rw [h]; rfl)
        have y_eq := words 1 y (by rw [h]; rfl)
        rw [x_eq, y_eq]
        rfl
    have cls : p.cls.getD .k48 = .k882 ∨ p.cls.getD .k48 = .k96 := by
      rcases high with h | h <;> rw [h] <;> simp
    have below : p.ratio.getD Config.unity < 1048576 := by rw [ratio]; exact below
    obtain ⟨free, age, word⟩ := converterWord_formed p chan l 2 (periodOf_alternating _ a b apart long words)
      fun age => bandContent_alternating _ _ cls below _ _
    have other : ¬ (p.cls.getD .k48 = .k48 ∧ p.ratio.getD Config.unity = Config.unity) := by
      rintro ⟨h, -⟩
      rw [h] at cls
      simp at cls
    rw [word, if_neg other, two]
    have mean : ([a, b].map fun w => (w.toInt : Rat)).sum / (2 : Nat) = (a.toInt + b.toInt : Rat) / 2 := by simp
    rw [mean]
    exact wordNear_mean a b free

/-! ### The word of a lane (R30, R31, R34, R35) -/

theorem formAll_word (s : State) (k : LaneId) :
    (formLanesOf allLanes s).laneWord k = ((laneFormed s k).latch.getD (0, false)).1 := by
  unfold State.laneWord
  rw [formAll_lane]
  cases (laneFormed s k).latch <;> rfl

theorem formAll_word_fixed (s : State) (k : LaneId) (w : Sample) (v : Bool) (fixed : s.lanes[k].latch = some (w, v)) :
    (formLanesOf allLanes s).laneWord k = w := by
  rw [formAll_word]
  unfold laneFormed
  simp only [fixed]
  rfl

/-- R34: an invalid lane delivers 0. -/
theorem formAll_word_silent (s : State) (k : LaneId) (free : s.lanes[k].latch = none)
    (silent : s.lanes[k].valid = false ∨ s.lanes[k].source = none) : (formLanesOf allLanes s).laneWord k = 0 := by
  rw [formAll_word]
  unfold laneFormed
  rcases silent with h | h
  · simp only [free, h]
    rfl
  · cases valid : s.lanes[k].valid <;> simp only [free, h, valid] <;> rfl

/-- R35: the word of a valid lane that is not fixed yet. -/
theorem formAll_word_valid (s : State) (k : LaneId) (x : Source) (free : s.lanes[k].latch = none)
    (valid : s.lanes[k].valid = true) (named : s.lanes[k].source = some x) :
    (formLanesOf allLanes s).laneWord k =
      let w := converterWord s.ports[x.port] x.chan (s.lanes[k].slip s.ports[x.port])
      if s.lanes[k].fade = .fadingIn then fadeUpWord s.lanes[k].fadePos w else w := by
  have slip : (s.lanes[k].slip s.ports[x.port]).fade = s.lanes[k].fade ∧
      (s.lanes[k].slip s.ports[x.port]).fadePos = s.lanes[k].fadePos := by
    unfold Lane.slip
    dsimp only
    split <;> exact ⟨rfl, rfl⟩
  rw [formAll_word, laneFormed_eq]
  unfold Lane.form
  simp only [free, valid, named, Option.isSome_none, Bool.false_eq_true, if_false]
  unfold Lane.convert Lane.fadeWord
  dsimp only
  rw [slip.1, slip.2]
  cases s.lanes[k].fade <;> rfl

theorem Lane.slip_readPos (l : Lane) (p : Port) :
    (l.slip p).readPos =
      if 48 < (p.frameNo : Rat) - l.readPos ∨ (p.frameNo : Rat) - l.readPos < 16 then
        (p.frameNo : Rat) - (32 + ((p.frameNo : Rat) - l.readPos - ((p.frameNo : Rat) - l.readPos).floor))
      else l.readPos := by
  unfold Lane.slip Lane.depth
  dsimp only
  split <;> rfl

/-! ### The words of a programme (R44, R66, R114, R115) -/

theorem channelWords_at (g : Pgm) (conv : List Sample) (i : Nat) (h : i < conv.length) :
    (channelWords g conv)[i]? = some (g.ctl.fadeWord (gainStage g i (conv.getD i 0)).1) := by
  unfold channelWords gainWords
  rw [List.getElem?_map, List.getElem?_map, List.getElem?_zipIdx, List.getD_eq_getElem?_getD, List.getElem?_eq_getElem h]
  simp

theorem channelWords_length (g : Pgm) (conv : List Sample) : (channelWords g conv).length = conv.length := by
  simp [channelWords, gainWords]

/-- R44: a channel that one RUNNING programme alone holds carries the word of that programme. -/
theorem State.foldl_withChannels_own (s : State) (p : ProgId) (k : LaneId) (i : Nat)
    (running : s.pgms[p].ctl.state = .running) (once : s.pgms[p].ctl.lanes.Nodup)
    (at_i : s.pgms[p].ctl.lanes[i]? = some k)
    (alone : ∀ q : ProgId, q ≠ p → s.pgms[q].ctl.state = .running → k ∉ s.pgms[q].ctl.lanes)
    (ps : List ProgId) (nodup : ps.Nodup) (listed : p ∈ ps) (out : Vector Sample 24) :
    (ps.foldl s.withChannels out)[k] =
      s.pgms[p].ctl.fadeWord (gainStage s.pgms[p] i ((s.laneWords p).getD i 0)).1 := by
  induction ps generalizing out with
  | nil => nomatch listed
  | cons q ps ih =>
    obtain ⟨fresh, nodup⟩ := List.nodup_cons.mp nodup
    rw [List.foldl_cons]
    by_cases own : q = p
    · subst own
      rw [s.foldl_withChannels_other ps _ k fun r later => alone r fun e => fresh (e ▸ later)]
      unfold State.withChannels
      rw [if_pos running]
      have long : (channelWords s.pgms[q] (s.laneWords q)).length = s.pgms[q].ctl.lanes.length := by
        rw [channelWords_length, State.laneWords, List.length_map]
      refine foldl_channels_own _ _ i k _ ?_ ?_
      · rw [List.map_fst_zip (by omega)]
        exact once
      · refine List.getElem?_zip_eq_some.mpr ⟨at_i, channelWords_at _ _ _ ?_⟩
        rw [State.laneWords, List.length_map]
        exact (List.getElem?_eq_some_iff.mp at_i).1
    · exact ih nodup ((List.mem_cons.mp listed).resolve_left (Ne.symm own)) _

/-- R114: the multiplier in use at a house sample. -/
theorem Correction.multiplier_eq (c : Correction) :
    c.multiplier = (if c.rampPos < 4800 then
      (c.mOld : Int) + Int.tdiv (((c.rampTo : Int) - c.mOld) * (c.rampPos + 1)) 4800 else (c.rampTo : Int)).toNat := by
  unfold Correction.multiplier rampMultiplier Config.rampLen
  split
  · push_cast; rfl
  · simp

/-! ### A programme's records behind a house sample -/

theorem Ctl.tick_eq (c : Ctl) :
    c.tick = if c.fadeHold then { c with fadeHold := false }
      else if c.out = .fadingUp ∨ c.out = .fadingDown then { c with fadePos := min 240 (c.fadePos + 1) }
      else c := by
  unfold Ctl.tick Config.fadeLen
  cases c.out <;> simp

theorem Pgm.tick_dly (g : Pgm) (conv : List Sample) (inv : Bool) (pages : Nat) :
    (g.tick conv inv pages).dly = { g.dly with
      lines := List.zipWith (fun line w => (w :: line).take (pages * 1024)) g.dly.lines conv
      hist := if g.dly.hist < pages * 1024 - maxPad g.ctl.pads then g.dly.hist + 1 else g.dly.hist
      slewCount := if g.dly.motion = .slewing then min 32 (g.dly.slewCount + 1) else g.dly.slewCount
      jumpPos := if g.dly.motion = .fadingDown ∨ g.dly.motion = .fadingUp then min 240 (g.dly.jumpPos + 1)
        else g.dly.jumpPos
      padsNow := g.ctl.pads } := by
  unfold Pgm.tick Delay.store Delay.tick capacity Config.pageWords Config.slewPeriod Config.fadeLen
  dsimp only
  cases g.dly.motion <;> simp

/-- R94: the words that the gain stage saturates at a house sample. -/
theorem gainWords_saturated (g : Pgm) (conv : List Sample) :
    (gainWords g conv).countP (fun w => w.2) =
      (List.range conv.length).countP fun j => (gainStage g j (conv.getD j 0)).2 := by
  have indexed : gainWords g conv = (List.range conv.length).map fun j => gainStage g j (conv.getD j 0) := by
    refine List.ext_getElem? fun j => ?_
    unfold gainWords
    rw [List.getElem?_map, List.getElem?_map, List.getElem?_zipIdx]
    by_cases inside : j < conv.length
    · rw [List.getElem?_eq_getElem inside, List.getElem?_range inside]
      simp [inside]
    · rw [List.getElem?_eq_none (by omega), List.getElem?_eq_none (by simp; omega)]
      rfl
  rw [indexed, List.countP_map]
  rfl

/-- R84: one word through a lane's filter, as the rule gives it. -/
def Filter.fed (f : Filter) (w : Sample) : Filter :=
  let x : ℚ := (w.toInt : ℚ) / 2 ^ 23
  let u := 1.53512485958697 * x - 2.69169618940638 * f.x1 + 1.19839281085285 * f.x2
    + 1.69065929318241 * f.u1 - 0.73248077421585 * f.u2
  let y := u - 2 * f.u1 + f.u2 + 1.99004745483398 * f.y1 - 0.99007225036621 * f.y2
  { x1 := x, x2 := f.x1, u1 := u, u2 := f.u1, y1 := y, y2 := f.y1 }

theorem Filter.run_eq (f : Filter) (w : Sample) : f.run (realOf w) = (f.fed w, (f.fed w).y1) := by
  have weighted : (f.run (realOf w)).2 = (f.fed w).y1 := by
    unfold Filter.run Filter.fed biquad realOf
    dsimp only
    norm_num
    ring
  have first : (f.run (realOf w)).1 = f.fed w := by
    unfold Filter.run Filter.fed biquad realOf
    dsimp only
    norm_num
    constructor <;> ring
  exact Prod.ext first weighted

/-- R83 to R87, R94: the meter of a RUNNING programme behind a house sample. -/
theorem Pgm.tick_mtr (g : Pgm) (conv : List Sample) (inv : Bool) (pages : Nat) :
    (g.tick conv inv pages).mtr =
      let filters := List.zipWith Filter.fed g.mtr.filters conv
      let added := fun (sum : Int) (i j : Nat) =>
        if 2 ≤ conv.length then sum + (conv.getD i 0).toInt * (conv.getD j 0).toInt else sum
      { g.mtr with
        filters := filters
        energies := List.zipWith (fun e f => e + f.y1 ^ 2) g.mtr.energies filters
        sum00 := added g.mtr.sum00 0 0, sum11 := added g.mtr.sum11 1 1, sum01 := added g.mtr.sum01 0 1
        laneInvalid := g.mtr.laneInvalid || inv
        bypassSeen := g.mtr.bypassSeen || decide (g.ctl.mode = .bypass)
        clip := min 65535 (g.mtr.clip + (gainWords g conv).countP fun w => w.2) } := by
  have runs : List.zipWith (fun f w => Filter.run f (realOf w)) g.mtr.filters conv =
      (List.zipWith Filter.fed g.mtr.filters conv).map fun f => (f, f.y1) := by
    rw [List.map_zipWith]
    simp only [Filter.run_eq]
  have fed : ((List.zipWith Filter.fed g.mtr.filters conv).map fun f => (f, f.y1)).map (·.1) =
      List.zipWith Filter.fed g.mtr.filters conv := by
    rw [List.map_map]
    exact List.map_id _
  unfold Pgm.tick Meter.take Meter.clipped Meter.filterWords Config.count16
  dsimp only
  rw [runs, fed, List.zipWith_map_right]
  match conv with
  | [] => rfl
  | [a] => rfl
  | a :: b :: rest => simp [Meter.correlate, pow_two]

theorem Pgm.tick_cor (g : Pgm) (conv : List Sample) (inv : Bool) (pages : Nat) :
    (g.tick conv inv pages).cor = if g.ctl.mode = .full then g.cor.tick else g.cor := rfl

/-- R114: the ramp behind a house sample. -/
theorem Correction.tick_go (c : Correction) (h : c.restart = false) :
    c.tick = { c with multNow := c.multiplier, rampPos := min 4800 (c.rampPos + 1) } := by
  unfold Correction.tick Config.rampLen
  dsimp only
  rw [h, if_neg Bool.false_ne_true]

theorem Correction.tick_restart (c : Correction) (h : c.restart = true) :
    c.tick = { c with
      multNow := c.multiplier, mOld := c.multiplier, rampTo := c.mNew, rampPos := 0, restart := false } := by
  unfold Correction.tick
  dsimp only
  rw [h, if_pos rfl]
  rfl

/-- R34, R86: whether a lane whose word has been fixed is valid at the house sample. -/
theorem formed_invalid (s : State) (k : LaneId) :
    (!(formLanesOf allLanes s).laneValidNow k) =
      match s.lanes[k].latch with
      | some v => !v.2
      | none => !(s.lanes[k].valid && s.lanes[k].source.isSome) := by
  have latched : ∃ v, (laneFormed s k).latch = some v ∧ v.2 =
      match s.lanes[k].latch with
      | some v => v.2
      | none => s.lanes[k].valid && s.lanes[k].source.isSome := by
    rw [laneFormed_eq]
    unfold Lane.form Lane.convert
    cases latch : s.lanes[k].latch with
    | some v => exact ⟨v, latch, rfl⟩
    | none =>
      cases valid : s.lanes[k].valid with
      | false => exact ⟨_, rfl, rfl⟩
      | true =>
        cases source : s.lanes[k].source with
        | none => exact ⟨_, rfl, rfl⟩
        | some x => exact ⟨_, rfl, rfl⟩
  obtain ⟨v, formed, value⟩ := latched
  unfold State.laneValidNow
  rw [formAll_lane, formed]
  dsimp only
  rw [value]
  cases s.lanes[k].latch <;> rfl

/-- R122: a probe that still records takes the word into its ring. -/
theorem Probe.record_taking (x : Probe) (hc : HouseCount) (w : Sample)
    (h : x.state = .armed ∨ x.state = .searching ∧ samplesFrom (x.t.getD hc) hc ≤ x.w) :
    x.record hc w = { x with ring := (w :: x.ring).take 24000 } := by
  unfold Probe.record
  split
  next armed => rfl
  next searching =>
    refine if_pos (h.elim (fun armed => ?_) (·.2))
    rw [searching] at armed
    nomatch armed
  next armed searching => exact (h.elim armed fun h => searching h.1).elim

/-- The records of a RUNNING programme behind a house sample. -/
theorem houseSample_ticked (s : State) (p : ProgId) (running : s.pgms[p].ctl.state = .running) :
    (houseSample s).pgms[p] = s.pgms[p].tick (s.pgms[p].ctl.lanes.map fun k => (formLanesOf allLanes s).laneWord k)
      (s.pgms[p].ctl.lanes.any fun k => !(formLanesOf allLanes s).laneValidNow k) (s.pagesHeld p) := by
  have lanes : s.recorded.lanes = (formLanesOf allLanes s).lanes := by rw [State.recorded_frame]
  have owners : s.recorded.owners = s.owners := by rw [State.recorded_frame]
  rw [houseSample_pgm]
  refine (if_pos running).trans ?_
  unfold State.laneWord State.laneValidNow State.pagesHeld
  rw [lanes, owners]

/-- Settles O35. -/
theorem houseSampleRunsAudioPath : Obligations.HouseSampleRunsAudioPath := by
  unfold Obligations.HouseSampleRunsAudioPath
  intro up down
  refine ⟨fun s k => ?lane, fun s p i k powered => ?path⟩
  case lane =>
    intro l word
    refine ⟨fun w v fixed => ?fixed, fun free silent => ?silent, fun x free valid named => ?valid⟩
    case fixed => exact formAll_word_fixed s k w v fixed
    case silent => exact formAll_word_silent s k free silent
    case valid =>
      intro q depth pos faded
      have formed : word = faded (converterWord q x.chan (l.slip q)) := formAll_word_valid s k x free valid named
      refine ⟨fun f cls ratio at_ => ?unity, fun w some_ same => ?constant, fun a b high ratio four alt => ?alternating⟩
      case unity =>
        rw [formed, converterWord_unity q x.chan _ f cls ratio ?_]
        rw [Lane.slip_readPos]
        exact at_
      case constant => rw [formed, converterWord_constant q x.chan _ w some_ same]
      case alternating =>
        obtain ⟨r, ratio, below⟩ := ratio
        exact ⟨_, formed, converterWord_alternating q x.chan _ a b high r ratio below four alt⟩
  case path =>
    intro g words running once at_i open_ alone late M made
    refine ⟨houseSample s, event_powered _ s powered, ?_⟩
    have ticked : (houseSample s).pgms[p] = g.tick words
        (g.ctl.lanes.any fun k => !(formLanesOf allLanes s).laneValidNow k) (s.pagesHeld p) := houseSample_ticked s p running
    have m : M = g.cor.multiplier := (Correction.multiplier_eq _).symm
    have late_eq : ∀ j, g.dly.jumpFade (g.dly.deliver j (words.getD j 0)) = late j := by
      intro j
      unfold Delay.jumpFade
      dsimp only [late]
      cases g.dly.motion <;> rfl
    have stage : ∀ j, (gainStage g j (words.getD j 0)) = match g.ctl.mode with
        | .full => gainWord M (late j)
        | .delay => (late j, false)
        | .bypass => (words.getD j 0, false) := by
      intro j
      cases mode : g.ctl.mode <;> simp only [gainStage, mode, late_eq, m]
    have clip : ((houseSample s).pgms[p]).mtr.clip = min 65535 (g.mtr.clip +
        (List.range words.length).countP fun j => (gainStage g j (words.getD j 0)).2) := by
      rw [ticked, Pgm.tick_mtr, gainWords_saturated]
    refine ⟨?out, ?ctl, ?dly, ?inFull, ?elsewhere, ?meter, ?probe⟩
    case out =>
      have frame := houseSample_frame s
      have out : (houseSample s).pins.out = s.delivered.pins.out := by rw [frame]
      have laneWords : (formLanesOf allLanes s).laneWords p = words := by
        unfold State.laneWords
        rw [formAll_pgms]
      rw [out, delivered_out, open_, State.programmeWords_eq]
      refine (State.foldl_withChannels_own _ p k i ?_ ?_ ?_ ?_ allProgs allProgs_nodup (mem_allProgs p) _).trans ?_
      any_goals rw [formAll_pgms]
      · exact running
      · exact once
      · exact at_i
      · exact alone
      · rw [laneWords, stage]
        unfold Ctl.fadeWord
        dsimp only [made]
        cases g.ctl.fadeHold <;> cases g.ctl.out <;> cases g.ctl.mode <;> rfl
    case ctl =>
      rw [ticked]
      exact Ctl.tick_eq _
    case dly =>
      rw [ticked]
      exact Pgm.tick_dly _ _ _ _
    case inFull =>
      intro full
      have cor : ((houseSample s).pgms[p]).cor = g.cor.tick := by rw [ticked, Pgm.tick_cor, if_pos full]
      have stage : ∀ j, gainStage g j (words.getD j 0) = gainWord M (late j) := by
        intro j
        rw [stage, full]
      rw [clip, cor, m]
      refine ⟨?_, ?_⟩
      · simp only [stage, m]
      · cases restart : g.cor.restart with
        | false =>
          rw [Correction.tick_go _ restart]
          exact ⟨rfl, rfl, rfl, fun _ => ⟨rfl, rfl, rfl⟩, fun h => (nomatch h)⟩
        | true =>
          rw [Correction.tick_restart _ restart]
          exact ⟨rfl, rfl, rfl, fun h => (nomatch h), fun _ => ⟨rfl, rfl, rfl⟩⟩
    case elsewhere =>
      intro other
      refine ⟨by rw [ticked, Pgm.tick_cor, if_neg other], ?_⟩
      have none : (List.range words.length).countP (fun j => (gainStage g j (words.getD j 0)).2) = 0 := by
        refine List.countP_eq_zero.mpr fun j _ => ?_
        rw [stage]
        cases mode : g.ctl.mode with
        | full => exact absurd mode other
        | delay => exact Bool.false_ne_true
        | bypass => exact Bool.false_ne_true
      rw [clip, none, Nat.add_zero]
    case meter =>
      intro run filters added
      have fed : run = Filter.fed := rfl
      have invalid : (g.ctl.lanes.any fun k => !(formLanesOf allLanes s).laneValidNow k) =
          g.ctl.lanes.any fun k => match s.lanes[k].latch with
            | some v => !v.2
            | none => !(s.lanes[k].valid && s.lanes[k].source.isSome) := by
        refine congrArg _ (funext fun k => ?_)
        exact formed_invalid s k
      rw [ticked, Pgm.tick_mtr, invalid]
      rfl
    case probe =>
      intro w rest first named recording
      have frame := houseSample_frame s
      have probe : (houseSample s).probe = (recordProbe s.delivered).probe := by rw [frame]
      obtain ⟨k0, ks, lanes, word⟩ : ∃ k0 ks, g.ctl.lanes = k0 :: ks ∧ (formLanesOf allLanes s).laneWord k0 = w := by
        dsimp only [words] at first
        cases lanes : g.ctl.lanes with
        | nil => rw [lanes] at first; nomatch first
        | cons k0 ks =>
          rw [lanes, List.map_cons] at first
          exact ⟨k0, ks, rfl, (List.cons.inj first).1⟩
      have delivered : s.delivered.laneWord k0 = w := by
        rw [← word]
        unfold State.laneWord
        rw [s.delivered_lanes]
      rw [probe, recordProbe_at s.delivered p k0 ks (by rw [s.delivered_probe, named]) (by rw [s.delivered_pgms]; exact lanes),
        s.delivered_probe, s.delivered_hc, delivered]
      exact Probe.record_taking _ _ _ recording

end Sys2Proof.Machine
end

section
/-! SUPPORT, O26, O34 and O40. What a delay line delivers, and the searches whose results are real values, rounded. -/

namespace Sys2Proof.Machine

/-! ### The words of a delay line (R66, R67) -/

/-- The record of a line that has stored some words. -/
def Delay.storeAll (d : Delay) (pages pad : Nat) (words : List (List Sample)) : Delay :=
  words.foldl (fun d w => d.store pages pad w) d

theorem Delay.storeAll_snoc (d : Delay) (pages pad : Nat) (words : List (List Sample)) (w : List Sample) :
    d.storeAll pages pad (words ++ [w]) = (d.storeAll pages pad words).store pages pad w := by
  simp [Delay.storeAll]

/-- R67: storing keeps D_app, the pads in use and the number of lines. -/
theorem Delay.storeAll_keeps (d : Delay) (pages pad : Nat) (words : List (List Sample))
    (wide : ∀ v ∈ words, v.length = d.lines.length) :
    (d.storeAll pages pad words).dApp = d.dApp ∧ (d.storeAll pages pad words).padsNow = d.padsNow ∧
      (d.storeAll pages pad words).lines.length = d.lines.length := by
  induction words using List.reverseRecOn with
  | nil => exact ⟨rfl, rfl, rfl⟩
  | append_singleton words w ih =>
    obtain ⟨app, pads, lines⟩ := ih fun v hv => wide v (List.mem_append_left _ hv)
    rw [Delay.storeAll_snoc]
    refine ⟨app, pads, ?_⟩
    have w_wide : w.length = d.lines.length := wide w (by simp)
    simp [Delay.store, lines, w_wide]

/-- R66, R67: the newest words of a line are those stored last. -/
theorem Delay.storeAll_word (d : Delay) (pages pad pos : Nat) (inside : pos < d.lines.length)
    (words : List (List Sample)) (wide : ∀ v ∈ words, v.length = d.lines.length) (n : Nat) (room : n < pages * 1024)
    (w : List Sample) (x : Sample) (at_n : words.reverse[n]? = some w) (at_pos : w[pos]? = some x) :
    ((d.storeAll pages pad words).lines.getD pos [])[n]? = some x := by
  induction words using List.reverseRecOn generalizing n with
  | nil => simp at at_n
  | append_singleton words v ih =>
    have wide' : ∀ v ∈ words, v.length = d.lines.length := fun v hv => wide v (List.mem_append_left _ hv)
    have long := (d.storeAll_keeps pages pad words wide').2.2
    have v_wide : v.length = d.lines.length := wide v (by simp)
    rw [List.reverse_append] at at_n
    have line : ((d.storeAll pages pad (words ++ [v])).lines.getD pos []) =
        (v[pos] :: (d.storeAll pages pad words).lines.getD pos []).take (pages * 1024) := by
      rw [Delay.storeAll_snoc]
      unfold Delay.store Config.pageWords
      simp only [List.getD_eq_getElem?_getD, List.getElem?_zipWith]
      rw [List.getElem?_eq_getElem (by omega), List.getElem?_eq_getElem (by omega)]
      rfl
    rw [line, List.getElem?_take, if_pos room]
    cases n with
    | zero =>
      obtain rfl : v = w := by simpa using at_n
      rw [List.getElem?_eq_getElem (by omega)] at at_pos
      simpa using at_pos
    | succ n => exact ih wide' n (by omega) (by simpa using at_n)

/-- Settles O26. -/
theorem delayLineDelivers : Obligations.DelayLineDelivers := by
  intro d pages pad pos n words w x present d1 wide inside n_eq some_ room at_n at_pos
  obtain ⟨app, pads, -⟩ := d.storeAll_keeps pages pad words wide
  have word := d.storeAll_word pages pad pos inside words wide (n - 1) (by omega) w x at_n at_pos
  have age : d1.dApp + d1.padsNow.getD pos 0 = n - 1 + 1 := by
    rw [show d1 = d.storeAll pages pad words from rfl, app, pads, n_eq]
    omega
  have word : ((d.storeAll pages pad words).lines.getD pos []).getD (n - 1) 0 = x := by
    rw [List.getD_eq_getElem?_getD, word]
    rfl
  unfold Delay.deliver
  rw [age]
  dsimp only
  rw [show d1 = d.storeAll pages pad words from rfl, app, word]

/-! ### Searches for a real bound -/

/-- A search for the largest number below a real bound finds its floor. -/
theorem findMax_eq_floor (p : Nat → Bool) (bits : Nat) (y : ℝ) (h : ∀ m : Nat, p m = true ↔ (m : ℝ) ≤ y)
    (small : y < 2 ^ bits) : findMax p 0 bits = ⌊y⌋₊ := by
  by_cases pos : 0 ≤ y
  · refine le_antisymm (Nat.le_floor ((h _).mp (findMax_holds p 0 bits ((h 0).mpr (by simpa using pos))))) ?_
    refine findMax_largest p 0 bits (fun a b le hb => (h a).mpr (le_trans (by exact_mod_cast le) ((h b).mp hb))) _ ?_
      ((h _).mpr (Nat.floor_le pos))
    rw [Nat.zero_add]
    exact_mod_cast lt_of_le_of_lt (Nat.floor_le pos) small
  · have never : ∀ m, p m = false := fun m => Bool.eq_false_iff.mpr fun hm => pos (le_trans (Nat.cast_nonneg m) ((h m).mp hm))
    rw [Nat.floor_of_nonpos (le_of_not_ge pos)]
    clear h small
    induction bits with
    | zero => rfl
    | succ n ih =>
      unfold findMax
      rw [never, if_neg Bool.false_ne_true]
      exact ih

/-- A comparison with a power of ten is one of real numbers. -/
theorem mulPowTenLe_iff (a : Nat) (g : Int) (b : Nat) : mulPowTenLe a g b = true ↔ (a : ℝ) * (10 : ℝ) ^ g ≤ b := by
  cases g with
  | ofNat n =>
    unfold mulPowTenLe
    rw [decide_eq_true_iff, Int.ofNat_eq_natCast, zpow_natCast]
    exact_mod_cast Iff.rfl
  | negSucc n =>
    unfold mulPowTenLe
    rw [decide_eq_true_iff, zpow_negSucc, ← div_eq_mul_inv, div_le_iff₀ (by positivity)]
    exact_mod_cast Iff.rfl

/-- The same with a power of ten whose exponent has been cleared of its denominator. -/
theorem pow_mul_zpow_le_iff (n : Nat) (hn : n ≠ 0) (x y : ℝ) (hx : 0 ≤ x) (hy : 0 ≤ y) (g : Int) :
    x ^ n * (10 : ℝ) ^ g ≤ y ^ n ↔ x * (10 : ℝ) ^ ((g : ℝ) / n) ≤ y := by
  have ten : (10 : ℝ) ^ g = ((10 : ℝ) ^ ((g : ℝ) / n)) ^ n := by
    rw [← Real.rpow_natCast, ← Real.rpow_mul (by norm_num), div_mul_cancel₀ _ (by exact_mod_cast hn), Real.rpow_intCast]
  rw [ten, ← mul_pow]
  exact pow_le_pow_iff_left₀ (by positivity) hy hn

/-! ### The multiplier and the gained word (R113, R115) -/

/-- 10^(g/2000) stays within the range of the search. -/
theorem rpow_gain_lt (g : Int) : (10 : ℝ) ^ ((g : ℝ) / 2000) * 2 ^ 20 + 1 / 2 < 2 ^ (22 + g.toNat / 500) := by
  have quarter : (10 : ℝ) ^ ((1 : ℝ) / 4) ≤ 2 := by
    have : ((10 : ℝ) ^ ((1 : ℝ) / 4)) ^ 4 ≤ 2 ^ 4 := by
      rw [← Real.rpow_natCast, ← Real.rpow_mul (by norm_num)]
      norm_num
    exact le_of_pow_le_pow_left₀ (by norm_num) (by norm_num) this
  have exponent : (g : ℝ) / 500 ≤ (g.toNat / 500 : ℕ) + 1 := by
    have whole : g ≤ 500 * ((g.toNat / 500 : ℕ) : Int) + 500 := by omega
    generalize g.toNat / 500 = q at whole ⊢
    have : (g : ℝ) ≤ 500 * (q : ℝ) + 500 := by exact_mod_cast whole
    linarith
  have power : (10 : ℝ) ^ ((g : ℝ) / 2000) ≤ 2 ^ (g.toNat / 500 + 1) := by
    calc (10 : ℝ) ^ ((g : ℝ) / 2000)
        ≤ (10 : ℝ) ^ ((1 : ℝ) / 4 * (g.toNat / 500 + 1 : ℕ)) := by
          refine Real.rpow_le_rpow_of_exponent_le (by norm_num) ?_
          push_cast at exponent ⊢
          linarith
      _ = ((10 : ℝ) ^ ((1 : ℝ) / 4)) ^ (g.toNat / 500 + 1) := by
          rw [Real.rpow_mul (by norm_num), Real.rpow_natCast]
      _ ≤ 2 ^ (g.toNat / 500 + 1) := pow_le_pow_left₀ (by positivity) quarter _
  have one : (1 : ℝ) ≤ 2 ^ (g.toNat / 500) := one_le_pow₀ (by norm_num)
  rw [pow_succ] at power
  rw [pow_add]
  nlinarith

/-- R113: the multiplier of a gain. -/
theorem multiplierOf_eq (g : Int) : (multiplierOf g : Int) = ⌊(10 : ℝ) ^ ((g : ℝ) / 2000) * 2 ^ 20 + 1 / 2⌋ := by
  have test : ∀ m : Nat, mulPowTenLe ((2 * m - 1) ^ 2000) (-g) (2 ^ 42000) = true ↔
      (m : ℝ) ≤ (10 : ℝ) ^ ((g : ℝ) / 2000) * 2 ^ 20 + 1 / 2 := by
    intro m
    have pos : 0 < (10 : ℝ) ^ ((g : ℝ) / 2000) := by positivity
    have two : (2 : ℝ) ^ 42000 = (2 ^ 21) ^ 2000 := by rw [← pow_mul]
    rw [mulPowTenLe_iff, Nat.cast_pow, Nat.cast_pow, Nat.cast_two, two,
      pow_mul_zpow_le_iff 2000 (by norm_num) _ _ (Nat.cast_nonneg _) (by positivity)]
    have minus : (10 : ℝ) ^ (((-g : Int) : ℝ) / (2000 : ℕ)) = ((10 : ℝ) ^ ((g : ℝ) / 2000))⁻¹ := by
      rw [← Real.rpow_neg (by norm_num)]
      push_cast
      ring_nf
    rw [minus, ← div_eq_mul_inv, div_le_iff₀ pos]
    cases m with
    | zero => simp; constructor <;> intro <;> positivity
    | succ m =>
      have cast : ((2 * (m + 1) - 1 : ℕ) : ℝ) = 2 * (m : ℝ) + 1 := by
        rw [show 2 * (m + 1) - 1 = 2 * m + 1 by omega]
        push_cast
        ring
      rw [cast]
      push_cast
      constructor <;> intro h <;> linarith
  unfold multiplierOf
  rw [findMax_eq_floor _ _ _ test (rpow_gain_lt g), Int.natCast_floor_eq_floor (by positivity)]

/-- R115: the product of a word and a multiplier, rounded. -/
theorem gainProduct_eq (m : Nat) (w : Sample) : gainProduct m w = ⌊((w.toInt : ℚ) * m) / 2 ^ 20 + 1 / 2⌋ := by
  unfold gainProduct
  have := Rat.floor_intCast_div_natCast (w.toInt * m + 524288) 1048576
  rw [show ((1048576 : ℕ) : Int) = 1048576 from rfl] at this
  rw [← this]
  congr 1
  push_cast
  ring

/-- Settles O34. -/
theorem gainArithmeticIsExact : Obligations.GainArithmeticIsExact := by
  refine ⟨multiplierOf_eq, fun m w => ?_⟩
  intro x
  have product : gainProduct m w = x := gainProduct_eq m w
  unfold gainWord
  rw [product]
  dsimp only
  split
  next high =>
    rw [toInt_sampleOf _ (by norm_num) (by norm_num)]
    exact ⟨by omega, by simp; omega⟩
  next fits =>
    split
    next under =>
      rw [toInt_sampleOf _ (by norm_num) (by norm_num)]
      exact ⟨by omega, by simp; omega⟩
    next fits' =>
      rw [toInt_sampleOf _ (by omega) (by omega)]
      exact ⟨by omega, by simp; omega⟩

/-! ### The probe's levels (R125, R126) -/

theorem logb_two_le : Real.logb 10 2 ≤ 0.302 := by
  rw [Real.logb_le_iff_le_rpow (by norm_num) (by norm_num)]
  have power : (2 : ℝ) ^ 53 ≤ ((10 : ℝ) ^ (16 / 53 : ℝ)) ^ 53 := by
    rw [← Real.rpow_natCast ((10 : ℝ) ^ (16 / 53 : ℝ)), ← Real.rpow_mul (by norm_num)]
    norm_num
  exact (le_of_pow_le_pow_left₀ (by norm_num) (by positivity) power).trans
    (Real.rpow_le_rpow_of_exponent_le (by norm_num) (by norm_num))

/-- R125: a window is loud when its mean square reaches the threshold. -/
theorem isLoud_iff (n : Nat) (th : Int) :
    isLoud n th = true ↔ (2 ^ 23 * (10 : ℝ) ^ ((th : ℝ) / 2000)) ^ 2 ≤ (n : ℝ) / 48 := by
  have square : ((10 : ℝ) ^ ((th : ℝ) / 2000)) ^ 2 = (10 : ℝ) ^ ((th : ℝ) / (1000 : ℕ)) := by
    rw [← Real.rpow_natCast, ← Real.rpow_mul (by norm_num)]
    push_cast
    ring_nf
  have cast : ((48 ^ 1000 * 2 ^ 46000 : ℕ) : ℝ) = (48 * 2 ^ 46 : ℝ) ^ 1000 := by
    rw [Nat.cast_mul, Nat.cast_pow, Nat.cast_pow, Nat.cast_ofNat, Nat.cast_ofNat, mul_pow, ← pow_mul]
  unfold isLoud
  rw [mulPowTenLe_iff, cast, Nat.cast_pow, pow_mul_zpow_le_iff 1000 (by norm_num) _ _ (by positivity) (Nat.cast_nonneg _),
    mul_pow, square, le_div_iff₀ (by norm_num)]
  constructor <;> intro h <;> linarith

/-- R126: a word reaches the threshold when its magnitude does. -/
theorem reachesThreshold_iff (w : Sample) (th : Int) :
    reachesThreshold w th = true ↔ 2 ^ 23 * (10 : ℝ) ^ ((th : ℝ) / 2000) ≤ (w.toInt.natAbs : ℝ) := by
  have cast : ((2 ^ 46000 : ℕ) : ℝ) = ((2 : ℝ) ^ 23) ^ 2000 := by
    rw [Nat.cast_pow, Nat.cast_ofNat, ← pow_mul]
  unfold reachesThreshold magnitude
  rw [mulPowTenLe_iff, cast, Nat.cast_pow, pow_mul_zpow_le_iff 2000 (by norm_num) _ _ (by positivity) (Nat.cast_nonneg _)]
  norm_cast

/-- R126: the level of a word other than 0. -/
theorem peakLevel_near (w : Sample) (sounding : w ≠ 0) :
    |2000 * Real.logb 10 ((w.toInt.natAbs : ℝ) / 2 ^ 23) - (peakLevel w : ℝ)| ≤ 1 / 2 := by
  have range := Sample.toInt_range w
  have nonzero : w.toInt ≠ 0 := fun h => sounding (BitVec.eq_of_toInt_eq h)
  have least : (1 : ℝ) ≤ (w.toInt.natAbs : ℝ) := by exact_mod_cast (by omega : 1 ≤ w.toInt.natAbs)
  have most : (w.toInt.natAbs : ℝ) ≤ 2 ^ 23 := by exact_mod_cast (by omega : w.toInt.natAbs ≤ 2 ^ 23)
  have cast : ((2 ^ 92000 : ℕ) : ℝ) = ((2 : ℝ) ^ 23) ^ 4000 := by
    rw [Nat.cast_pow, Nat.cast_ofNat, ← pow_mul]
  set L := 2000 * Real.logb 10 ((w.toInt.natAbs : ℝ) / 2 ^ 23) with L_eq
  have test : ∀ j : Nat, mulPowTenLe (2 ^ 92000) (2 * ((j : Int) - 16384) - 1) (magnitude w ^ 4000) = true ↔
      (j : ℝ) ≤ L + 1 / 2 + 16384 := by
    intro j
    unfold magnitude
    rw [mulPowTenLe_iff, cast, Nat.cast_pow, pow_mul_zpow_le_iff 4000 (by norm_num) _ _ (by positivity) (Nat.cast_nonneg _),
      mul_comm, ← le_div_iff₀ (by positivity), ← Real.le_logb_iff_rpow_le (by norm_num) (by positivity),
      div_le_iff₀ (by norm_num)]
    push_cast
    constructor <;> intro h <;> linarith
  have high : Real.logb 10 ((w.toInt.natAbs : ℝ) / 2 ^ 23) ≤ 0 :=
    Real.logb_nonpos (by norm_num) (by positivity) (by rw [div_le_one (by positivity)]; exact most)
  have low : -8 ≤ Real.logb 10 ((w.toInt.natAbs : ℝ) / 2 ^ 23) := by
    rw [Real.logb_div (by positivity) (by norm_num), Real.logb_pow]
    have := Real.logb_nonneg (b := 10) (by norm_num) least
    have := logb_two_le
    push_cast
    linarith
  have found : (peakLevel w : ℝ) = (⌊L + 1 / 2 + 16384⌋₊ : ℝ) - 16384 := by
    unfold peakLevel
    rw [findMax_eq_floor _ _ _ test (by linarith)]
    push_cast
    rfl
  have below := Nat.floor_le (show 0 ≤ L + 1 / 2 + 16384 by linarith)
  have above := Nat.lt_floor_add_one (L + 1 / 2 + 16384)
  rw [found, abs_le]
  constructor <;> linarith

/-- Settles O40. -/
theorem probeLevelsAreExact : Obligations.ProbeLevelsAreExact :=
  fun th => ⟨fun n => isLoud_iff n th, fun w => reachesThreshold_iff w th, peakLevel_near⟩

end Sys2Proof.Machine
end

section
/-! SUPPORT, O28, O29 and O36. The close of a sub-block: reports, measurement and the gain. -/

namespace Sys2Proof.Machine

/-! ### One programme at a close -/

/-- R88: the meter of a RUNNING programme behind a close, and the report of its levels. -/
def State.measured (s : State) (g : Pgm) : Meter × Report :=
  g.mtr.close g.ctl.layout s.closeNow.number s.closeNow.isShort (g.ctl.lanes.any fun k => !s.laneValidNow k)
    (decide (g.ctl.mode = .bypass))

/-- R109: the gain of a RUNNING programme behind a close. -/
def State.stepped (s : State) (p : ProgId) (g : Pgm) : Correction :=
  g.cor.atReport (s.measured g).2 s.presets[g.cor.top] g.ctl.mode (s.frozen p) (s.heldByLine p)

/-- R88, R109: a programme's records behind a close. -/
def State.closed (s : State) (p : ProgId) (g : Pgm) : Pgm :=
  if g.ctl.state = .running then { g with mtr := (s.measured g).1, cor := s.stepped p g } else g

/-- R95, R98, R109: a programme's report behind a close. -/
def State.reported (s : State) (p : ProgId) (g : Pgm) : Option Report :=
  if g.ctl.state = .running then some ((s.measured g).2.complete (s.stepped p g)) else none

@[simp] theorem getElem_setReport (s : State) (p q : ProgId) (r : Option Report) :
    (s.setReport p r).reports[q] = if q = p then r else s.reports[q] := by
  unfold State.setReport
  simp only [Fin.getElem_fin, Vector.getElem_set]
  by_cases h : q = p
  · subst h; simp
  · rw [if_neg h, if_neg fun e => h (Fin.ext e.symm)]

/-- A state that differs from `s` by records and reports closes a programme as `s` does. -/
theorem closePgm_eq (s t : State) (p : ProgId) (h : t = { s with pgms := t.pgms, reports := t.reports }) :
    closePgm s.closeNow t p = (t.updPgm p (s.closed p)).setReport p (s.reported p t.pgms[p]) := by
  have measured : t.pgms[p].mtr.close t.pgms[p].ctl.layout s.closeNow.number s.closeNow.isShort (t.anyLaneInvalid p)
      (decide (t.pgms[p].ctl.mode = .bypass)) = s.measured t.pgms[p] := by
    have lanes : t.lanes = s.lanes := by rw [h]
    unfold State.measured State.anyLaneInvalid State.laneValidNow
    rw [lanes]
  have stepped : t.pgms[p].cor.atReport (s.measured t.pgms[p]).2 (t.presetOf p) t.pgms[p].ctl.mode (t.frozen p)
      (t.heldByLine p) = s.stepped p t.pgms[p] := by
    have presets : t.presets = s.presets := by rw [h]
    have points : t.points = s.points := by rw [h]
    have gpis : t.gpis = s.gpis := by rw [h]
    unfold State.stepped State.presetOf State.frozen State.heldByLine
    rw [presets, points, gpis]
  unfold closePgm
  dsimp only
  rw [measured, stepped]
  split
  next running =>
    have one : (t.updPgm p fun g => { g with mtr := (s.measured t.pgms[p]).1, cor := s.stepped p t.pgms[p] }) =
        t.updPgm p (s.closed p) := by
      simp only [State.updPgm, State.closed, running, if_true]
    rw [one]
    simp only [State.reported, running, if_true]
  next stopped =>
    have one : t.updPgm p (s.closed p) = t := by
      simp only [State.updPgm, State.closed, if_neg stopped]
      simp
    rw [one]
    simp only [State.reported, if_neg stopped]

/-- R88, R95, R109: the programmes at a close, one behind the other. -/
theorem foldl_closePgm (s : State) (ps : List ProgId) (nodup : ps.Nodup) (t : State)
    (h : t = { s with pgms := t.pgms, reports := t.reports }) :
    let u := ps.foldl (closePgm s.closeNow) t
    u = { s with pgms := u.pgms, reports := u.reports } ∧
      ∀ q : ProgId, u.pgms[q] = (if q ∈ ps then s.closed q t.pgms[q] else t.pgms[q]) ∧
        u.reports[q] = if q ∈ ps then s.reported q t.pgms[q] else t.reports[q] := by
  induction ps generalizing t with
  | nil => exact ⟨h, fun q => ⟨rfl, rfl⟩⟩
  | cons p ps ih =>
    obtain ⟨fresh, nodup⟩ := List.nodup_cons.mp nodup
    have one := closePgm_eq s t p h
    have frame : closePgm s.closeNow t p =
        { s with pgms := (closePgm s.closeNow t p).pgms, reports := (closePgm s.closeNow t p).reports } := by
      rw [one, h]
      rfl
    obtain ⟨whole, each⟩ := ih nodup _ frame
    refine ⟨whole, fun q => ?_⟩
    obtain ⟨pgm, report⟩ := each q
    rw [List.foldl_cons, pgm, report, one]
    have pgms : ((t.updPgm p (s.closed p)).setReport p (s.reported p t.pgms[p])).pgms[q] =
        if p = q then s.closed p t.pgms[q] else t.pgms[q] := getElem_updPgm t p q _
    rw [pgms, getElem_setReport]
    by_cases e : q = p
    · subst e; simp [fresh]
    · simp [e, Ne.symm e]

/-- R3, R88, R95, R109: a close that is due. -/
theorem subBlockClose_due (s : State) (due : s.closeDue = true) :
    subBlockClose s = { s with
      closeDue := false, scanDue := true, pgms := (subBlockClose s).pgms, reports := (subBlockClose s).reports } ∧
      ∀ p : ProgId, (subBlockClose s).pgms[p] = s.closed p s.pgms[p] ∧
        (subBlockClose s).reports[p] = s.reported p s.pgms[p] := by
  obtain ⟨frame, each⟩ := foldl_closePgm s allProgs allProgs_nodup s rfl
  have whole : subBlockClose s =
      { allProgs.foldl (closePgm s.closeNow) s with closeDue := false, scanDue := true } := if_pos due
  rw [whole]
  generalize allProgs.foldl (closePgm s.closeNow) s = t at frame each
  refine ⟨by rw [frame], fun p => ?_⟩
  obtain ⟨pgm, report⟩ := each p
  rw [if_pos (mem_allProgs p)] at pgm report
  exact ⟨pgm, report⟩

/-! ### The measurement (R87 to R93) -/

theorem isAdmitted_eq (o : Option Int) : isAdmitted o = decide (∃ x ∈ o, -7000 ≤ x) := by
  cases o <;> simp [isAdmitted]

/-- R91, R92: the entry of a bin moves the bins, the admission count and L_i. -/
theorem Meter.enterBin_frame (m : Meter) :
    m.enterBin = { m with bins := m.enterBin.bins, admitted := m.enterBin.admitted, li := m.enterBin.li } := by
  unfold Meter.enterBin
  split
  · rfl
  · split <;> rfl

/-- R88: the measurement moves the ring, the levels and the bins. -/
theorem Meter.measure_frame (m : Meter) (l : Layout) (valid : Bool) :
    m.measure l valid = { m with
      ring := (m.measure l valid).ring, lm := (m.measure l valid).lm, ls := (m.measure l valid).ls
      bins := (m.measure l valid).bins, admitted := (m.measure l valid).admitted, li := (m.measure l valid).li } := by
  unfold Meter.measure
  split
  · rw [Meter.enterBin_frame]
  · rfl

/-- R86, R88, R95: the meter behind a close. -/
theorem Meter.close_eq (m : Meter) (l : Layout) (number : Nat) (short inv bypass : Bool) :
    (m.close l number short inv bypass).1 =
      { m.measure l (m.isValid short) with
        energies := m.energies.map fun _ => 0, sum00 := 0, sum11 := 0, sum01 := 0, covered := true
        laneInvalid := inv, bypassSeen := bypass
        corr := m.correlationNow (m.isValid short), lastReport := some (number, m.isValid short) } := by
  have frame := m.measure_frame l (m.isValid short)
  unfold Meter.close Meter.startSubBlock
  dsimp only
  generalize m.measure l (m.isValid short) = n at frame ⊢
  rw [frame]

/-- R3: the number of a close, and whether it is short. -/
theorem State.closeNow_eq (s : State) :
    s.closeNow.number = (if s.hc.toNat < 4800 then 2 ^ 48 / 4800 + 1 else s.hc.toNat / 4800) ∧
      s.closeNow.isShort = !decide (4800 ≤ s.hc.toNat) := by
  unfold State.closeNow Close.isShort Config.subBlock
  split
  next early => exact ⟨rfl, by simp [early]⟩
  next late => exact ⟨rfl, by simp; omega⟩

/-- R87: a sub-block is valid. -/
theorem State.valid_eq (s : State) (m : Meter) :
    m.isValid s.closeNow.isShort =
      decide (m.covered = true ∧ m.laneInvalid = false ∧ m.bypassSeen = false ∧ 4800 ≤ s.hc.toNat) := by
  unfold Meter.isValid
  rw [s.closeNow_eq.2, Bool.eq_iff_iff]
  simp [and_assoc]

/-- R109: a report leaves the stack. -/
theorem Correction.atReport_stack (c : Correction) (r : Report) (pre : Preset) (mode : Mode) (frozen held : Bool) :
    (c.atReport r pre mode frozen held).stack = c.stack := by
  cases mode with
  | full =>
    unfold Correction.atReport
    dsimp only
    split
    · exact Correction.setGain_stack _ _
    · rfl
  | delay => rfl
  | bypass => rfl

/-- Settles O28. -/
theorem subBlockCloseFormsReports : Obligations.SubBlockCloseFormsReports := by
  intro s powered
  refine ⟨fun early => ?early, fun due => ?due⟩
  case early =>
    refine (event_powered _ s powered).trans (congrArg _ (if_neg ?_))
    rw [early]
    exact Bool.false_ne_true
  case due =>
    obtain ⟨frame, each⟩ := subBlockClose_due s due
    refine ⟨subBlockClose s, event_powered _ s powered, frame, fun p stopped => ?_, fun p running => ?_⟩
    all_goals
      obtain ⟨pgm, report⟩ := each p
      generalize subBlockClose s = t at pgm report ⊢
    · exact ⟨pgm.trans (if_neg stopped), report.trans (if_neg stopped)⟩
    · intro g m c n ok
      have pgm : t.pgms[p] = { g with mtr := (s.measured g).1, cor := s.stepped p g } := pgm.trans (if_pos running)
      have report : t.reports[p] = some ((s.measured g).2.complete (s.stepped p g)) := report.trans (if_pos running)
      have meter : m = (s.measured g).1 := by rw [show m = t.pgms[p].mtr from rfl, pgm]
      have gain : c = s.stepped p g := by rw [show c = t.pgms[p].cor from rfl, pgm]
      have valid : g.mtr.isValid s.closeNow.isShort = ok := s.valid_eq g.mtr
      have number : s.closeNow.number = n := s.closeNow_eq.1
      have closed : m = { g.mtr.measure g.ctl.layout ok with
          energies := g.mtr.energies.map fun _ => 0, sum00 := 0, sum11 := 0, sum01 := 0, covered := true
          laneInvalid := g.ctl.lanes.any fun k => !s.laneValidNow k, bypassSeen := decide (g.ctl.mode = .bypass)
          corr := g.mtr.correlationNow ok, lastReport := some (n, ok) } := by
        rw [meter, State.measured, Meter.close_eq, valid, number]
      have frame := g.mtr.measure_frame g.ctl.layout ok
      have top : c.top = g.cor.top := by
        unfold Correction.top
        rw [gain, State.stepped, Correction.atReport_stack]
      have clip : m.clip = g.mtr.clip := by rw [closed, frame]
      refine ⟨by rw [pgm], by rw [pgm], ?report, by rw [closed], by rw [closed, frame], clip, by rw [closed], by rw [closed],
        by rw [closed], by rw [closed], by rw [closed], by rw [closed]; simp, by rw [closed]; simp⟩
      have filled : (s.measured g).2.complete (s.stepped p g) =
          { number := s.closeNow.number, valid := g.mtr.isValid s.closeNow.isShort
            lm := (s.measured g).1.lm, ls := (s.measured g).1.ls, li := (s.measured g).1.li
            admission := g.mtr.isValid s.closeNow.isShort && isAdmitted (s.measured g).1.lm
            corr := (s.measured g).1.corr, clip := g.mtr.clip, preset := (s.stepped p g).top
            gStar := (s.stepped p g).gStar, g := (s.stepped p g).g, mNew := (s.stepped p g).mNew
            hold := (s.stepped p g).hold } := rfl
      rw [report, filled, valid, number, ← meter, ← gain, top, isAdmitted_eq, clip]

/-- R85, R88: the energy of a sub-block is the weighted mean of its lanes. -/
theorem subBlockEnergy_eq (l : Layout) (energies : List Rat) :
    subBlockEnergy l energies =
      ((List.range energies.length).map fun i => channelWeight l i * energies.getD i 0).sum / 4800 := by
  have indexed : (energies.zipIdx.map fun e => channelWeight l e.2 * e.1) =
      (List.range energies.length).map fun i => channelWeight l i * energies.getD i 0 := by
    refine List.ext_getElem? fun i => ?_
    rw [List.getElem?_map, List.getElem?_map, List.getElem?_zipIdx]
    by_cases inside : i < energies.length
    · rw [List.getElem?_eq_getElem inside, List.getElem?_range inside]
      simp [inside]
    · rw [List.getElem?_eq_none (by omega), List.getElem?_eq_none (by simp; omega)]
      rfl
  unfold subBlockEnergy
  rw [← indexed, List.sum_eq_foldl, List.foldl_map]

/-- R89, R90: a level over the newest entries of a ring. -/
theorem ringMean_level (ring : List Rat) (n : Nat) :
    (ringMean ring n).map levelOf =
      if ring.length < n then none else some (levelOf ((ring.drop (ring.length - n)).sum / n)) := by
  unfold ringMean
  rw [List.sum_eq_foldl]
  split <;> rfl

/-- R91: a level below the admission threshold, or none, enters no bin. -/
theorem Meter.enterBin_low (m : Meter) (h : m.lm = none ∨ ∃ x, m.lm = some x ∧ x < -7000) : m.enterBin = m := by
  unfold Meter.enterBin
  rcases h with h | ⟨x, h, low⟩
  · rw [h]
  · rw [h]
    exact if_pos low

/-- R91, R92: an admitted level is counted in its bin. -/
theorem Meter.enterBin_high (m : Meter) (x : Int) (h : m.lm = some x) (high : -7000 ≤ x) :
    m.enterBin = { m with
      bins := m.bins.setIfInBounds (binOf x) (countUp Config.count32 (m.bins.getD (binOf x) 0))
      admitted := countUp Config.count32 m.admitted
      li := integratedLevel (m.bins.setIfInBounds (binOf x) (countUp Config.count32 (m.bins.getD (binOf x) 0))).toList } := by
  unfold Meter.enterBin
  rw [h]
  exact if_neg (by omega)

/-- Settles O29. -/
theorem closeMeasuresSubBlock : Obligations.CloseMeasuresSubBlock := by
  intro s t p powered due closed running
  have t_eq : t = subBlockClose s := by
    have := (event_powered subBlockClose s powered).symm.trans closed
    exact (Host.Outcome.next.inj this).symm
  subst t_eq
  intro g old m ok e mean
  have pgm := ((subBlockClose_due s due).2 p).1.trans (if_pos running)
  have meter : m = { old.measure g.ctl.layout (decide ok) with
      energies := old.energies.map fun _ => 0, sum00 := 0, sum11 := 0, sum01 := 0, covered := true
      laneInvalid := g.ctl.lanes.any fun k => !s.laneValidNow k, bypassSeen := decide (g.ctl.mode = .bypass)
      corr := old.correlationNow (decide ok), lastReport := some (s.closeNow.number, decide ok) } := by
    rw [show m = (subBlockClose s).pgms[p].mtr from rfl, pgm]
    exact (Meter.close_eq old _ _ _ _ _).trans (by rw [s.valid_eq old])
  clear_value m
  refine ⟨fun invalid => ?_, fun valid => ?_⟩
  · rw [decide_eq_false invalid] at meter
    rw [meter]
    unfold Meter.measure Meter.correlationNow
    exact ⟨rfl, rfl, rfl, rfl, rfl, rfl, rfl⟩
  · rw [decide_eq_true valid] at meter
    have energy : subBlockEnergy g.ctl.layout old.energies = e := subBlockEnergy_eq _ _
    let joined : Meter := { old with
      ring := pushRing old.ring e, lm := (ringMean (pushRing old.ring e) 4).map levelOf
      ls := (ringMean (pushRing old.ring e) 30).map levelOf }
    have entered : old.measure g.ctl.layout true = joined.enterBin := by
      unfold Meter.measure
      rw [if_pos rfl, energy]
    rw [entered] at meter
    have frame := joined.enterBin_frame
    have ring : m.ring = pushRing old.ring e := by rw [meter, frame]
    have lm : m.lm = joined.lm := by rw [meter, frame]
    have ls : m.ls = joined.ls := by rw [meter, frame]
    have corr : m.corr = old.correlationNow true := by rw [meter]
    have counted : m.bins = joined.enterBin.bins ∧ m.admitted = joined.enterBin.admitted ∧ m.li = joined.enterBin.li := by
      rw [meter]
      exact ⟨rfl, rfl, rfl⟩
    refine ⟨ring, ?_, ?_, ?_, fun low => ?_, fun x level high => ?_⟩
    · rw [lm]
      dsimp only [joined, mean]
      rw [ringMean_level, ring]
    · rw [ls]
      dsimp only [joined, mean]
      rw [ringMean_level, ring]
    · rw [corr]
      unfold Meter.correlationNow
      simp only [true_and]
    · rw [lm] at low
      rw [joined.enterBin_low low] at counted
      exact counted
    · rw [lm] at level
      rw [joined.enterBin_high x level high] at counted
      obtain ⟨bins, admitted, li⟩ := counted
      intro b
      have b_lt : b < 300 := by omega
      rw [li, bins, admitted]
      refine ⟨?_, fun j other => ?_, rfl, rfl⟩
      · rw [show binOf x = b from rfl, Vector.getElem?_setIfInBounds_self]
        have old_b : old.bins[b]? = some old.bins[b] := Vector.getElem?_eq_getElem b_lt
        rw [if_pos b_lt, old_b]
        show some (countUp Config.count32 (old.bins.getD b 0)) = some (min 4294967295 (old.bins[b] + 1))
        simp [countUp, Config.count32, Vector.getD, b_lt]
      · rw [show binOf x = b from rfl]
        exact Vector.getElem?_setIfInBounds_ne (Ne.symm other)

/-! ### The gain at a close (R109 to R112) -/

theorem State.frozen_iff (s : State) (p : ProgId) :
    s.frozen p = true ↔ ∃ n : PointId, s.points[n].cfg.action = .freeze ∧ s.points[n].cfg.subject = .pgm p ∧
      (s.points[n].state = .active ∨ s.points[n].state = .forced) := by
  have listed : ∀ n : PointId, n ∈ allPoints := by decide
  unfold State.frozen
  simp only [List.any_eq_true, decide_eq_true_eq, listed, true_and]

theorem State.heldByLine_iff (s : State) (p : ProgId) :
    s.heldByLine p = true ↔
      ∃ (l : LineId) (ps : List ProgId), s.gpis[l].cfg.func = .hold ps ∧ p ∈ ps ∧ s.gpis[l].level = true := by
  unfold State.heldByLine
  simp only [List.any_eq_true, mem_allLines, true_and]
  refine exists_congr fun l => ?_
  split
  next ps func =>
    rw [Bool.and_eq_true, decide_eq_true_eq]
    constructor
    · exact fun h => ⟨ps, func, h⟩
    · rintro ⟨qs, same, h⟩
      obtain rfl : ps = qs := GpiFunc.hold.inj (func.symm.trans same)
      exact h
  next none => exact ⟨fun h => (nomatch h), fun ⟨ps, func, _⟩ => absurd func (none ps)⟩

theorem Report.lacksLevel_iff (r : Report) (m : GainMode) :
    r.lacksLevel m = true ↔ m ≠ .off ∧ (if m = .short then r.ls else r.li) = none := by
  cases m <;> simp [Report.lacksLevel]

theorem Report.isSilent_iff (r : Report) (x : Int) : r.isSilent x = true ↔ ∀ y, r.lm = some y → y < x := by
  unfold Report.isSilent
  cases r.lm <;> simp

theorem desiredGain_eq (r : Report) (pre : Preset) :
    desiredGain r pre = max (-pre.cut)
      (min (if pre.mode = .off then 0 else pre.target - (if pre.mode = .short then r.ls else r.li).getD 0) pre.boost) := by
  unfold desiredGain Preset.clampGain clampInt
  cases pre.mode <;> rfl

/-- R111 to R114: the gain of a programme that nothing holds. -/
theorem Correction.atReport_free (c : Correction) (r : Report) (pre : Preset) (frozen held : Bool)
    (free : holdCause r pre frozen held = .nothing) :
    c.atReport r pre .full frozen held =
      let want := desiredGain r pre
      let next := stepGain pre want c.g
      let made := if next = c.g then c.mNew else multiplierOf next
      { c with gStar := want, g := next, mNew := made, mOld := c.multNow, rampTo := made, rampPos := 0
               restart := false, hold := .nothing } := by
  unfold Correction.atReport
  dsimp only
  rw [if_pos free, free]
  unfold Correction.setGain Correction.restartRamp
  dsimp only
  split
  next same => rw [same]
  · rfl

theorem Correction.atReport_held_by (c : Correction) (r : Report) (pre : Preset) (frozen held : Bool) (cause : HoldCause)
    (is : holdCause r pre frozen held = cause) (some_ : cause ≠ .nothing) :
    c.atReport r pre .full frozen held = { c with hold := cause } := by
  unfold Correction.atReport
  dsimp only
  rw [is, if_neg some_]

/-- Settles O36. -/
theorem gainStepsAtClose : Obligations.GainStepsAtClose := by
  intro s t p powered due closed running
  have t_eq : t = subBlockClose s :=
    (Host.Outcome.next.inj ((event_powered subBlockClose s powered).symm.trans closed)).symm
  subst t_eq
  intro c r m level absent silent frozen held go want next made
  have pgm := ((subBlockClose_due s due).2 p).1.trans (if_pos running)
  have meter : m = (s.measured s.pgms[p]).1 := by rw [show m = (subBlockClose s).pgms[p].mtr from rfl, pgm]
  have gain : go = c.atReport (s.measured s.pgms[p]).2 r s.pgms[p].ctl.mode (s.frozen p) (s.heldByLine p) := by
    rw [show go = (subBlockClose s).pgms[p].cor from rfl, pgm]
    rfl
  have lm : (s.measured s.pgms[p]).2.lm = m.lm := by rw [meter]; rfl
  have ls : (s.measured s.pgms[p]).2.ls = m.ls := by rw [meter]; rfl
  have li : (s.measured s.pgms[p]).2.li = m.li := by rw [meter]; rfl
  generalize (s.measured s.pgms[p]).2 = rep at gain lm ls li
  have lacks : rep.lacksLevel r.mode = true ↔ absent := by
    rw [rep.lacksLevel_iff, ls, li]
  have quiet : rep.isSilent r.silence = true ↔ silent := by
    rw [rep.isSilent_iff, lm]
  have wanted : desiredGain rep r = want := by
    rw [desiredGain_eq, ls, li]
  refine ⟨fun other => ?_, fun full => ?_⟩
  · rw [gain]
    cases mode : s.pgms[p].ctl.mode with
    | full => exact absurd mode other
    | delay => rfl
    | bypass => rfl
  · rw [full] at gain
    have icy : s.frozen p = true ↔ frozen := s.frozen_iff p
    have gripped : s.heldByLine p = true ↔ held := s.heldByLine_iff p
    rw [gain]
    refine ⟨fun a => ?_, fun a b => ?_, fun a b f => ?_, fun a b f h => ?_, fun a b f h => ?_⟩
    · exact c.atReport_held_by rep r _ _ .absent (if_pos (lacks.mpr a)) (by decide)
    · exact c.atReport_held_by rep r _ _ .silence ((if_neg (a ∘ lacks.mp)).trans (if_pos (quiet.mpr b))) (by decide)
    · exact c.atReport_held_by rep r _ _ .freeze
        ((if_neg (a ∘ lacks.mp)).trans ((if_neg (b ∘ quiet.mp)).trans (if_pos (icy.mpr f)))) (by decide)
    · exact c.atReport_held_by rep r _ _ .hold ((if_neg (a ∘ lacks.mp)).trans ((if_neg (b ∘ quiet.mp)).trans
        ((if_neg (f ∘ icy.mp)).trans (if_pos (gripped.mpr h))))) (by decide)
    · rw [c.atReport_free rep r _ _ ((if_neg (a ∘ lacks.mp)).trans ((if_neg (b ∘ quiet.mp)).trans
        ((if_neg (f ∘ icy.mp)).trans (if_neg (h ∘ gripped.mp))))), wanted]
      rfl

end Sys2Proof.Machine
end

section
/-! SUPPORT, O31, O32 and O33. Words that requests refuse, and changes of preset. -/

namespace Sys2Proof.Machine

/-! ### Words that a request refuses (R187) -/

section refusals
variable {s : State} {tag : Nat} (ready : Ready s) (ht : tag ≤ 9999) {request : List Tok → Instr}
  {f : List Tok → State → Answer}
  (run : ∀ args, exec (request args) s = receive (request args) (fun s => s.answer tag (f args)) s)
include ready ht run

/-- R187: what a request refuses, by what its block answers. -/
theorem wordsRefused_of {unread outside : List Tok → Prop} (unreadable : ∀ args, unread args → f args s = refuse .synErr s)
    (beyond : ∀ args, outside args → f args s = refuse .range s) :
    wordsRefused s tag (fun args => exec (request args) s) unread outside :=
  fun args => ⟨fun h => (run args).trans (receive_er ready ht (unreadable args h)),
    fun h => (run args).trans (receive_er ready ht (beyond args h))⟩

/-- R187: a request that names one thing of a kind and nothing else. -/
theorem oneNumberRefused_of {k : NameKind} {n : Nat} (g : Fin n → Answer)
    (one : ∀ t, f [t] s = withIndex k n t s g) (other : ∀ args, (∀ t, args ≠ [t]) → f args s = refuse .synErr s) :
    oneNumberRefused s tag k n (fun args => exec (request args) s) := by
  refine wordsRefused_of ready ht run (fun args unread => ?_) fun args outside => ?_
  · by_cases single : ∃ t, args = [t]
    · obtain ⟨t, rfl⟩ := single
      exact (one t).trans (withIndex_none (unread t rfl))
    · exact other args fun t h => single ⟨t, h⟩
  · obtain ⟨t, rfl, x, number, out⟩ := outside
    exact (one t).trans (withIndex_range number out)

/-- R187: a request that names a programme and one word more. -/
theorem programmeAndWordRefused_of {α : Type} {read : Tok → Option α} (g : α → ProgId → Answer)
    (two : ∀ t y, f [t, y] s = match read y with | none => refuse .synErr s | some a => withIndex .P 8 t s (g a))
    (other : ∀ args, (∀ t y, args ≠ [t, y]) → f args s = refuse .synErr s) :
    programmeAndWordRefused s tag (fun y => (read y).isSome) (fun args => exec (request args) s) := by
  refine wordsRefused_of ready ht run (fun args unread => ?_) fun args outside => ?_
  · by_cases pair : ∃ t y, args = [t, y]
    · obtain ⟨t, y, rfl⟩ := pair
      rw [two]
      cases word : read y with
      | none => rfl
      | some a =>
        refine withIndex_none ((unread t y rfl).resolve_right ?_)
        simp [word]
    · exact other args fun t y h => pair ⟨t, y, h⟩
  · obtain ⟨t, y, rfl, readable, x, number, out⟩ := outside
    obtain ⟨a, word⟩ := Option.isSome_iff_exists.mp readable
    rw [two, word]
    exact withIndex_range number out

end refusals

/-! ### Two writes of one record -/

theorem State.updPgm_updPgm (s : State) (p : ProgId) (f g : Pgm → Pgm) :
    (s.updPgm p f).updPgm p g = s.updPgm p fun x => g (f x) := by
  simp [State.updPgm]

theorem State.updPgm_congr {s : State} {p : ProgId} {f g : Pgm → Pgm} (h : f s.pgms[p] = g s.pgms[p]) :
    s.updPgm p f = s.updPgm p g := by
  simp only [State.updPgm, h]

theorem State.updCor_updCor (s : State) (p : ProgId) (f g : Correction → Correction) :
    (s.updCor p f).updCor p g = s.updCor p fun x => g (f x) := State.updPgm_updPgm s p _ _

theorem State.updCor_congr {s : State} {p : ProgId} {f g : Correction → Correction} (h : f s.pgms[p].cor = g s.pgms[p].cor) :
    s.updCor p f = s.updCor p g := State.updPgm_congr (by rw [h])

/-! ### Preset changes (R108) -/

/-- R108: what a preset change makes of the correction record is what the rules give. -/
theorem presetTaken_eq (ctl : Ctl) (r : Preset) (c : Correction) :
    (c.clampTo r).follow ctl.state ctl.mode = presetTaken ctl r c := by
  have clamped : c.clampTo r = { c with
      g := r.clampGain c.g, gStar := r.clampGain c.gStar
      mNew := if r.clampGain c.g = c.g then c.mNew else multiplierOf (r.clampGain c.g) } := by
    unfold Correction.clampTo Correction.setGain
    dsimp only
    split
    next same => rw [same]
    · rfl
  rw [clamped]
  unfold Correction.follow presetTaken Preset.clampGain clampInt
  cases ctl.state <;> cases ctl.mode <;> simp

/-- R108: a preset change behind a change of the stack. -/
theorem presetChange_updCor (p : ProgId) (f : Correction → Correction) (s : State) (n : PresetId)
    (top : (f s.pgms[p].cor).top = n) :
    presetChange p (s.updCor p f) =
      s.updCor p fun _ => presetTaken s.pgms[p].ctl s.presets[n] (f s.pgms[p].cor) := by
  have record : (s.updCor p f).pgms[p] = { s.pgms[p] with cor := f s.pgms[p].cor } := State.updCor_self s p f
  have preset : (s.updCor p f).presetOf p = s.presets[n] := by
    refine presetOf_of_top ?_
    rw [record]
    exact top
  unfold presetChange
  dsimp only
  rw [record, preset, State.updCor_updCor]
  refine State.updCor_congr ?_
  exact presetTaken_eq _ _ _

/-! ### PRESET RECALL and PRESET PUSH (R106) -/

@[simp] theorem Correction.top_snoc (c : Correction) (l : List PresetId) (n : PresetId) (h : c.stack = l ++ [n]) : c.top = n := by
  unfold Correction.top
  rw [h]
  simp

theorem recallOn_eq (p : ProgId) (n : PresetId) (s : State) :
    recallOn p n s = s.updCor p fun _ => presetTaken s.pgms[p].ctl s.presets[n]
      { s.pgms[p].cor with stack := s.pgms[p].cor.stack.dropLast ++ [n] } :=
  presetChange_updCor p _ s n (Correction.top_snoc _ _ n rfl)

theorem pushOn_room (p : ProgId) (n : PresetId) (s : State) (room : s.pgms[p].cor.stack.length < 4) :
    pushOn p n s = s.updCor p fun _ => presetTaken s.pgms[p].ctl s.presets[n]
      { s.pgms[p].cor with stack := s.pgms[p].cor.stack ++ [n] } := by
  have pushes : s.pgms[p].cor.push n = { s.pgms[p].cor with stack := s.pgms[p].cor.stack ++ [n] } := if_pos room
  refine (presetChange_updCor p _ s n ?_).trans (by rw [pushes])
  rw [pushes]
  exact Correction.top_snoc _ _ n rfl

theorem pushOn_full (p : ProgId) (n : PresetId) (s : State) (full : s.pgms[p].cor.stack.length = 4) :
    pushOn p n s = s.updCor p fun _ => presetTaken s.pgms[p].ctl s.presets[n]
      { s.pgms[p].cor with stack := s.pgms[p].cor.stack.drop 1 ++ [n], overflow := min 65535 (s.pgms[p].cor.overflow + 1) } := by
  have pushes : s.pgms[p].cor.push n = { s.pgms[p].cor with
      stack := s.pgms[p].cor.stack.drop 1 ++ [n], overflow := min 65535 (s.pgms[p].cor.overflow + 1) } := if_neg (by omega)
  refine (presetChange_updCor p _ s n ?_).trans (by rw [pushes])
  rw [pushes]
  exact Correction.top_snoc _ _ n rfl

/-- R108: a preset change leaves the stack. -/
theorem presetTaken_stack (ctl : Ctl) (r : Preset) (c : Correction) : (presetTaken ctl r c).stack = c.stack := rfl

theorem depth_updCor (s : State) (p : ProgId) (c : Correction) : (s.updCor p fun _ => c).depth p = c.stack.length := by
  unfold State.depth
  rw [State.updCor_self]

/-- R105, R187: words of a request that names a programme and a preset. -/
theorem withPreset_unread {t u : Tok} {s : State} {f : ProgId → PresetId → Answer}
    (h : Tok.index? .P t = none ∨ Tok.index? .PS u = none) : withPreset t u s f = refuse .synErr s := by
  unfold withPreset
  cases preset : Tok.index? .PS u with
  | none => rfl
  | some x => exact withIndex_none (h.resolve_right (by rw [preset]; exact Option.some_ne_none x))

theorem withPreset_beyond {t u : Tok} {s : State} {f : ProgId → PresetId → Answer} (programme : (Tok.index? .P t).isSome)
    (preset : (Tok.index? .PS u).isSome) (h : beyond .P 8 t ∨ beyond .PS 16 u) : withPreset t u s f = refuse .range s := by
  obtain ⟨x, programme⟩ := Option.isSome_iff_exists.mp programme
  obtain ⟨y, preset⟩ := Option.isSome_iff_exists.mp preset
  unfold withPreset withProg withIndex
  rw [preset, programme]
  dsimp only
  split
  · rfl
  next p inside =>
    rcases h with ⟨z, named, out⟩ | ⟨z, named, out⟩
    · obtain rfl : x = z := Option.some.inj (programme.symm.trans named)
      rw [asFin_eq_none.mpr out] at inside
      nomatch inside
    · obtain rfl : y = z := Option.some.inj (preset.symm.trans named)
      rw [asFin_eq_none.mpr out]

theorem withPreset_fin {t u : Tok} {s : State} {f : ProgId → PresetId → Answer} {p : ProgId} {n : PresetId}
    (programme : Tok.fin? .P 8 t = some p) (preset : Tok.fin? .PS 16 u = some n) :
    withPreset t u s f = if s.pgms[p].ctl.state = .undefined then refuse .state s else f p n := by
  obtain ⟨x, number, inside⟩ := Tok.fin?_index preset
  unfold withPreset withProg
  rw [number]
  dsimp only
  rw [withIndex_fin programme, inside]

/-- Settles O32. -/
theorem recallAndPushChangePreset : Obligations.RecallAndPushChangePreset := by
  intro s tag ready ht
  refine ⟨⟨?recallRefused, ?pushRefused⟩, fun t y p n programme preset => ?_⟩
  case recallRefused =>
    refine wordsRefused_of ready ht (f := reqPresetRecall) (fun _ => rfl) (fun args unread => ?_) ?_
    · unfold reqPresetRecall
      split
      next t y => exact withPreset_unread (unread t y rfl)
      · rfl
    · rintro _ ⟨t, y, rfl, programme, preset, out⟩
      exact withPreset_beyond programme preset out
  case pushRefused =>
    refine wordsRefused_of ready ht (f := reqPresetPush) (fun _ => rfl) (fun args unread => ?_) ?_
    · unfold reqPresetPush
      split
      next t y => exact withPreset_unread (unread t y rfl)
      · rfl
    · rintro _ ⟨t, y, rfl, programme, preset, out⟩
      exact withPreset_beyond programme preset out
  intro c changed
  have recalls : reqPresetRecall [t, y] s = if s.pgms[p].ctl.state = .undefined then refuse .state s
      else okReply [natFld ((recallOn p n s).depth p)] (recallOn p n s) := withPreset_fin programme preset
  have pushes : reqPresetPush [t, y] s = if s.pgms[p].ctl.state = .undefined then refuse .state s
      else okReply [natFld ((pushOn p n s).depth p)] (pushOn p n s) := withPreset_fin programme preset
  refine ⟨fun undefined => ⟨?_, ?_⟩, fun defined => ⟨?_, fun room => ?_, fun full => ?_⟩⟩
  · exact receive_er ready ht (recalls.trans (if_pos undefined))
  · exact receive_er ready ht (pushes.trans (if_pos undefined))
  · refine receive_ok ready ht ((recalls.trans (if_neg defined)).trans ?_)
    rw [recallOn_eq, depth_updCor, presetTaken_stack, List.length_append, List.length_dropLast]
    rfl
  · refine receive_ok ready ht ((pushes.trans (if_neg defined)).trans ?_)
    rw [pushOn_room p n s room, depth_updCor, presetTaken_stack, List.length_append]
    rfl
  · refine receive_ok ready ht ((pushes.trans (if_neg defined)).trans ?_)
    rw [pushOn_full p n s full, depth_updCor, presetTaken_stack, List.length_append, List.length_drop, full]
    rfl

/-! ### Pops (R107, R159) -/

theorem popOn_eq (p : ProgId) (s : State) :
    popOn p s = s.updCor p fun _ => presetTaken s.pgms[p].ctl s.presets[s.pgms[p].cor.stack.dropLast.getLastD 0]
      { s.pgms[p].cor with stack := s.pgms[p].cor.stack.dropLast } :=
  presetChange_updCor p Correction.pop s _ rfl

theorem applyAction_pop (p : ProgId) (s : State) (defined : s.pgms[p].ctl.state ≠ .undefined) :
    applyAction (.pop p) s = ((popOrCount p s).1, if (popOrCount p s).2 then .done else .state) := if_neg defined

/-- Settles O33. -/
theorem popReturnsToPreset : Obligations.PopReturnsToPreset := by
  intro s tag ready ht
  have one : ∀ t, reqPresetPop [t] s = withIndex .P 8 t s fun p =>
      if s.pgms[p].ctl.state = .undefined ∨ s.depth p < 2 then refuse .state s
      else okReply [natFld ((popOn p s).depth p)] (popOn p s) := fun _ => rfl
  refine ⟨oneNumberRefused_of ready ht (f := reqPresetPop) (fun _ => rfl) _ one fun args other => ?_, fun t p named => ?_⟩
  · unfold reqPresetPop
    split
    next t => exact absurd rfl (other t)
    · rfl
  intro c popped
  have answer := (one t).trans (withIndex_fin named)
  have pop : popOn p s = popped := popOn_eq p s
  refine ⟨fun refused => ?_, fun defined deep => ⟨?_, ?_⟩, fun defined shallow => ?_, fun l h n g line func defined => ?_⟩
  · exact receive_er ready ht (answer.trans (if_pos refused))
  · refine receive_ok ready ht (answer.trans ((if_neg ?_).trans ?_))
    · exact fun h => h.elim defined (Nat.not_lt.mpr deep)
    · rw [pop]
      dsimp only [popped]
      rw [depth_updCor, presetTaken_stack, List.length_dropLast]
      rfl
  · have popped_eq : popOrCount p s = (popped, true) := (if_pos deep).trans (by rw [pop])
    rw [applyAction_pop p s defined, popped_eq]
    rfl
  · have counted : popOrCount p s = _ := if_neg (Nat.not_le.mpr shallow)
    rw [applyAction_pop p s defined, counted]
    rfl
  · subst line
    have act : runFunction { line := l, level := false, stamp := h } s =
        if s.gpis[l].rewritten then s else onDefined [p] (fun p s => (popOrCount p s).1) s := by
      unfold runFunction
      simp only [func]
    have alone : onDefined [p] (fun p s => (popOrCount p s).1) s = (popOrCount p s).1 := if_neg defined
    rw [act, alone]
    unfold popOrCount
    rw [pop]
    split
    · rfl
    · split <;> rfl

/-! ### PRESET SET (R103) -/

/-- R103: the number that a field's word carries. -/
def wordNumber (e : Kw × Tok) : Int := (Tok.signed? e.2).getD 0

/-- R103: the value that a field keeps of the number it is given. -/
def fieldKept (e : Kw × Tok) : Int :=
  if e.1 = .TARGET then clampInt (-4000) (-500) (wordNumber e)
  else if e.1 = .BOOST then clampInt 0 1200 (wordNumber e)
  else if e.1 = .CUT then clampInt 0 3000 (wordNumber e)
  else if e.1 = .SILENCE then clampInt (-7000) (-2000) (wordNumber e)
  else cutRate (wordNumber e)

/-- R103: a record with one field written. -/
def fieldPut (r : Preset) (e : Kw × Tok) : Preset :=
  if e.1 = .MODE then { r with mode := (Tok.gainMode? e.2).getD .off }
  else if e.1 = .TARGET then { r with target := fieldKept e }
  else if e.1 = .BOOST then { r with boost := fieldKept e }
  else if e.1 = .CUT then { r with cut := fieldKept e }
  else if e.1 = .ATTACK then { r with attack := fieldKept e }
  else if e.1 = .RELEASE then { r with release := fieldKept e }
  else { r with silence := fieldKept e }

/-- R103: a field keyword with a word that can be read. -/
def FieldRead (e : Kw × Tok) : Prop :=
  e.1 = .MODE ∧ (Tok.gainMode? e.2).isSome ∨
    e.1 ∈ [Kw.TARGET, .BOOST, .CUT, .ATTACK, .RELEASE, .SILENCE] ∧ (Tok.signed? e.2).isSome

theorem PresetEdit.field_eq (x : PresetEdit) (e : Kw × Tok) (read : FieldRead e) :
    x.field (.kw e.1) e.2 = some
      { preset := fieldPut x.preset e, clamped := x.clamped || decide (e.1 ≠ .MODE ∧ fieldKept e ≠ wordNumber e) } := by
  obtain ⟨k, v⟩ := e
  rcases read with ⟨rfl, mode⟩ | ⟨listed, number⟩
  · obtain ⟨m, mode⟩ := Option.isSome_iff_exists.mp mode
    simp [PresetEdit.field, fieldPut, mode]
  · obtain ⟨n, number⟩ := Option.isSome_iff_exists.mp number
    have value : wordNumber (k, v) = n := by simp [wordNumber, number]
    simp only [List.mem_cons, List.not_mem_nil, or_false] at listed
    rcases listed with rfl | rfl | rfl | rfl | rfl | rfl <;>
      simp [PresetEdit.field, fieldPut, fieldKept, number, value, PresetEdit.write, PresetEdit.writeRate]

theorem PresetEdit.fields_eq (edits : List (Kw × Tok)) (read : ∀ e ∈ edits, FieldRead e) (x : PresetEdit) :
    x.fields (edits.flatMap fun e => [.kw e.1, e.2]) = some
      { preset := edits.foldl fieldPut x.preset
        clamped := x.clamped || decide (∃ e ∈ edits, e.1 ≠ .MODE ∧ fieldKept e ≠ wordNumber e) } := by
  induction edits generalizing x with
  | nil => simp [PresetEdit.fields]
  | cons e edits ih =>
    have first := x.field_eq e (read e List.mem_cons_self)
    simp only [List.flatMap_cons, List.cons_append, List.nil_append, PresetEdit.fields, first]
    rw [ih fun e later => read e (List.mem_cons_of_mem _ later)]
    refine congrArg some (congrArg (PresetEdit.mk _) ?_)
    rw [Bool.or_assoc, ← Bool.decide_or]
    simp only [List.exists_mem_cons_iff]

/-- Settles O31. -/
theorem presetSetWritesFields : Obligations.PresetSetWritesFields := by
  intro s tag t edits ready ht some_ read go num kept put
  obtain ⟨e, rest, edits_eq⟩ := List.exists_cons_of_ne_nil some_
  have answer : reqPresetSet (t :: edits.flatMap fun e => [.kw e.1, e.2]) s = withIndex .PS 16 t s fun n =>
      match ({ preset := s.presets[n], clamped := false } : PresetEdit).fields (edits.flatMap fun e => [.kw e.1, e.2]) with
      | none => refuse .synErr s
      | some e => okClamped (presetFlds e.preset) e.clamped (writePreset n e.preset s) := by
    rw [edits_eq]
    rfl
  refine ⟨fun n number out => ?_, fun n named => ?_⟩
  · exact receive_er ready ht (answer.trans (withIndex_range number (by omega)))
  · intro r
    have fields := PresetEdit.fields_eq edits read { preset := s.presets[n], clamped := false }
    have written := answer.trans (withIndex_fin named)
    rw [fields] at written
    have record : edits.foldl fieldPut s.presets[n] = r := rfl
    dsimp only at written
    rw [record, Bool.false_or] at written
    clear_value r
    refine ⟨_, receive_okFlags ready ht written, ?_, fun p => ?_⟩
    · obtain ⟨pgms, frame⟩ : ∃ pgms, writePreset n r s = { s with presets := s.presets.set n r, pgms := pgms } :=
        ⟨_, writePreset_frame n r s⟩
      rw [frame]
      have flags : ∀ c : Prop, ∀ (_ : Decidable c), flagIf (decide c) RFlag.clamped = if c then [.clamped] else [] := by
        intro c _
        unfold flagIf
        simp only [decide_eq_true_eq]
      rw [flags]
      rfl
    · rw [State.sendReply_pgms, writePreset_pgm]
      unfold Pgm.presetChanged
      rw [presetTaken_eq]

end Sys2Proof.Machine
end

section
/-! SUPPORT, O14. The edges of a port and its signal expiry. -/

namespace Sys2Proof.Machine

/-! ### What forming a word leaves of a lane -/

/-- R30: forming a word leaves the sources, the validity, the fade and the latency of a lane. -/
theorem laneFormed_frame (s : State) (k : LaneId) :
    ∃ r n f w, laneFormed s k = { s.lanes[k] with readPos := r, slips := n, fadePos := f, latch := w } := by
  rw [laneFormed_eq]
  exact Lane.form_frame s.ports s.lanes[k]

theorem laneFormed_source (s : State) (k : LaneId) : (laneFormed s k).source = s.lanes[k].source := by
  obtain ⟨r, n, f, w, h⟩ := laneFormed_frame s k
  rw [h]
  rfl

theorem laneFormed_onPort (s : State) (k : LaneId) (i : PortId) : (laneFormed s k).onPort i = s.lanes[k].onPort i := by
  unfold Lane.onPort
  rw [laneFormed_source]

theorem laneFormed_valid_eq (s : State) (k : LaneId) : (laneFormed s k).valid = s.lanes[k].valid := by
  obtain ⟨r, n, f, w, h⟩ := laneFormed_frame s k
  rw [h]

theorem laneFormed_congr {s t : State} (lanes : t.lanes = s.lanes) (ports : t.ports = s.ports) (k : LaneId) :
    laneFormed t k = laneFormed s k := by
  rw [laneFormed_eq, laneFormed_eq, lanes, ports]

theorem Lane.onPort_iff (l : Lane) (i : PortId) : l.onPort i = true ↔ ∃ x, l.source = some x ∧ x.port = i := by
  unfold Lane.onPort
  cases l.source <;> simp

theorem getElem_updPort (s : State) (i j : PortId) (f : Port → Port) :
    (s.updPort i f).ports[j] = if j = i then f s.ports[i] else s.ports[j] := by
  unfold State.updPort
  simp only [Fin.getElem_fin, Vector.getElem_set]
  by_cases h : j = i
  · subst h; simp
  · rw [if_neg h, if_neg fun e => h (Fin.ext e.symm)]

/-! ### The lanes of a port that changes (R34) -/

theorem formLanesOn_ports (i : PortId) (s : State) : (formLanesOn i s).ports = s.ports := by
  have frame := (formLanesOn_eq i s).1
  generalize formLanesOn i s = t at frame ⊢
  rw [frame]

/-- A port whose record is replaced, once the words of its lanes are fixed: a lane on it is settled by its new state. -/
theorem settled_lane (i : PortId) (f : Port → Port) (s : State) (k : LaneId) :
    (settleLanesOn i ((formLanesOn i s).updPort i f)).lanes[k] =
      if s.lanes[k].onPort i then
        (laneFormed s k).settle (f s.ports[i]).state.good (some (f s.ports[i]))
      else s.lanes[k] := by
  have formed := (formLanesOn_eq i s).2
  rw [(settleLanesOn_eq i _).2 k]
  have lane : ((formLanesOn i s).updPort i f).lanes[k] = if s.lanes[k].onPort i then laneFormed s k else s.lanes[k] := by
    rw [State.updPort_lanes]
    exact formed k
  have port : ((formLanesOn i s).updPort i f).ports[i] = f s.ports[i] := by
    rw [getElem_updPort, if_pos rfl, formLanesOn_ports]
  rw [lane]
  by_cases on : s.lanes[k].onPort i = true
  · have on' : (laneFormed s k).onPort i = true := by rw [laneFormed_onPort]; exact on
    obtain ⟨x, source, rfl⟩ := (Lane.onPort_iff _ _).mp on'
    rw [if_pos on, if_pos on', if_pos on]
    unfold State.sourceGood State.portOf
    rw [source]
    dsimp only [Option.map_some]
    rw [port]
  · rw [if_neg on, if_neg on, if_neg on]

theorem settled_frame (i : PortId) (f : Port → Port) (s : State) :
    settleLanesOn i ((formLanesOn i s).updPort i f) = { s with
      ports := s.ports.set i (f s.ports[i]), lanes := (settleLanesOn i ((formLanesOn i s).updPort i f)).lanes } := by
  have frame := (formLanesOn_eq i s).1
  have settled := (settleLanesOn_eq i ((formLanesOn i s).updPort i f)).1
  have ports := formLanesOn_ports i s
  generalize settleLanesOn i ((formLanesOn i s).updPort i f) = t at *
  rw [settled]
  unfold State.updPort
  dsimp only
  rw [ports]
  generalize formLanesOn i s = u at *
  rw [frame]

/-- R34: a lane that is invalid is SILENT. -/
theorem Lane.settle_bad (l : Lane) (p : Option Port) :
    l.settle false p = { l with valid := false, fade := .silent, fadePos := 0 } := rfl

/-! ### Edges and the expiry (R16, R20, R26) -/

theorem optNat_eq (o : Option Nat) : optNat o = optFld (fun n => .num n) o := by cases o <;> rfl

theorem Port.lose_count (p : Port) :
    p.lose = { p with lockLoss := if p.state = .locked ∨ p.state = .relocking then min 65535 (p.lockLoss + 1)
      else p.lockLoss } := by
  have good : p.state.good = decide (p.state = .locked ∨ p.state = .relocking) := by cases p.state <;> rfl
  unfold Port.lose
  simp only [good, decide_eq_true_eq]
  split
  · rfl
  · rfl

theorem Port.expire_eq (p : Port) :
    p.expire = { p with
      state := .noSignal, expiry := none, windowStart := none, inWindow := 0, history := [], agree := 0, relock := 0
      hasPred := false
      lockLoss := if p.state = .locked ∨ p.state = .relocking then min 65535 (p.lockLoss + 1) else p.lockLoss } := by
  unfold Port.expire
  rw [Port.lose_count]

theorem Port.edge_silent (p : Port) (pos : TickPos) (w : Frame) (silent : p.state = .noSignal) :
    p.edge pos w = { p with
      expiry := some (later pos 24576), frameNo := p.frameNo + 1, recent := w :: p.recent, state := .measuring
      windowStart := some pos, inWindow := 0, agree := 0, history := [], hasPred := false } := by
  unfold Port.edge
  rw [silent]
  rfl

theorem Port.edge_heard (p : Port) (pos : TickPos) (w : Frame) (heard : p.state ≠ .noSignal) :
    p.edge pos w = { p with
      expiry := some (later pos 24576), frameNo := p.frameNo + 1, recent := w :: p.recent
      inWindow := min 4096 (p.inWindow + 1) } := by
  unfold Port.edge
  split
  · contradiction
  · rfl

theorem atInstant_frame (s : State) (x : TickPos) : s.atInstant x = { s with phase := (s.atInstant x).phase } := by
  unfold State.atInstant
  split <;> rfl

/-- Settles O14. -/
theorem edgesKeepSignal : Obligations.EdgesKeepSignal := by
  refine ⟨fun s i ph w powered => ?edge, fun s i powered => ?expiry⟩
  case edge =>
    intro pos p heard
    refine ⟨fun silent => ?_, fun sounding => ?_⟩
    all_goals refine (event_powered _ s powered).trans (congrArg _ ?_)
    · refine (if_pos silent).trans ?_
      have moved : ({ s with phase := ph }.updPort i fun p => p.edge pos w) =
          { s with phase := ph, ports := s.ports.set i { heard with
              state := .measuring, windowStart := some pos, inWindow := 0, agree := 0, history := [], hasPred := false } } :=
        congrArg (fun q => ({ s with phase := ph, ports := s.ports.set i q } : State)) (p.edge_silent pos w silent)
      refine (congrArg (portNotice i false) moved).trans ?_
      unfold portNotice
      simp only [Fin.getElem_fin, Vector.getElem_set_self, optNat_eq]
      rfl
    · exact (if_neg sounding).trans
        (congrArg (fun q => ({ s with phase := ph, ports := s.ports.set i q } : State)) (p.edge_heard pos w sounding))
  case expiry =>
    intro p n
    refine ⟨fun x expiry reached => ?_, fun early => ?_⟩
    · have whole : signalExpiry i s =
          portNotice i false (settleLanesOn i ((formLanesOn i (s.atInstant x)).updPort i Port.expire)) := by
        unfold signalExpiry
        simp only [show s.ports[i].expiry = some x from expiry, reached, if_true]
      have instant := atInstant_frame s x
      have settled := settled_frame i Port.expire (s.atInstant x)
      have lane := settled_lane i Port.expire (s.atInstant x)
      generalize settleLanesOn i ((formLanesOn i (s.atInstant x)).updPort i Port.expire) = u at whole settled lane
      generalize s.atInstant x = v at instant settled lane
      have lanes : v.lanes = s.lanes := by rw [instant]
      have ports : v.ports = s.ports := by rw [instant]
      have lane : ∀ k : LaneId, u.lanes[k] =
          if s.lanes[k].onPort i then (laneFormed s k).settle s.ports[i].expire.state.good (some s.ports[i].expire)
          else s.lanes[k] := by
        intro k
        rw [lane k, laneFormed_congr lanes ports, lanes, ports]
      rw [Port.expire_eq] at lane
      rw [instant, Port.expire_eq] at settled
      refine ⟨_, event_powered _ s powered, ?_, fun k on => ?_, fun k off => ?_⟩
      all_goals rw [whole]
      · unfold portNotice
        rw [settled]
        simp only [Fin.getElem_fin, Vector.getElem_set_self, optNat_eq]
        rfl
      · have on_lane : u.lanes[k] = { laneFormed s k with valid := false, fade := .silent, fadePos := 0 } := by
          rw [lane k, if_pos on]
          rfl
        obtain ⟨r, m, f, w, formed⟩ := laneFormed_frame s k
        refine ⟨on_lane, ?_⟩
        show u.lanes[k].main = _ ∧ u.lanes[k].backup = _ ∧ u.lanes[k].current = _ ∧ u.lanes[k].lc = _
        rw [on_lane, formed]
        exact ⟨rfl, rfl, rfl, rfl⟩
      · show u.lanes[k] = s.lanes[k]
        rw [lane k, if_neg off]
    · refine (event_powered _ s powered).trans (congrArg _ ?_)
      unfold signalExpiry
      split
      · rfl
      next x expiry => rw [early x expiry]; rfl

end Sys2Proof.Machine
end

section
/-! PROOFS. What the pool's arbiter and the lines can do to the records of programmes: which of a line's figures stay, and that
nothing but PAGES notices is sent (R61, R69 to R71, R80). -/

namespace Sys2Proof.Machine

/-! ### Rows of notices -/

/-- Lines that are PAGES notices, each and every one. -/
def PagesTold (told : List Line) : Prop := ∀ x ∈ told, ∃ fields, x = .notice .pages fields

/-- `m` is `l` behind PAGES notices alone. -/
def Link.PagesSent (l m : Link) : Prop := ∃ told, PagesTold told ∧ m = l.notices told

theorem Link.PagesSent.refl (l : Link) : l.PagesSent l := ⟨[], fun _ h => (nomatch h), rfl⟩

theorem Link.PagesSent.trans {l m n : Link} (h : l.PagesSent m) (k : m.PagesSent n) : l.PagesSent n := by
  obtain ⟨a, ha, rfl⟩ := h
  obtain ⟨b, hb, rfl⟩ := k
  refine ⟨a ++ b, fun x hx => ?_, by simp only [Link.notices, List.foldl_append]⟩
  rcases List.mem_append.1 hx with hx | hx
  · exact ha x hx
  · exact hb x hx

/-- The figures of a line that no service, release or target moves: those that V, O, the latency and the motion mode set. -/
def Delay.figures (d : Delay) : Nat × Int × Nat × Nat × Bool × MotionMode × List Nat :=
  (d.v, d.o, d.t, d.dReq, d.floor, d.motionMode, d.padsNow)

/-- What a line that is STILL keeps: it stays STILL, with its counts and without a target that waits. -/
def Delay.RestsIn (d e : Delay) : Prop :=
  d.motion = .still → e.motion = .still ∧ e.slewCount = d.slewCount ∧ e.jumpPos = d.jumpPos ∧ e.pendTarget = d.pendTarget

/-- The line `e` of a programme that the arbiter may have served since it was `d`. -/
structure Delay.ServedIn (d e : Delay) : Prop where
  unserved : d.short = false → e = d
  dApp : e.dApp = d.dApp
  hist : e.hist = d.hist

/-- `t` is `s` but for lines, pages and PAGES notices; of the lines only those of the programmes `own` move by more than a
service of the arbiter. -/
structure LineMoves (own : ProgId → Prop) (s t : State) : Prop where
  moves : DlyMoves s t
  figures : ∀ q : ProgId, t.pgms[q].dly.figures = s.pgms[q].dly.figures
  rests : ∀ q : ProgId, s.pgms[q].dly.RestsIn t.pgms[q].dly
  others : ∀ q : ProgId, ¬ own q → s.pgms[q].dly.ServedIn t.pgms[q].dly
  told : s.link.PagesSent t.link

/-- No programme's line moves by more than a service. -/
abbrev Nobody : ProgId → Prop := fun _ => False

namespace LineMoves

variable {own : ProgId → Prop} {s t u : State}

theorem refl (s : State) : LineMoves own s s :=
  ⟨.refl s, fun _ => rfl, fun _ h => ⟨h, rfl, rfl, rfl⟩, fun _ _ => ⟨fun _ => rfl, rfl, rfl⟩, .refl _⟩

theorem trans (h : LineMoves own s t) (k : LineMoves own t u) : LineMoves own s u where
  moves := h.moves.trans k.moves
  figures q := (k.figures q).trans (h.figures q)
  rests q still := by
    obtain ⟨h1, h2, h3, h4⟩ := h.rests q still
    obtain ⟨k1, k2, k3, k4⟩ := k.rests q h1
    exact ⟨k1, k2.trans h2, k3.trans h3, k4.trans h4⟩
  others q not := by
    obtain ⟨h1, h2, h3⟩ := h.others q not
    obtain ⟨k1, k2, k3⟩ := k.others q not
    exact ⟨fun e => (k1 (by rw [h1 e, e])).trans (h1 e), k2.trans h2, k3.trans h3⟩
  told := h.told.trans k.told

theorem mono {more : ProgId → Prop} (h : LineMoves own s t) (le : ∀ q, own q → more q) : LineMoves more s t :=
  ⟨h.moves, h.figures, h.rests, fun q not => h.others q fun o => not (le q o), h.told⟩

theorem foldl {α : Type} {f : State → α → State} (h : ∀ s x, LineMoves own s (f s x)) (xs : List α) (s : State) :
    LineMoves own s (xs.foldl f s) := by
  induction xs generalizing s with
  | nil => exact refl s
  | cons x xs ih => exact (h s x).trans (ih _)

theorem setOwners (s : State) (o : List PageOwner) (h : o.length = s.owners.length) : LineMoves own s (s.setOwners o) :=
  ⟨.setOwners s o h, fun _ => rfl, fun _ h => ⟨h, rfl, rfl, rfl⟩, fun _ _ => ⟨fun _ => rfl, rfl, rfl⟩, .refl _⟩

theorem pagesNotice (p : ProgId) (cut : Bool) (s : State) : LineMoves own s (pagesNotice p cut s) :=
  ⟨.notify _ _ _, fun _ => rfl, fun _ h => ⟨h, rfl, rfl, rfl⟩, fun _ _ => ⟨fun _ => rfl, rfl, rfl⟩,
    ⟨[_], fun _ h => ⟨_, List.mem_singleton.1 h⟩, rfl⟩⟩

/-- A line that moves its own record. -/
theorem updDly (s : State) (p : ProgId) (f : Delay → Delay) (figures : (f s.pgms[p].dly).figures = s.pgms[p].dly.figures)
    (rests : s.pgms[p].dly.RestsIn (f s.pgms[p].dly)) (others : ¬ own p → s.pgms[p].dly.ServedIn (f s.pgms[p].dly)) :
    LineMoves own s (s.updDly p f) := by
  refine ⟨.updDly s p f, fun q => ?_, fun q => ?_, fun q not => ?_, .refl _⟩ <;> rw [getElem_updDly] <;> split
  · next e => subst e; exact figures
  · rfl
  · next e => subst e; exact rests
  · exact fun h => ⟨h, rfl, rfl, rfl⟩
  · next e => subst e; exact others not
  · exact ⟨fun _ => rfl, rfl, rfl⟩

end LineMoves

/-! ### The target of a line -/

theorem aimed_figures (d : Delay) (n : Nat) : (aimed d n).figures = d.figures := rfl

theorem aimed_rests (d : Delay) (n : Nat) : d.RestsIn (aimed d n) := by
  intro still
  simp [aimed, still]

/-! ### The arbiter -/

/-- R80: the state of a line that was given pages and a new record, and is told of. -/
theorem pagesNotice_line (p : ProgId) (s : State) (o : List PageOwner) (f : Delay → Delay) (x : Delay) (hx : f s.pgms[p].dly = x)
    (app : x.dApp = s.pgms[p].dly.dApp) (req : x.dReq = s.pgms[p].dly.dReq) :
    let u := pagesNotice p false ((s.setOwners o).updDly p f)
    u = { s with
      owners := o
      pgms := s.pgms.set p { s.pgms[p] with dly := x }
      link := s.link.notice (pagesLine u p (if s.pgms[p].ctl.state = .running then s.need p else 0) false) } := by
  intro u
  have own : ((s.setOwners o).updDly p f).pgms[p] = { s.pgms[p] with dly := x } := by
    rw [getElem_updDly, if_pos rfl, ← hx]; rfl
  have hu : u = _ := pagesNotice_eq p false _
  have line : ∀ n, pagesLine u p n false = pagesLine ((s.setOwners o).updDly p f) p n false := fun _ => rfl
  rw [line, hu, own, s.need_eq, app, req, ← hx]
  rfl

/-- R70: a service, as the statements give it. -/
theorem serve_served (s : State) (p : ProgId) : served s (serve s p) p := by
  unfold served
  extract_lets d c pad need held grant target passed
  have hn : s.need p = need := s.need_eq p
  have h : serve s p = if d.short = false then s else
      if need ≤ held + grant then
        pagesNotice p false ((s.setOwners (attachLanes p c.lanes.length grant s.owners)).updDly p
          fun d => ({ (if 0 < grant then d.attach held else d) with short := false } : Delay).place d.dReq)
      else if grant = 0 then s else
        pagesNotice p false ((s.setOwners (attachLanes p c.lanes.length grant s.owners)).updDly p
          fun d => (d.attach held).place (min d.dReq ((held + grant) * 1024 - pad))) := by
    unfold serve
    rw [hn]
    rfl
  have becomes : ∀ u : State, u.owners = attachLanes p c.lanes.length grant s.owners → pagesBecome s u p (· + grant) :=
    fun u hu => pagesBecome_attach s u p grant (grantFor_le s _ _) hu
  refine ⟨fun passes => ?_, fun waits => ?_⟩
  · rcases passes with met | ⟨lacks, none⟩
    · rw [h, if_pos met]
    · rw [h, if_neg (show ¬ need ≤ held + grant by rw [none]; exact Nat.not_le.2 lacks), if_pos none, ite_self]
  · obtain ⟨short, gets⟩ := not_or.1 waits
    rw [if_neg short] at h
    by_cases enough : need ≤ held + grant
    · rw [if_pos enough] at h
      have e := pagesNotice_line p s (attachLanes p c.lanes.length grant s.owners)
        (fun d => ({ (if 0 < grant then d.attach held else d) with short := false } : Delay).place d.dReq)
        (aimed { d with
          short := decide (held + grant < need)
          lines := if 0 < grant then d.lines.map (·.take (held * 1024)) else d.lines } target)
        (by
          have t : target = d.dReq := if_pos enough
          have m : decide (held + grant < need) = false := decide_eq_false (by omega)
          rw [Delay.place_eq, t, m]
          by_cases g : 0 < grant
          · simp only [if_pos g]; rfl
          · simp only [if_neg g]; rfl) rfl rfl
      rw [← h, hn] at e
      have o : (serve s p).owners = attachLanes p c.lanes.length grant s.owners := by rw [e]
      exact ⟨becomes _ o, by rw [o]; exact e⟩
    · have some_ : ¬ grant = 0 := fun z => gets ⟨by omega, z⟩
      rw [if_neg enough, if_neg some_] at h
      have e := pagesNotice_line p s (attachLanes p c.lanes.length grant s.owners)
        (fun d => (d.attach held).place (min d.dReq ((held + grant) * 1024 - pad)))
        (aimed { d with
          short := decide (held + grant < need)
          lines := if 0 < grant then d.lines.map (·.take (held * 1024)) else d.lines } target)
        (by
          have t : target = min d.dReq ((held + grant) * 1024 - pad) := if_neg enough
          have m : decide (held + grant < need) = d.short := by
            rw [decide_eq_true (by omega), Bool.eq_true_of_not_eq_false short]
          rw [Delay.place_eq, t, m, if_pos (Nat.pos_of_ne_zero some_)]; rfl) rfl rfl
      rw [← h, hn] at e
      have o : (serve s p).owners = attachLanes p c.lanes.length grant s.owners := by rw [e]
      exact ⟨becomes _ o, by rw [o]; exact e⟩

theorem serve_line (s : State) (p : ProgId) : LineMoves Nobody s (serve s p) := by
  unfold serve
  dsimp only
  have served : ∀ (o : List PageOwner) (x : Delay → Delay) (n : Delay → Nat), o.length = s.owners.length →
      (∀ d, (x d).figures = d.figures ∧ d.RestsIn (x d) ∧ (x d).dApp = d.dApp ∧ (x d).hist = d.hist) →
      s.pgms[p].dly.short ≠ false →
      LineMoves Nobody s (pagesNotice p false ((s.setOwners o).updDly p fun d => (x d).place (n d))) := by
    intro o x n length same short
    refine .trans (.trans (.setOwners s o length) (.updDly _ p _ ?_ ?_ fun _ => ?_)) (.pagesNotice p false _)
    all_goals rw [Delay.place_eq]; obtain ⟨figures, rests, app, hist⟩ := same s.pgms[p].dly
    · exact figures
    · intro still
      obtain ⟨h1, h2, h3, h4⟩ := rests still
      obtain ⟨k1, k2, k3, k4⟩ := aimed_rests (x s.pgms[p].dly) (n s.pgms[p].dly) h1
      exact ⟨k1, k2.trans h2, k3.trans h3, k4.trans h4⟩
    · exact ⟨fun met => absurd met short, app, hist⟩
  split
  · exact .refl s
  next short =>
  have length := attachLanes_length p (s.laneCount p) (s.grantFor (s.laneCount p) (s.need p - s.pagesHeld p)) s.owners
  split
  · refine served _ (fun d => { (if 0 < s.grantFor (s.laneCount p) (s.need p - s.pagesHeld p) then d.attach _ else d) with short := false }) Delay.dReq length (fun d => ?_) short
    split <;> exact ⟨rfl, fun h => ⟨h, rfl, rfl, rfl⟩, rfl, rfl⟩
  · split
    · exact .refl s
    · exact served _ (fun d => d.attach _) (fun d => min d.dReq _) length
        (fun d => ⟨rfl, fun h => ⟨h, rfl, rfl, rfl⟩, rfl, rfl⟩) short

theorem arbiter_line (s : State) : LineMoves Nobody s (arbiter s) := .foldl serve_line _ _

/-! ### Releases and targets -/

theorem releaseExcess_line (p : ProgId) (s : State) : LineMoves (· = p) s (releaseExcess p s) := by
  unfold releaseExcess
  dsimp only
  split
  · exact .refl s
  · refine .trans (.trans (.setOwners _ _ (releaseLanes_length _ _ _ _)) (.updDly _ p _ rfl ?_ ?_))
      ((arbiter_line _).mono fun _ no => no.elim)
    · exact fun h => ⟨h, rfl, rfl, rfl⟩
    · exact fun no => absurd rfl no

/-- R69: a release of pages keeps the length in use. -/
theorem releaseExcess_dApp (p : ProgId) (s : State) (q : ProgId) :
    (releaseExcess p s).pgms[q].dly.dApp = s.pgms[q].dly.dApp := by
  unfold releaseExcess
  dsimp only
  split
  · rfl
  · rw [((arbiter_line _).others q id).dApp, getElem_updDly]
    split <;> rfl

theorem takeTarget_line (p : ProgId) (n : Nat) (report : State → State) (h : ∀ s, LineMoves (· = p) s (report s)) (s : State) :
    LineMoves (· = p) s (takeTarget p n report s) := by
  have aims : LineMoves (· = p) s (s.updDly p fun d => d.place n) := by
    refine .updDly s p _ ?_ ?_ fun no => absurd rfl no
    · rw [Delay.place_eq]; rfl
    · rw [Delay.place_eq]; exact aimed_rests _ _
  unfold takeTarget
  dsimp only
  split
  · exact (aims.trans (h _)).trans (releaseExcess_line p _)
  · exact aims.trans (h _)

theorem retarget_line (p : ProgId) (s : State) : LineMoves (· = p) s (retarget p s) := by
  unfold retarget
  dsimp only
  have attaches : ∀ n held, LineMoves (· = p) s ((s.setOwners (attachLanes p (s.laneCount p) n s.owners)).updDly p
      fun d => if 0 < n then d.attach held else d) := by
    intro n held
    refine .trans (.setOwners s _ (attachLanes_length _ _ _ _)) (.updDly _ p _ ?_ ?_ fun no => absurd rfl no)
    · split <;> rfl
    · split <;> exact fun h => ⟨h, rfl, rfl, rfl⟩
  split
  · refine .trans (.trans (attaches _ _) (.updDly _ p _ rfl (fun h => ⟨h, rfl, rfl, rfl⟩) fun no => absurd rfl no))
      (takeTarget_line p _ _ (fun u => ?_) _)
    split
    · exact .pagesNotice p false u
    · exact .refl u
  · exact .trans (.trans (attaches _ _) (.updDly _ p _ rfl (fun h => ⟨h, rfl, rfl, rfl⟩) fun no => absurd rfl no))
      (takeTarget_line p _ _ (.pagesNotice p _) _)

end Sys2Proof.Machine
end

section
/-! PROOFS, O27 and O25. The ends of motions, and the requests that form a line's target. -/

namespace Sys2Proof.Machine

/-! ### Ends of motions (R73, R75) -/

theorem State.updDly_congr {s : State} {p : ProgId} {f g : Delay → Delay} (h : f s.pgms[p].dly = g s.pgms[p].dly) :
    s.updDly p f = s.updDly p g := by
  simp only [State.updDly, State.updPgm, h]

theorem State.updDly_updDly (s : State) (p : ProgId) (f g : Delay → Delay) :
    (s.updDly p f).updDly p g = s.updDly p fun d => g (f d) :=
  State.updPgm_updPgm s p _ _

/-- What the end of a motion of programme `p` leaves of every record. -/
theorem LineMoves.frame {p : ProgId} {s u : State} (h : LineMoves (· = p) s u) :
    u = { s with pgms := u.pgms, owners := u.owners, link := u.link } ∧
      (∀ q : ProgId, u.pgms[q].ctl = s.pgms[q].ctl ∧ u.pgms[q].mtr = s.pgms[q].mtr ∧ u.pgms[q].cor = s.pgms[q].cor) ∧
      ∀ q : ProgId, q ≠ p → u.pgms[q].dly.dApp = s.pgms[q].dly.dApp ∧ u.pgms[q].dly.hist = s.pgms[q].dly.hist :=
  ⟨h.moves.rest, fun q => ⟨h.moves.ctl q, h.moves.mtr q, h.moves.cor q⟩,
    fun q other => ⟨(h.others q other).dApp, (h.others q other).hist⟩⟩

/-- The end of a motion: its record is written, and pages are released. -/
theorem motion_ends (p : ProgId) (s : State) (f : Delay → Delay) (figures : (f s.pgms[p].dly).figures = s.pgms[p].dly.figures)
    (moving : s.pgms[p].dly.motion ≠ .still) :
    let u := releaseExcess p (s.updDly p f)
    LineMoves (· = p) s u ∧ u.pgms[p].dly.dApp = (f s.pgms[p].dly).dApp ∧ (f s.pgms[p].dly).RestsIn u.pgms[p].dly := by
  intro u
  have own : (s.updDly p f).pgms[p].dly = f s.pgms[p].dly := by rw [getElem_updDly, if_pos rfl]
  have frees := releaseExcess_line p (s.updDly p f)
  refine ⟨.trans (.updDly s p f figures (fun still => absurd still moving) fun no => absurd rfl no) frees, ?_, ?_⟩
  · rw [← own]; exact releaseExcess_dApp p _ p
  · have rests := frees.rests p
    rwa [own] at rests

/-- Settles O27. -/
theorem motionsEnd : Obligations.MotionsEnd := by
  refine ⟨fun s => ⟨rfl, fun p => serve_served s p⟩, fun s p powered => ?_⟩
  intro d run frame app
  refine ⟨fun running slewing due far => ?_, fun running slewing due there => ?_, fun not => ?_,
    fun running down due => ?_, fun not => ?_, fun running up due none_ => ?_, fun x running up due waits =>
      ⟨fun here => ?_, fun away => ?_⟩, fun not => ?_⟩
  · refine (event_powered _ s powered).trans (congrArg _ ?_)
    exact (if_pos ⟨running, slewing, due⟩).trans (if_neg far)
  · have moved : slewStep p s = releaseExcess p (s.updDly p fun d => { d with slewCount := 0, dApp := app, motion := .still }) := by
      refine ((if_pos ⟨running, slewing, due⟩).trans (if_pos there)).trans ?_
      rw [State.updDly_updDly]
    obtain ⟨moves, len, rests⟩ := motion_ends p s (fun d => { d with slewCount := 0, dApp := app, motion := .still }) rfl
      (by rw [slewing]; decide)
    obtain ⟨still, count, -, -⟩ := rests rfl
    exact ⟨_, (event_powered _ s powered).trans (congrArg _ moved), moves.frame, releaseExcess_released _ _, len, still, count⟩
  · exact (event_powered _ s powered).trans (congrArg _ (if_neg not))
  · have moved : jumpBottom p s = (releaseExcess p (s.updDly p fun d => { d with dApp := d.dTarget })).updDly p
        fun d => { d with motion := .fadingUp, jumpPos := 0 } := if_pos ⟨running, down, due⟩
    obtain ⟨moves, len, -⟩ := motion_ends p s (fun d => { d with dApp := d.dTarget }) rfl (by rw [down]; decide)
    refine ⟨_, (event_powered _ s powered).trans (congrArg _ moved), ?_, ⟨_, releaseExcess_released _ _, rfl⟩, ?_, ?_, ?_⟩
    · generalize releaseExcess p _ = w at moves ⊢
      obtain ⟨rest, pgm, dly⟩ := moves.frame
      refine ⟨?_, fun q => ?_, fun q other => ?_⟩
      · conv_lhs => rw [rest]
        rfl
      · rw [getElem_updDly]; split <;> exact pgm q
      · rw [getElem_updDly, if_neg (Ne.symm other)]; exact dly q other
    all_goals rw [getElem_updDly, if_pos rfl]
    exact len
  · exact (event_powered _ s powered).trans (congrArg _ (if_neg not))
  · refine (event_powered _ s powered).trans (congrArg _ ?_)
    unfold jumpFadeUpEnd
    dsimp only
    rw [if_pos ⟨running, up, due⟩, none_]
  · have moved : jumpFadeUpEnd p s = releaseExcess p (s.updDly p fun d =>
        { d with motion := .still, jumpPos := 0, dTarget := x, pendTarget := none }) := by
      unfold jumpFadeUpEnd
      dsimp only
      rw [if_pos ⟨running, up, due⟩, waits]
      exact if_pos here
    obtain ⟨moves, len, rests⟩ := motion_ends p s (fun d =>
      { d with motion := .still, jumpPos := 0, dTarget := x, pendTarget := none }) rfl (by rw [up]; decide)
    obtain ⟨still, -, pos, none_⟩ := rests rfl
    exact ⟨_, (event_powered _ s powered).trans (congrArg _ moved), moves.frame, releaseExcess_released _ _, len, still, pos, none_⟩
  · intro slews
    refine (event_powered _ s powered).trans (congrArg _ ?_)
    unfold jumpFadeUpEnd
    dsimp only
    rw [if_pos ⟨running, up, due⟩, waits]
    refine (if_neg away).trans ?_
    rw [State.updDly_updDly]
    refine State.updDly_congr ?_
    rw [Delay.start_eq]
    by_cases slow : slews
    · simp only [if_pos slow]
      exact if_pos slow
    · simp only [if_neg slow]
      exact if_neg slow
  · exact (event_powered _ s powered).trans (congrArg _ (if_neg not))

/-! ### A line that takes a new length (R64, R68, R69) -/

/-- R69: what a release keeps of its own line: the length in use, and of one that is not SHORT its motion and its target. -/
theorem released_keeps {s u : State} {p : ProgId} (h : released s u p) :
    u.pgms[p].dly.dApp = s.pgms[p].dly.dApp ∧
      (s.pgms[p].dly.short = false → u.pgms[p].dly.short = false ∧ u.pgms[p].dly.motion = s.pgms[p].dly.motion ∧
        u.pgms[p].dly.dTarget = s.pgms[p].dly.dTarget) := by
  unfold released at h
  extract_lets d pad pages keep held at h
  obtain ⟨stays, frees⟩ := h
  by_cases few : held ≤ keep
  · rw [stays few]
    exact ⟨rfl, fun met => ⟨met, rfl, rfl⟩⟩
  · obtain ⟨v, hu, -, hv⟩ := frees (Nat.lt_of_not_le few)
    have own : v.pgms[p].dly = { s.pgms[p].dly with hist := v.pgms[p].dly.hist, lines := v.pgms[p].dly.lines } := by
      rw [hv]
      simp only [getElem_set_pgm, if_true]
      rfl
    have served := (arbiter_line v).others p id
    rw [hu]
    refine ⟨by rw [served.dApp, own], fun met => ?_⟩
    rw [served.unserved (by rw [own]; exact met), own]
    exact ⟨met, rfl, rfl⟩

/-- R68: the pages a line holds behind its grant. -/
theorem pagesBecome_held {s a : State} {p : ProgId} {asked : Nat}
    (h : pagesBecome s a p (· + min asked (s.freePages / s.pgms[p].ctl.lanes.length))) :
    a.pagesHeld p = s.pagesHeld p + min asked (s.freePages / s.pgms[p].ctl.lanes.length) := by
  have own := h.2.2 p 0
  unfold State.pagesHeld
  rw [own]
  by_cases lanes : 0 < s.pgms[p].ctl.lanes.length
  · rw [if_pos ⟨rfl, lanes⟩]
  · rw [if_neg fun c => lanes c.2, Nat.eq_zero_of_not_pos lanes, Nat.div_zero, Nat.min_zero, Nat.add_zero]

/-- R68: a line that has been cut to its pages, and whose target is then its length, needs all of them. -/
theorem pages_needed_after_cut (held app req pad : Nat) (few : held < max 1 ((max app req + pad + 1023) / 1024))
    (there : min req (held * 1024 - pad) = min app (held * 1024 - pad)) :
    held ≤ max 1 ((max (min app (held * 1024 - pad)) req + pad + 1023) / 1024) := by
  omega

/-- R68, R69: what a line that has taken its length holds: met by its pages, or SHORT and cut to them. -/
theorem retargeted_outcome {s u : State} {p : ProgId} (h : retargeted s u p) :
    let d := s.pgms[p].dly
    let pad := maxPad s.pgms[p].ctl.pads
    let need := max 1 ((max d.dApp d.dReq + pad + 1023) / 1024)
    let pages := s.pagesHeld p + min (need - s.pagesHeld p) (s.freePages / s.pgms[p].ctl.lanes.length)
    let e := u.pgms[p].dly
    (need ≤ pages → e.short = false ∧ e.dApp = d.dApp ∧ (d.motion = .still → e.dTarget = d.dReq ∧ e.motion = .still)) ∧
    (pages < need → e.short = true ∧ e.dApp = min d.dApp (pages * 1024 - pad) ∧
      (d.motion = .still → e.dTarget = min d.dReq (pages * 1024 - pad) ∧ e.motion = .still)) := by
  unfold retargeted at h
  extract_lets d c pad need held grant cap unmet app target at h
  extract_lets d' pad' need' pages e
  obtain ⟨a, attached, ha, ends⟩ := h
  have own : a.pgms[p].dly = aimed { d with
        short := unmet, dApp := app, hist := min d.hist cap
        dTarget := if unmet = true ∧ d.motion = .fadingUp then min d.dTarget cap else d.dTarget
        lines := if 0 < grant then d.lines.map (·.take (held * 1024)) else d.lines } target := by
    rw [ha]
    simp only [getElem_set_pgm, if_true]
  have aOwn : a.pgms[p].dly.short = unmet ∧ a.pgms[p].dly.dApp = app ∧
      (d.motion = .still → a.pgms[p].dly.dTarget = target ∧ a.pgms[p].dly.motion = .still) := by
    rw [own]
    refine ⟨rfl, rfl, fun still => ⟨?_, ?_⟩⟩ <;> simp [aimed, still]
  obtain ⟨short, length, rests⟩ := aOwn
  refine ⟨fun enough => ?_, fun few => ?_⟩
  · have met : unmet = false := decide_eq_false (Nat.not_lt.2 enough)
    have happ : app = d.dApp := by simp only [app, met]; rfl
    have htarget : target = d.dReq := by simp only [target, met]; rfl
    rw [met] at short
    rw [happ] at length
    rw [htarget] at rests
    split at ends
    · obtain ⟨app2, keeps⟩ := released_keeps ends
      obtain ⟨short2, motion2, target2⟩ := keeps short
      exact ⟨short2, app2.trans length, fun still => ⟨target2.trans (rests still).1, motion2.trans (rests still).2⟩⟩
    · rw [show e = a.pgms[p].dly by simp only [e, ends]]
      exact ⟨short, length, rests⟩
  · have lacks : unmet = true := decide_eq_true few
    have happ : app = min d.dApp cap := by simp only [app, lacks]; rfl
    have htarget : target = min d.dReq cap := by simp only [target, lacks]; rfl
    have quiet : u = a := by
      split at ends
      next atTarget =>
        refine ends.1 ?_
        have held2 : a.pagesHeld p = held + grant := pagesBecome_held attached
        have ctl : a.pgms[p].ctl = c := by
          rw [ha]
          simp only [getElem_set_pgm, if_true]
          rfl
        have req : a.pgms[p].dly.dReq = d.dReq := by rw [own]; rfl
        have there : target = a.pgms[p].dly.dApp := atTarget.2.trans length.symm
        rw [length, happ, htarget] at there
        rw [held2, length, ctl, req, happ]
        exact Nat.le_trans (pages_needed_after_cut _ _ _ _ few there) (Nat.le_max_right _ _)
      · exact ends
    rw [show e = a.pgms[p].dly by simp only [e, quiet]]
    rw [lacks] at short
    rw [happ] at length
    rw [htarget] at rests
    exact ⟨short, length, rests⟩

/-- R64, R68: a write of V or O: T and D_req are formed, and the line of a RUNNING programme takes them. -/
theorem handOver_updDly (p : ProgId) (s : State) (f : Delay → Delay) :
    handOver p (s.updDly p f) =
      let w := { s with pgms := s.pgms.set p { s.pgms[p] with dly := lengthFormed s.pgms[p].ctl.lcPgm (f s.pgms[p].dly) } }
      if s.pgms[p].ctl.state = .running then retarget p w else w := by
  have ctl : (s.updDly p f).pgms[p].ctl = s.pgms[p].ctl := by rw [getElem_updDly, if_pos rfl]
  unfold handOver formLength
  rw [ctl, State.updDly_updDly]
  rfl

theorem flagIf_clamped (a b : Prop) [Decidable a] [Decidable b] :
    flagIf (decide a || decide b) .clamped = if a ∨ b then [.clamped] else [] := by
  by_cases ha : a <;> by_cases hb : b <;> simp [flagIf, ha, hb]

theorem targetClamped_iff (v : Nat) (o : Int) :
    targetClamped v o = decide ((v : Int) + o < 0 ∨ 384120 < (v : Int) + o) := by
  unfold targetClamped clampNote clampInt
  rw [decide_eq_decide, show (Config.maxTarget : Int) = 384120 from rfl]
  omega

/-- Settles O25. -/
theorem videoAndTrimFormTarget : Obligations.VideoAndTrimFormTarget := by
  intro s tag ready ht
  refine ⟨?videoRefused, ?trimRefused, fun t y p x programme => ?_⟩
  case videoRefused =>
    refine programmeAndWordRefused_of ready ht (f := reqDlyVideo) (fun _ => rfl) (read := Tok.int?)
      (fun v p => if s.pgms[p].ctl.state = .undefined then refuse .state s
        else okClamped (targetFlds (writeVideo p v s).1.pgms[p].dly) (writeVideo p v s).2 (writeVideo p v s).1)
      (fun t y => by
        cases h : Tok.int? y with
        | none => simp only [reqDlyVideo, h]
        | some v => simp only [reqDlyVideo, h]; rfl) fun args other => ?_
    unfold reqDlyVideo
    split
    next t v => exact absurd rfl (other t v)
    · rfl
  case trimRefused =>
    refine programmeAndWordRefused_of ready ht (f := reqDlyTrim) (fun _ => rfl) (read := Tok.signed?)
      (fun v p => if s.pgms[p].ctl.state = .undefined then refuse .state s
        else okClamped (targetFlds (writeTrim p v s).1.pgms[p].dly) (writeTrim p v s).2 (writeTrim p v s).1)
      (fun t y => by
        cases h : Tok.signed? y with
        | none => simp only [reqDlyTrim, h]
        | some v => simp only [reqDlyTrim, h]; rfl) fun args other => ?_
    unfold reqDlyTrim
    split
    next t v => exact absurd rfl (other t v)
    · rfl
  intro c d good
  have formed : ∀ (i : Instr) (f : State → Answer) (v : Nat) (o : Int) (changed : Bool) (g : Delay → Delay),
      exec i s = receive i (fun s => s.answer tag f) s → g d = { d with v := v, o := o } →
      (f s = if c.state = .undefined then refuse .state s
        else okClamped (targetFlds (handOver p (s.updDly p g)).pgms[p].dly) (changed || targetClamped v o)
          (handOver p (s.updDly p g))) → good (exec i s) v o changed := by
    intro i f v o changed g run writes answers
    have written := handOver_updDly p s g
    rw [writes] at written
    unfold good
    extract_lets T D floor reply
    have flagged : ∀ b : Bool, b = decide (b = true) := fun b => by simp
    have shape : lengthFormed c.lcPgm { d with v := v, o := o } = { d with v := v, o := o, t := T, dReq := D, floor := floor } := rfl
    have replied : ∀ w : State, w.pgms[p].dly.figures = (lengthFormed c.lcPgm { d with v := v, o := o }).figures →
        okClamped (targetFlds w.pgms[p].dly) (changed || targetClamped v o) w = (reply, w) := by
      intro w same
      rw [shape] at same
      simp only [Delay.figures, Prod.mk.injEq] at same
      obtain ⟨-, -, ht, hd, hf, -, -⟩ := same
      unfold okClamped targetFlds
      rw [ht, hd, hf, targetClamped_iff, flagged changed, flagIf_clamped]
      rfl
    refine ⟨fun undefined => ?_, fun parked => ?_, fun running => ?_⟩
    · exact (run).trans (receive_er ready ht (answers.trans (if_pos undefined)))
    · have still : handOver p (s.updDly p g) = _ := written.trans (if_neg (by rw [show s.pgms[p].ctl.state = _ from parked]; decide))
      rw [if_neg (by rw [parked]; decide), still, replied _ (by simp only [getElem_set_pgm, if_true]; rfl)] at answers
      exact run.trans (receive_okFlags ready ht answers)
    · rw [show s.pgms[p].ctl.state = _ from running] at written
      rw [if_neg (by rw [running]; decide)] at answers
      rw [written] at answers
      have lines := retarget_line p { s with pgms := s.pgms.set p { s.pgms[p] with dly := lengthFormed c.lcPgm { d with v := v, o := o } } }
      have taken := retarget_retargeted p { s with pgms := s.pgms.set p { s.pgms[p] with dly := lengthFormed c.lcPgm { d with v := v, o := o } } }
      dsimp only at answers
      rw [if_pos rfl] at answers
      generalize retarget p _ = w at answers lines taken
      have figures := lines.figures p
      have own : ∀ q : ProgId, (s.pgms.set p { s.pgms[p] with dly := lengthFormed c.lcPgm { d with v := v, o := o } })[q] =
          if q = p then { s.pgms[p] with dly := lengthFormed c.lcPgm { d with v := v, o := o } } else s.pgms[q] :=
        fun q => getElem_set_pgm _ _ _ _
      simp only [own, if_true] at figures
      rw [replied w figures] at answers
      refine ⟨_, run.trans (receive_okFlags ready ht answers), ?_⟩
      simp only [Delay.figures, Prod.mk.injEq] at figures
      obtain ⟨hv, ho, ht, hd, hf, hm, -⟩ := figures
      have rest := lines.moves.rest
      refine ⟨hv, ho, ht, hd, hf, hm, ?_, fun q => ?_, ?_, ⟨w, rfl, taken⟩, ?_⟩
      · exact List.getLast?_concat
      · have ctl := lines.moves.ctl q
        have mtr := lines.moves.mtr q
        have cor := lines.moves.cor q
        simp only [own] at ctl mtr cor
        rw [State.sendReply_pgms]
        split at ctl
        next e => subst e; exact ⟨ctl, by simpa using mtr, by simpa using cor⟩
        next e => exact ⟨ctl, by simpa [e] using mtr, by simpa [e] using cor⟩
      · conv_lhs => rw [rest]
        rfl
      · have outcome := retargeted_outcome taken
        simp only [own, if_true] at outcome
        exact outcome
  refine ⟨fun read => ?_, fun read => ?_⟩
  · intro v
    refine formed _ (reqDlyVideo [t, y]) v d.o _ (fun d => { d with v := v }) rfl rfl ?_
    have clamped : (v : Int) = clampInt 0 Config.maxLine x :=
      Int.toNat_of_nonneg (Int.le_max_left _ _)
    rw [clamped]
    simp only [reqDlyVideo, read]
    exact withIndex_fin programme
  · intro o
    refine formed _ (reqDlyTrim [t, y]) d.v o _ (fun d => { d with o := o }) rfl rfl ?_
    simp only [reqDlyTrim, read]
    exact withIndex_fin programme

end Sys2Proof.Machine
end

section
/-! PROOFS, O16. Programmes that recompute the figures of their lanes (R46, R64, R68), and LANE SET. -/

namespace Sys2Proof.Machine

/-! ### The figures of a programme -/

/-- R46: the figures of a programme's lanes are those it holds already, or it has none. -/
def Pgm.keeps (g : Pgm) (lc : Nat) (pads : List Nat) : Prop :=
  g.ctl.state = .undefined ∨ (lc = g.ctl.lcPgm ∧ pads = g.ctl.pads)

/-- R46, R64: a programme's record with new figures of its lanes, and T and D_req formed for them. -/
def Pgm.latency (g : Pgm) (lc : Nat) (pads : List Nat) : Pgm :=
  { g with ctl := { g.ctl with lcPgm := lc, pads := pads }, dly := lengthFormed lc g.dly }

/-- R46: the recomputation of a programme, branch by branch. -/
theorem recompute_eq (p : ProgId) (s : State) :
    let lc := s.lcOf s.pgms[p].ctl.lanes
    let pads := s.padsOf s.pgms[p].ctl.lanes
    let w := { s with pgms := s.pgms.set p (s.pgms[p].latency lc pads) }
    (s.pgms[p].keeps lc pads → recompute p s = s) ∧
    (¬ s.pgms[p].keeps lc pads → s.pgms[p].ctl.state = .running → recompute p s = retarget p w) ∧
    (¬ s.pgms[p].keeps lc pads → s.pgms[p].ctl.state ≠ .running → recompute p s = w) := by
  intro lc pads w
  have written : formLength p (s.updCtl p fun c => { c with lcPgm := lc, pads := pads }) = w := by
    unfold formLength
    simp only [w, State.updDly, State.updCtl, State.updPgm, Fin.getElem_fin, Vector.getElem_set_self, Vector.set_set]
    rfl
  have state : (s.updCtl p fun c => { c with lcPgm := lc, pads := pads }).pgms[p].ctl.state = s.pgms[p].ctl.state := by
    rw [getElem_updCtl, if_pos rfl]
  refine ⟨fun kept => if_pos kept, fun moved running => ?_, fun moved still => ?_⟩ <;>
    refine (if_neg moved).trans ?_ <;> unfold handOver <;> rw [state]
  · rw [if_pos running, written]
  · rw [if_neg still, written]

/-- `t` is `s` but for the figures and the lines of programmes, pages and PAGES notices; of the programmes only those of `own`
move by more than a service of the arbiter. -/
structure LatencyMoves (own : ProgId → Prop) (s t : State) : Prop where
  rest : t = { s with pgms := t.pgms, owners := t.owners, link := t.link }
  pgm : ∀ q : ProgId, t.pgms[q] = { s.pgms[q] with ctl := t.pgms[q].ctl, dly := t.pgms[q].dly }
  ctl : ∀ q : ProgId, ¬ own q → t.pgms[q].ctl = s.pgms[q].ctl
  figures : ∀ q : ProgId, ¬ own q → t.pgms[q].dly.figures = s.pgms[q].dly.figures
  served : ∀ q : ProgId, ¬ own q → s.pgms[q].dly.ServedIn t.pgms[q].dly
  told : s.link.PagesSent t.link

namespace LatencyMoves

variable {own : ProgId → Prop} {s t u : State}

theorem of_line (h : LineMoves own s t) : LatencyMoves own s t where
  rest := h.moves.rest
  pgm q := by rw [h.moves.pgm q]
  ctl q _ := h.moves.ctl q
  figures q _ := h.figures q
  served := h.others
  told := h.told

theorem refl (s : State) : LatencyMoves own s s := of_line (.refl s)

theorem trans (h : LatencyMoves own s t) (k : LatencyMoves own t u) : LatencyMoves own s u where
  rest := by rw [k.rest, h.rest]
  pgm q := by rw [k.pgm q, h.pgm q]
  ctl q not := (k.ctl q not).trans (h.ctl q not)
  figures q not := (k.figures q not).trans (h.figures q not)
  served q not := by
    obtain ⟨h1, h2, h3⟩ := h.served q not
    obtain ⟨k1, k2, k3⟩ := k.served q not
    exact ⟨fun e => (k1 (by rw [h1 e, e])).trans (h1 e), k2.trans h2, k3.trans h3⟩
  told := h.told.trans k.told

theorem mono {more : ProgId → Prop} (h : LatencyMoves own s t) (le : ∀ q, own q → more q) : LatencyMoves more s t :=
  ⟨h.rest, h.pgm, fun q not => h.ctl q fun o => not (le q o), fun q not => h.figures q fun o => not (le q o),
    fun q not => h.served q fun o => not (le q o), h.told⟩

/-- A programme's own record with new figures. -/
theorem written (s : State) (p : ProgId) (lc : Nat) (pads : List Nat) :
    LatencyMoves (· = p) s { s with pgms := s.pgms.set p (s.pgms[p].latency lc pads) } := by
  have get : ∀ q : ProgId, (s.pgms.set p (s.pgms[p].latency lc pads))[q] =
      if q = p then s.pgms[p].latency lc pads else s.pgms[q] := fun q => getElem_set_pgm _ _ _ _
  refine ⟨rfl, fun q => ?_, fun q other => ?_, fun q other => ?_, fun q other => ?_, .refl _⟩ <;> dsimp only <;> rw [get]
  · split
    next e => subst e; rfl
    · rfl
  all_goals rw [if_neg other]
  exact ⟨fun _ => rfl, rfl, rfl⟩

theorem lcOf (h : LatencyMoves own s t) (ks : List LaneId) : t.lcOf ks = s.lcOf ks := by
  rw [h.rest]; rfl

theorem ports (h : LatencyMoves own s t) : t.ports = s.ports := by rw [h.rest]
theorem lanes (h : LatencyMoves own s t) : t.lanes = s.lanes := by rw [h.rest]

theorem padsOf (h : LatencyMoves own s t) (ks : List LaneId) : t.padsOf ks = s.padsOf ks := by
  rw [h.rest]; rfl

end LatencyMoves

theorem recompute_moves (p : ProgId) (s : State) : LatencyMoves (· = p) s (recompute p s) := by
  obtain ⟨kept, running, still⟩ := recompute_eq p s
  by_cases k : s.pgms[p].keeps (s.lcOf s.pgms[p].ctl.lanes) (s.padsOf s.pgms[p].ctl.lanes)
  · rw [kept k]; exact .refl s
  · have wrote := LatencyMoves.written s p (s.lcOf s.pgms[p].ctl.lanes) (s.padsOf s.pgms[p].ctl.lanes)
    by_cases r : s.pgms[p].ctl.state = .running
    · rw [running k r]; exact wrote.trans (.of_line (retarget_line p _))
    · rw [still k r]; exact wrote

/-- R46: what the recomputation makes of its own programme. -/
theorem recompute_own (p : ProgId) (s : State) :
    let g := s.pgms[p]
    let lc := s.lcOf g.ctl.lanes
    let pads := s.padsOf g.ctl.lanes
    let h := (recompute p s).pgms[p]
    (g.keeps lc pads → h = g) ∧
    (¬ g.keeps lc pads → h.ctl = { g.ctl with lcPgm := lc, pads := pads } ∧ h.dly.figures = (lengthFormed lc g.dly).figures ∧
      (g.ctl.state ≠ .running → h.dly = lengthFormed lc g.dly)) := by
  intro g lc pads h
  obtain ⟨kept, running, still⟩ := recompute_eq p s
  refine ⟨fun k => by simp only [h]; rw [kept k], fun k => ?_⟩
  have own : ({ s with pgms := s.pgms.set p (g.latency lc pads) } : State).pgms[p] = g.latency lc pads := by
    simp only [getElem_set_pgm, if_true]
  by_cases r : g.ctl.state = .running
  · have line := retarget_line p { s with pgms := s.pgms.set p (g.latency lc pads) }
    have ctl := line.moves.ctl p
    have figures := line.figures p
    rw [own] at ctl figures
    simp only [h]
    rw [running k r]
    exact ⟨ctl, figures, fun no => absurd r no⟩
  · simp only [h]
    rw [still k r]
    rw [own]
    exact ⟨rfl, rfl, fun _ => rfl⟩

/-! ### All programmes, in order of number (R46) -/

/-- The state once the programmes before number `n` have recomputed their figures. -/
def State.recomputedTo (s : State) (n : Nat) : State := (allProgs.take n).foldl (fun s p => recompute p s) s

theorem recomputeAll_eq (s : State) : recomputeAll s = s.recomputedTo 8 := rfl

theorem recomputedTo_succ (s : State) (q : ProgId) : s.recomputedTo (q.val + 1) = recompute q (s.recomputedTo q.val) := by
  have next : allProgs.take (q.val + 1) = allProgs.take q.val ++ [q] := by revert q; decide
  unfold State.recomputedTo
  rw [next, List.foldl_append]
  rfl

theorem foldl_recompute_moves (ps : List ProgId) (s : State) :
    LatencyMoves (· ∈ ps) s (ps.foldl (fun s p => recompute p s) s) := by
  induction ps generalizing s with
  | nil => exact .refl s
  | cons p ps ih =>
    exact ((recompute_moves p s).mono fun q e => by subst e; exact List.mem_cons_self).trans
      ((ih _).mono fun q => List.mem_cons_of_mem p)

theorem recomputedTo_before (s : State) (q : ProgId) : LatencyMoves (· ≠ q) s (s.recomputedTo q.val) :=
  (foldl_recompute_moves _ s).mono fun x inside e => by
    subst e
    revert inside
    revert x
    decide

theorem recomputedTo_behind (s : State) (q : ProgId) : LatencyMoves (· ≠ q) (s.recomputedTo (q.val + 1)) (recomputeAll s) := by
  have split : recomputeAll s = (allProgs.drop (q.val + 1)).foldl (fun s p => recompute p s) (s.recomputedTo (q.val + 1)) := by
    unfold State.recomputedTo
    rw [← List.foldl_append, List.take_append_drop]
    rfl
  rw [split]
  refine (foldl_recompute_moves _ _).mono fun x inside e => ?_
  subst e
  clear split
  revert inside
  revert x
  decide

theorem recomputeAll_moves (s : State) : LatencyMoves (fun _ => True) s (recomputeAll s) :=
  (foldl_recompute_moves _ s).mono fun _ _ => trivial

/-- R46: each step of the recomputation takes the figures of the lanes as they stand. -/
theorem recomputedTo_taken (s : State) (q : ProgId) :
    latencyTaken (s.recomputedTo q.val) (s.recomputedTo (q.val + 1)) q (s.lcOf s.pgms[q].ctl.lanes)
      (s.padsOf s.pgms[q].ctl.lanes) := by
  have before := recomputedTo_before s q
  have taken := recompute_taken q (s.recomputedTo q.val)
  rwa [before.lcOf, before.padsOf, before.ctl q (fun h => h rfl), ← recomputedTo_succ] at taken

/-- R46, R64: what the recomputation of all programmes makes of one. -/
theorem recomputeAll_pgm (s : State) (q : ProgId) :
    let g := s.pgms[q]
    let lc := s.lcOf g.ctl.lanes
    let pads := s.padsOf g.ctl.lanes
    let h := (recomputeAll s).pgms[q]
    (g.keeps lc pads → h.ctl = g.ctl ∧ (g.dly.short = false → h.dly = g.dly)) ∧
    (¬ g.keeps lc pads → h.ctl = { g.ctl with lcPgm := lc, pads := pads } ∧ h.dly.figures = (lengthFormed lc g.dly).figures ∧
      (g.ctl.state ≠ .running → g.dly.short = false → h.dly = lengthFormed lc g.dly)) := by
  intro g lc pads h
  have not : ¬ q ≠ q := fun h => h rfl
  have before := recomputedTo_before s q
  have behind := recomputedTo_behind s q
  have ctl := before.ctl q not
  have own := recompute_own q (s.recomputedTo q.val)
  rw [← recomputedTo_succ] at own
  unfold Pgm.keeps at own
  simp only [before.lcOf, before.padsOf, ctl] at own
  obtain ⟨kept, moved⟩ := own
  refine ⟨fun k => ?_, fun k => ?_⟩
  · have same := kept k
    refine ⟨by simp only [h]; rw [behind.ctl q not, same, ctl], fun met => ?_⟩
    have unserved := (before.served q not).unserved met
    simp only [h]
    rw [(behind.served q not).unserved (by rw [same, unserved]; exact met), same, unserved]
  · obtain ⟨ctl2, figures, dly⟩ := moved k
    refine ⟨by simp only [h]; rw [behind.ctl q not, ctl2], ?_, fun still met => ?_⟩
    · simp only [h]
      rw [behind.figures q not, figures]
      have same := before.figures q not
      simp only [Delay.figures, Prod.mk.injEq] at same
      obtain ⟨hv, ho, -, -, -, hm, hp⟩ := same
      unfold Delay.figures lengthFormed
      rw [hv, ho]
      simp only [hm, hp]
      rfl
    · have unserved := (before.served q not).unserved met
      have formed := dly still
      rw [unserved] at formed
      simp only [h]
      rw [(behind.served q not).unserved (by rw [formed]; exact met), formed]

/-- R46, R64: the record of a programme that takes the figures of its lanes, where they move. -/
def State.latencyOf (s : State) (g : Pgm) : Pgm :=
  if g.ctl.state = .undefined ∨ (s.lcOf g.ctl.lanes = g.ctl.lcPgm ∧ s.padsOf g.ctl.lanes = g.ctl.pads) then g
  else g.latency (s.lcOf g.ctl.lanes) (s.padsOf g.ctl.lanes)

theorem State.latencyOf_keeps {s : State} {g : Pgm} (h : g.keeps (s.lcOf g.ctl.lanes) (s.padsOf g.ctl.lanes)) :
    s.latencyOf g = g := if_pos h

theorem State.latencyOf_moved {s : State} {g : Pgm} (h : ¬ g.keeps (s.lcOf g.ctl.lanes) (s.padsOf g.ctl.lanes)) :
    s.latencyOf g = g.latency (s.lcOf g.ctl.lanes) (s.padsOf g.ctl.lanes) := if_neg h

/-- `t` is `s` but for the records of programmes, of which none that is RUNNING has figures to take. -/
def RunnersKeep (s t : State) : Prop :=
  t = { s with pgms := t.pgms } ∧ ∀ q : ProgId, t.pgms[q].ctl.state = .running →
    t.pgms[q].keeps (s.lcOf t.pgms[q].ctl.lanes) (s.padsOf t.pgms[q].ctl.lanes)

/-- R46: the recomputation of a programme, where no RUNNING one has figures to take. -/
theorem RunnersKeep.recompute {s t : State} (h : RunnersKeep s t) (p : ProgId) :
    Machine.recompute p t = { t with pgms := t.pgms.set p (s.latencyOf t.pgms[p]) } := by
  obtain ⟨rest, keep⟩ := h
  have lc : ∀ ks, t.lcOf ks = s.lcOf ks := fun ks => by rw [rest]; rfl
  have pads : ∀ ks, t.padsOf ks = s.padsOf ks := fun ks => by rw [rest]; rfl
  obtain ⟨kept, -, still⟩ := recompute_eq p t
  rw [lc, pads] at kept still
  by_cases k : t.pgms[p].keeps (s.lcOf t.pgms[p].ctl.lanes) (s.padsOf t.pgms[p].ctl.lanes)
  · rw [kept k, State.latencyOf_keeps k, show t.pgms.set p t.pgms[p] = t.pgms from Vector.set_getElem_self _]
  · rw [still k fun running => k (keep p running)]
    rw [State.latencyOf_moved k]

theorem RunnersKeep.step {s t : State} (h : RunnersKeep s t) (p : ProgId) : RunnersKeep s (Machine.recompute p t) := by
  have step := h.recompute p
  obtain ⟨rest, keep⟩ := h
  refine ⟨?_, fun q running => ?_⟩
  · rw [step]
    conv_lhs => rw [rest]
  · rw [step] at running ⊢
    simp only [getElem_set_pgm] at running ⊢
    split at running
    next e =>
      subst e
      rw [if_pos rfl]
      by_cases k : t.pgms[q].keeps (s.lcOf t.pgms[q].ctl.lanes) (s.padsOf t.pgms[q].ctl.lanes)
      · rw [State.latencyOf_keeps k]; exact k
      · rw [State.latencyOf_moved k] at running
        exact absurd (keep q running) k
    next e => rw [if_neg e]; exact keep q running

/-- R46: where no RUNNING programme's figures move, nothing but records moves. -/
theorem recomputeAll_still (s : State)
    (still : ∀ q : ProgId, s.pgms[q].ctl.state = .running →
      s.pgms[q].keeps (s.lcOf s.pgms[q].ctl.lanes) (s.padsOf s.pgms[q].ctl.lanes)) :
    recomputeAll s = { s with pgms := (recomputeAll s).pgms } ∧
    ∀ q : ProgId, (recomputeAll s).pgms[q] = s.latencyOf s.pgms[q] := by
  have start : RunnersKeep s s := ⟨rfl, still⟩
  refine ⟨?_, fun q => ?_⟩
  · have fold : ∀ (ps : List ProgId) (t : State), RunnersKeep s t → RunnersKeep s (ps.foldl (fun s p => recompute p s) t) := by
      intro ps
      induction ps with
      | nil => exact fun _ h => h
      | cons p ps ih => exact fun t h => ih _ (h.step p)
    exact (fold allProgs s start).1
  · refine foldl_allProgs (RunnersKeep s) (fun s p => recompute p s) (fun _ g => s.latencyOf g)
      (fun t p h => ?_) (fun t p q h other => ?_) (fun t p h => h.step p) s start q
    · rw [h.recompute p]
      simp only [getElem_set_pgm, if_true]
    · rw [h.recompute p]
      simp only [getElem_set_pgm, Ne.symm other, if_false]

/-! ### LANE SET (R32) -/

/-- R31, R34, R36: lane `k` re-evaluated against the port its current source names. -/
def State.reevaluated (s : State) (l : Lane) : Lane :=
  { l with
    valid := s.sourceGood l, lc := s.lcFor l
    fade := if s.sourceGood l then (if l.valid then l.fade else .fadingIn) else .silent
    fadePos := if s.sourceGood l && l.valid then l.fadePos else 0
    readPos := match l.source with
      | some x => if s.sourceGood l then (s.ports[x.port].frameNo : Rat) - 32 else l.readPos
      | none => l.readPos }

theorem reevaluate_eq (k : LaneId) (s : State) :
    reevaluate k s = recomputeAll (s.updLane k fun l => s.reevaluated l) := by
  unfold reevaluate
  dsimp only
  congr 1
  have same : ∀ l : Lane, ({ ((match s.portOf l with
      | some p => if s.sourceGood l then l.centred p else l
      | none => l).settle (s.sourceGood l) none) with lc := s.lcFor l } : Lane) = s.reevaluated l := by
    intro l
    unfold State.reevaluated State.portOf
    cases source : l.source with
    | none =>
      have bad : s.sourceGood l = false := by unfold State.sourceGood; rw [source]
      simp [bad, Lane.settle]
    | some x =>
      cases good : s.sourceGood l with
      | false => simp [Lane.settle]
      | true => cases valid : l.valid <;> simp [Lane.settle, Lane.centred, valid, Config.centreDepth]
  exact congrArg (fun f => s.updLane k f) (funext same)

/-- R32: lane `k` with new sources, its word of the house sample in progress fixed, and then re-evaluated. -/
def State.laneRenamed (s : State) (k : LaneId) (main backup : Option Source) : Lane :=
  s.reevaluated { laneFormed s k with main := main, backup := backup }

/-- R32: the lanes as a LANE SET leaves them, before the programmes take their figures. -/
def State.laneWritten (s : State) (k : LaneId) (main backup : Option Source) : State :=
  { s with lanes := s.lanes.set k (s.laneRenamed k main backup) }

theorem laneSet_eq (s : State) (k : LaneId) (main backup : Option Source) :
    reevaluate k ((formLane s k).updLane k fun l => { l with main := main, backup := backup }) =
      recomputeAll (s.laneWritten k main backup) := by
  rw [reevaluate_eq]
  congr 1
  unfold State.laneWritten State.laneRenamed
  rw [laneFormed_eq]
  simp only [State.updLane, formLane, Fin.getElem_fin, Vector.getElem_set_self, Vector.set_set]
  rfl

theorem laneWritten_lane (s : State) (k : LaneId) (main backup : Option Source) (j : LaneId) :
    (s.laneWritten k main backup).lanes[j] = if j = k then s.laneRenamed k main backup else s.lanes[j] := by
  unfold State.laneWritten
  simp only [Fin.getElem_fin, Vector.getElem_set]
  by_cases e : j = k
  · subst e; simp
  · rw [if_neg e, if_neg fun h => e (Fin.ext h.symm)]

/-- R45: the figures of lanes of which none is written. -/
theorem laneWritten_figures (s : State) (k : LaneId) (main backup : Option Source) (ks : List LaneId) (apart : k ∉ ks) :
    (s.laneWritten k main backup).lcOf ks = s.lcOf ks ∧ (s.laneWritten k main backup).padsOf ks = s.padsOf ks := by
  have lc : ∀ j ∈ ks, (s.laneWritten k main backup).lanes[j].lc = s.lanes[j].lc := by
    intro j inside
    rw [laneWritten_lane, if_neg]
    rintro rfl
    exact apart inside
  have whole : (s.laneWritten k main backup).lcOf ks = s.lcOf ks := by
    unfold State.lcOf
    rw [List.map_congr_left lc]
  refine ⟨whole, ?_⟩
  unfold State.padsOf
  rw [whole]
  exact List.map_congr_left fun j inside => by rw [lc j inside]

theorem laneFormed_current (s : State) (k : LaneId) : (laneFormed s k).current = s.lanes[k].current := by
  obtain ⟨r, n, f, w, formed⟩ := laneFormed_frame s k
  rw [formed]

theorem laneRenamed_eq (s : State) (k : LaneId) (main backup : Option Source) :
    let l := { s.lanes[k] with main := main, backup := backup }
    let w := laneFormed s k
    let good := s.sourceGood l
    s.laneRenamed k main backup = { w with
      main := main, backup := backup, valid := good, lc := s.lcFor l
      fade := if good then (if w.valid then w.fade else .fadingIn) else .silent
      fadePos := if good && w.valid then w.fadePos else 0
      readPos := match l.source with
        | some x => if good then (s.ports[x.port].frameNo : Rat) - 32 else w.readPos
        | none => w.readPos } := by
  intro l w good
  have source : ({ w with main := main, backup := backup } : Lane).source = l.source := by
    unfold Lane.source
    simp only [l, w]
    rw [laneFormed_current]
  have hgood : s.sourceGood { w with main := main, backup := backup } = good := by
    rw [State.sourceGood_eq, source, ← State.sourceGood_eq]
  have hlc : s.lcFor { w with main := main, backup := backup } = s.lcFor l := by
    unfold State.lcFor
    rw [source]
  unfold State.laneRenamed State.reevaluated
  rw [show laneFormed s k = w from rfl, hgood, hlc, source]

/-- R32: the words of a LANE SET, read. -/
theorem reqLaneSet_three (t m b : Tok) (s : State) :
    reqLaneSet [t, m, b] s = match readSource m, readSource b with
      | some m, some b => withIndex .L 24 t s fun k =>
          match m, b with
          | some m, some b => setLane k m b s
          | _, _ => refuse .range s
      | _, _ => refuse .synErr s := rfl

/-- Settles O16. -/
theorem laneSetWritesSources : Obligations.LaneSetWritesSources := by
  intro s tag ready ht
  have run : ∀ args, exec (.laneSet tag args) s = receive (.laneSet tag args) (fun s => s.answer tag (reqLaneSet args)) s :=
    fun _ => rfl
  have unread : ∀ t m b, Tok.index? .L t = none ∨ readSource m = none ∨ readSource b = none →
      reqLaneSet [t, m, b] s = refuse .synErr s := by
    intro t m b bad
    rw [reqLaneSet_three]
    cases hm : readSource m with
    | none => rfl
    | some M =>
      cases hb : readSource b with
      | none => rfl
      | some B => exact withIndex_none (by simpa [hm, hb] using bad)
  refine ⟨fun args bad => ?_, fun t m b lane main backup out => ?_, fun t m => ?_, fun t m b k M B lane main backup => ?_⟩
  · refine (run args).trans (receive_er ready ht ?_)
    unfold reqLaneSet
    split
    next t m =>
      refine unread t m (.kw .NONE) ?_
      obtain h | h | h := bad t m .other (.inl rfl)
      · exact .inl h
      · exact .inr (.inl h)
      · exact absurd h.1 (by simp)
    next t m b =>
      refine unread t m b ?_
      obtain h | h | h := bad t m b (.inr rfl)
      · exact .inl h
      · exact .inr (.inl h)
      · exact .inr (.inr h.2)
    · rfl
  · refine (run _).trans (receive_er ready ht ?_)
    obtain ⟨x, number⟩ := Option.isSome_iff_exists.mp lane
    obtain ⟨M, hm⟩ := Option.isSome_iff_exists.mp main
    obtain ⟨B, hb⟩ := Option.isSome_iff_exists.mp backup
    rw [reqLaneSet_three, hm, hb]
    dsimp only
    by_cases wide : x < 0 ∨ (24 : Int) ≤ x
    · exact withIndex_range number wide
    · have absent : M = none ∨ B = none := by
        rcases out with ⟨y, h, far⟩ | h | h
        · rw [number, Option.some.injEq] at h
          subst h
          exact absurd far wide
        · rw [hm, Option.some.injEq] at h
          exact .inl h
        · rw [hb, Option.some.injEq] at h
          exact .inr h
      obtain ⟨k, hk⟩ : ∃ k : Fin 24, asFin 24 x = some k := by
        cases h : asFin 24 x with
        | none => exact absurd (asFin_eq_none.mp h) wide
        | some k => exact ⟨k, rfl⟩
      unfold withIndex
      simp only [number, hk]
      rcases absent with rfl | rfl
      · rfl
      · cases M <;> rfl
  · rw [run, run, receive_answer _ tag _ s ready ht, receive_answer _ tag _ s ready ht]
    rfl
  · intro l running stranded
    have answer : reqLaneSet [t, m, b] s = setLane k M B s := by
      rw [reqLaneSet_three, main, backup]
      exact withIndex_fin lane
    have refusal : ((match s.ownerOf k with
        | some p => decide (s.pgms[p].ctl.state = .running)
        | none => false) = true ∨ (s.lanes[k].current = .backup ∧ B = none)) ↔ running ∨ stranded := by
      refine or_congr_left ?_
      cases h : s.ownerOf k with
      | none => simp [running, h]
      | some p => simp [running, h]
    refine ⟨fun refused => ?_, fun held lost => ?_⟩
    · exact (run _).trans (receive_er ready ht (answer.trans (if_pos (refusal.mpr refused))))
    · have taken : reqLaneSet [t, m, b] s = okReply [] (recomputeAll (s.laneWritten k M B)) := by
        rw [answer, ← laneSet_eq]
        exact if_neg fun h => (refusal.mp h).elim held lost
      refine ⟨_, (run _).trans (receive_ok ready ht taken), ?_⟩
      have moves := recomputeAll_moves (s.laneWritten k M B)
      have lanes : (recomputeAll (s.laneWritten k M B)).lanes = (s.laneWritten k M B).lanes := by
        rw [moves.rest]
      have lane_ : ∀ j : LaneId, (recomputeAll (s.laneWritten k M B)).lanes[j] =
          if j = k then s.laneRenamed k M B else s.lanes[j] := fun j => by rw [lanes, laneWritten_lane]
      have own := (lane_ k).trans (if_pos rfl)
      have still := recomputeAll_still (s.laneWritten k M B)
      have lcOf := moves.lcOf
      have padsOf := moves.padsOf
      have rest := moves.rest
      generalize recomputeAll (s.laneWritten k M B) = u at *
      simp only [State.sendReply_lanes, State.sendReply_pgms, State.sendReply_owners]
      refine ⟨own.trans (laneRenamed_eq s k M B), ?_, fun invalid valid => ?_, fun j other => (lane_ j).trans (if_neg other),
        List.getLast?_concat, ?_, fun quiet => ?_⟩
      · rw [own, laneRenamed_eq]
        exact laneFormed_current s k
      · rw [own, laneRenamed_eq] at valid ⊢
        dsimp only at valid ⊢
        generalize s.sourceGood _ = good at valid ⊢
        rw [laneFormed_valid_eq, invalid, valid]
        exact ⟨rfl, rfl⟩
      · rw [lanes]
        conv_lhs => rw [rest]
        rfl
      · obtain ⟨quietly, records⟩ := still fun q running => by
          obtain ⟨apart, lc, pads⟩ := quiet q running
          obtain ⟨lc', pads'⟩ := laneWritten_figures s k M B s.pgms[q].ctl.lanes apart
          exact .inr ⟨lc'.trans lc, pads'.trans pads⟩
        refine ⟨by rw [quietly]; rfl, ?_, fun q => ⟨fun apart => ?_, (records q).trans ?_⟩⟩
        · rw [quietly]; rfl
        · obtain ⟨lc', pads'⟩ := laneWritten_figures s k M B s.pgms[q].ctl.lanes apart
          exact ⟨(lcOf _).trans lc', (padsOf _).trans pads'⟩
        · unfold State.latencyOf
          rw [← lcOf, ← padsOf]
          rfl

end Sys2Proof.Machine
end

section
/-! PROOFS, O15. The close of a window: how it judges the port, and what its lanes and programmes take from it. -/

namespace Sys2Proof.Machine

/-! ### The judgement of a port (R21 to R26) -/

theorem windowsAgree_iff (m n : Nat) : windowsAgree m n = true ↔ ((m : Int) - n).natAbs * 50000 ≤ n := by
  unfold windowsAgree
  rw [decide_eq_true_iff, absDiff_eq_natAbs]

theorem departs_iff (m n : Nat) : departs m n = true ↔ n < ((m : Int) - n).natAbs * 5000 := by
  unfold departs
  rw [decide_eq_true_iff, absDiff_eq_natAbs]

theorem Port.lose_good (p : Port) (good : p.state = .locked ∨ p.state = .relocking) :
    p.lose = { p with lockLoss := min 65535 (p.lockLoss + 1) } := by
  rw [Port.lose_count, if_pos good]

theorem Port.lose_bad (p : Port) (bad : ¬ (p.state = .locked ∨ p.state = .relocking)) : p.lose = p := by
  rw [Port.lose_count, if_neg bad]

section judged
variable (old p : Port) (rm : Nat)

theorem Port.close_locked_out (same : p.state = old.state) (h : old.state = .locked) (out : inRange rm = false) :
    old.closeWindow p rm =
      { p with state := .outOfRange, agree := 0, relock := 0, lockLoss := min 65535 (p.lockLoss + 1) } := by
  simp only [Port.closeWindow, h, out, Bool.not_false, if_true, Port.leaveRange]
  rw [Port.lose_good p (.inl (same.trans h))]

theorem Port.close_locked_departs (h : old.state = .locked) (within : inRange rm = true) (rt : Nat) (ratio : old.ratio = some rt)
    (far : rt < ((rm : Int) - rt).natAbs * 5000) : old.closeWindow p rm = { p with state := .relocking, relock := 0 } := by
  simp only [Port.closeWindow, h, within, ratio, Option.getD_some, (departs_iff rm rt).mpr far, Bool.not_true, Bool.false_eq_true,
    if_false, if_true]

theorem Port.close_locked_tracks (h : old.state = .locked) (within : inRange rm = true) (rt : Nat) (ratio : old.ratio = some rt)
    (near : ((rm : Int) - rt).natAbs * 5000 ≤ rt) :
    old.closeWindow p rm = { p with ratio := some ((rt : Int) + Int.tdiv ((rm : Int) - rt) 8).toNat } := by
  have stays : ¬ departs rm rt = true := fun d => absurd ((departs_iff rm rt).mp d) (Nat.not_lt.mpr near)
  simp only [Port.closeWindow, h, within, ratio, Option.getD_some, stays, Bool.not_true, Bool.false_eq_true, if_false, eighthStep]

theorem Port.close_measuring_out (same : p.state = old.state) (h : old.state = .measuring) (out : inRange rm = false) :
    old.closeWindow p rm = { p with state := .outOfRange, agree := 0, relock := 0 } := by
  simp only [Port.closeWindow, h, out, Bool.not_false, if_true, Port.leaveRange]
  rw [Port.lose_bad p (by rw [same, h]; decide)]

theorem Port.close_measuring_first (h : old.state = .measuring) (within : inRange rm = true) (first : old.hasPred = false) :
    old.closeWindow p rm = p := by
  simp only [Port.closeWindow, h, within, first, Bool.not_true, Bool.false_eq_true, if_false]

theorem Port.close_measuring (h : old.state = .measuring) (within : inRange rm = true) (pred : old.hasPred = true) (prev : Nat)
    (last : old.lastMeas = some prev) :
    old.closeWindow p rm = if ((rm : Int) - prev).natAbs * 50000 ≤ prev then
        if old.agree + 1 < 3 then { p with agree := old.agree + 1 } else p.lock ((rm + p.history.foldl (· + ·) 0) / 3)
      else { p with agree := 0 } := by
  simp only [Port.closeWindow, h, within, pred, last, Bool.not_true, Bool.false_eq_true, if_false, if_true, windowsAgree_iff]

theorem Port.close_relocking_out (same : p.state = old.state) (h : old.state = .relocking) (out : inRange rm = false) :
    old.closeWindow p rm =
      { p with state := .outOfRange, agree := 0, relock := 0, lockLoss := min 65535 (p.lockLoss + 1) } := by
  simp only [Port.closeWindow, h, out, Bool.not_false, if_true, Port.leaveRange]
  rw [Port.lose_good { p with relock := old.relock + 1 } (.inr (same.trans h))]

theorem Port.close_relocking (same : p.state = old.state) (h : old.state = .relocking) (within : inRange rm = true) (prev : Nat)
    (last : old.lastMeas = some prev) :
    old.closeWindow p rm = if ((rm : Int) - prev).natAbs * 50000 ≤ prev then
        { p with relock := old.relock + 1 }.lock ((rm + prev) / 2)
      else if 4 ≤ old.relock + 1 then
        { p with state := .measuring, agree := 0, relock := old.relock + 1, lockLoss := min 65535 (p.lockLoss + 1) }
      else { p with relock := old.relock + 1 } := by
  simp only [Port.closeWindow, h, within, last, Option.getD_some, Bool.not_true, Bool.false_eq_true, if_false, windowsAgree_iff]
  rw [Port.lose_good { p with relock := old.relock + 1 } (.inr (same.trans h))]

theorem Port.close_outOfRange (h : old.state = .outOfRange) :
    old.closeWindow p rm = if inRange rm then { p with state := .measuring, agree := 0 } else p := by
  simp only [Port.closeWindow, h]

end judged

theorem laneFormed_lc (s : State) (k : LaneId) : (laneFormed s k).lc = s.lanes[k].lc := by
  obtain ⟨r, n, f, w, formed⟩ := laneFormed_frame s k
  rw [formed]

/-- R22: a close moves the class of a port at its entry to LOCKED alone, and no close moves the count of its frames. -/
theorem Port.closeWindow_class (old p : Port) (rm : Nat) :
    (old.closeWindow p rm).frameNo = p.frameNo ∧ ((old.closeWindow p rm).cls = p.cls ∨
      ((old.closeWindow p rm).state = .locked ∧ old.state ≠ .locked ∧ ∃ c, (old.closeWindow p rm).cls = some c)) := by
  have leaves : ∀ q : Port, q.leaveRange.frameNo = q.frameNo ∧ q.leaveRange.cls = q.cls := by
    intro q
    unfold Port.leaveRange
    rw [q.lose_count]
    exact ⟨rfl, rfl⟩
  unfold Port.closeWindow
  cases state : old.state with
  | noSignal => exact ⟨rfl, .inl rfl⟩
  | locked =>
    dsimp only
    split_ifs
    · exact ⟨(leaves p).1, .inl (leaves p).2⟩
    · exact ⟨rfl, .inl rfl⟩
    · exact ⟨rfl, .inl rfl⟩
  | outOfRange =>
    dsimp only
    split_ifs <;> exact ⟨rfl, .inl rfl⟩
  | measuring =>
    dsimp only
    split
    · exact ⟨(leaves p).1, .inl (leaves p).2⟩
    · split
      · exact ⟨rfl, .inl rfl⟩
      · split_ifs
        · exact ⟨rfl, .inl rfl⟩
        · exact ⟨rfl, .inr ⟨rfl, by decide, _, rfl⟩⟩
        · exact ⟨rfl, .inl rfl⟩
  | relocking =>
    dsimp only
    split_ifs
    · exact ⟨(leaves _).1, .inl (leaves _).2⟩
    · exact ⟨rfl, .inr ⟨rfl, by decide, _, rfl⟩⟩
    · rw [Port.lose_count]; exact ⟨rfl, .inl rfl⟩
    · exact ⟨rfl, .inl rfl⟩

/-! ### The lanes of a port at a close (R34, R36) -/

/-- R31, R34, R35: a lane settled by its port, field by field. -/
theorem Lane.settle_port (l : Lane) (good : Bool) (q : Port) :
    l.settle good (some q) = { l with
      valid := good
      fade := if good then (if l.valid then l.fade else .fadingIn) else .silent
      fadePos := if good && l.valid then l.fadePos else 0
      readPos := if good && !l.valid then (q.frameNo : Rat) - 32 else l.readPos } := by
  obtain ⟨main, backup, current, valid, fade, fadePos, readPos, slips, lc, latch, outLatch⟩ := l
  cases good <;> cases valid <;> simp [Lane.settle, Lane.centred, Config.centreDepth]

/-- R36: every lane on a port takes the Lc of its class. -/
theorem relatencyLanes_eq (i : PortId) (s : State) :
    let t := allLanes.foldl
      (fun s k => if s.lanes[k].onPort i then s.updLane k fun l => { l with lc := s.lcFor l } else s) s
    t = { s with lanes := t.lanes } ∧
      ∀ k : LaneId, t.lanes[k] = if s.lanes[k].onPort i then { s.lanes[k] with lc := s.lcFor s.lanes[k] } else s.lanes[k] :=
  foldl_lanesOn i (fun ports l => { l with lc := ({ s with ports := ports } : State).lcFor l })
    (fun s k => s.updLane k fun l => { l with lc := s.lcFor l }) (fun _ _ => rfl) s

/-- The port's record is written, once the words of its lanes are fixed. -/
def State.portClosed (s : State) (i : PortId) (new : Port) : State := (formLanesOn i s).updPort i fun _ => new

theorem portClosed_frame (s : State) (i : PortId) (new : Port) :
    s.portClosed i new = { s with ports := s.ports.set i new, lanes := (s.portClosed i new).lanes } := by
  have frame := (formLanesOn_eq i s).1
  have ports := formLanesOn_ports i s
  unfold State.portClosed State.updPort
  dsimp only
  rw [ports]
  generalize formLanesOn i s = u at *
  conv_lhs => rw [frame]

theorem portClosed_lane (s : State) (i : PortId) (new : Port) (k : LaneId) :
    (s.portClosed i new).lanes[k] = if s.lanes[k].onPort i then laneFormed s k else s.lanes[k] := by
  unfold State.portClosed
  rw [State.updPort_lanes]
  exact (formLanesOn_eq i s).2 k

/-- R36: the lanes on the port hold the Lc of its new class; the programmes have not taken it yet. -/
def State.portRelatent (s : State) (i : PortId) (new : Port) : State :=
  allLanes.foldl (fun s k => if s.lanes[k].onPort i then s.updLane k fun l => { l with lc := s.lcFor l } else s)
    (s.portClosed i new)

theorem relatencyOn_closed (s : State) (i : PortId) (new : Port) :
    relatencyOn i (s.portClosed i new) = recomputeAll (s.portRelatent i new) := rfl

theorem portRelatent_frame (s : State) (i : PortId) (new : Port) :
    s.portRelatent i new = { s with ports := s.ports.set i new, lanes := (s.portRelatent i new).lanes } := by
  have frame := (relatencyLanes_eq i (s.portClosed i new)).1
  unfold State.portRelatent
  generalize allLanes.foldl _ (s.portClosed i new) = t at frame ⊢
  rw [frame]
  dsimp only
  rw [portClosed_frame]

theorem portRelatent_lane (s : State) (i : PortId) (new : Port) (c : RateClass) (cls : new.cls = some c) (k : LaneId) :
    (s.portRelatent i new).lanes[k] =
      if s.lanes[k].onPort i then { laneFormed s k with lc := c.latency } else s.lanes[k] := by
  refine ((relatencyLanes_eq i (s.portClosed i new)).2 k).trans ?_
  rw [portClosed_lane]
  by_cases on : s.lanes[k].onPort i = true
  · have on' : (laneFormed s k).onPort i = true := by rw [laneFormed_onPort]; exact on
    obtain ⟨x, source, port⟩ := (Lane.onPort_iff _ _).mp on'
    have lc : (s.portClosed i new).lcFor (laneFormed s k) = c.latency := by
      unfold State.lcFor
      rw [source]
      dsimp only
      rw [portClosed_frame]
      dsimp only
      subst port
      rw [Fin.getElem_fin, Vector.getElem_set_self, cls]
    rw [if_pos on, if_pos on', if_pos on, lc]
  · rw [if_neg on, if_neg on, if_neg on]

/-- R34: what the settling of a port's lanes makes of a lane, once the port holds its new record. -/
theorem settle_after (t : State) (i : PortId) (new : Port) (port : t.ports[i] = new) (k : LaneId) :
    (settleLanesOn i t).lanes[k] =
      if t.lanes[k].onPort i then t.lanes[k].settle new.state.good (some new) else t.lanes[k] := by
  rw [(settleLanesOn_eq i t).2 k]
  by_cases on : t.lanes[k].onPort i = true
  · obtain ⟨x, source, rfl⟩ := (Lane.onPort_iff _ _).mp on
    rw [if_pos on, if_pos on]
    unfold State.sourceGood State.portOf
    rw [source]
    dsimp only [Option.map_some]
    rw [port]
  · rw [if_neg on, if_neg on]

/-- R27: a PORT notice, as the statements give it. -/
theorem portNotice_eq (i : PortId) (changed : Bool) (t : State) (new : Port) (port : t.ports[i] = new) :
    portNotice i changed t = { t with link := t.link.notice (.notice .port
      ([.num i.val, .kw new.state.kw, optFld (fun c => .kw (RateClass.kw c)) new.cls, optFld (fun n => .num n) new.ratio,
        .num new.lockLoss] ++ if changed then [.kw .CLASS] else [])) } := by
  unfold portNotice
  rw [port]
  dsimp only
  rw [optNat_eq]
  rfl

/-! ### The whole close -/

/-- R17, R21 to R27: what a close makes of the state, where its port's record becomes `new`. -/
def State.afterClose (s : State) (i : PortId) (new : Port) : State :=
  let s1 := s.portClosed i new
  let s2 := if new.cls = s.ports[i].cls then s1 else relatencyOn i s1
  let s3 := settleLanesOn i s2
  if new.state = s.ports[i].state then s3 else portNotice i (decide (new.cls ≠ s.ports[i].cls)) s3

/-- R34: the lane `k` behind a close, where the lanes of port `i` held the Lc `lc` when they were settled. -/
def State.laneClosed (s : State) (i : PortId) (new : Port) (lc : LaneId → Nat) (k : LaneId) : Lane :=
  if s.lanes[k].onPort i then { laneFormed s k with lc := lc k }.settle new.state.good (some new) else s.lanes[k]

/-- R27, R34: the lanes of a port are settled, and the port reports its new class. -/
theorem settle_reported (r : State) (i : PortId) (new : Port) (c : RateClass) (cls : new.cls = some c) (port : r.ports[i] = new) :
    portNotice i true (settleLanesOn i r) = { r with
      lanes := (settleLanesOn i r).lanes
      link := r.link.notice (.notice .port [.num i.val, .kw new.state.kw, .kw (RateClass.kw c),
        optFld (fun n => .num n) new.ratio, .num new.lockLoss, .kw .CLASS]) } := by
  have frame := (settleLanesOn_eq i r).1
  generalize settleLanesOn i r = t at *
  rw [portNotice_eq i true t new (by rw [frame]; exact port), cls, frame]
  rfl

section closes
variable (s : State) (i : PortId) (new : Port)

/-- R34: a close that keeps the class moves the port, its lanes, and the link where the port reports. -/
theorem afterClose_same (cls : new.cls = s.ports[i].cls) :
    s.afterClose i new = { s with
      ports := s.ports.set i new, lanes := (s.afterClose i new).lanes
      link := if new.state = s.ports[i].state then s.link else s.link.notice (.notice .port
        [.num i.val, .kw new.state.kw, optFld (fun c => .kw (RateClass.kw c)) new.cls, optFld (fun n => .num n) new.ratio,
          .num new.lockLoss]) } ∧
    ∀ k : LaneId, (s.afterClose i new).lanes[k] = s.laneClosed i new (fun k => (laneFormed s k).lc) k := by
  have frame := settled_frame i (fun _ => new) s
  have lane := settled_lane i (fun _ => new) s
  have port : (settleLanesOn i (s.portClosed i new)).ports[i] = new := by
    unfold State.portClosed
    rw [frame]
    exact Vector.getElem_set_self _
  have quiet := portNotice_eq i (decide (new.cls ≠ s.ports[i].cls)) _ new port
  rw [if_neg (by simpa using cls), List.append_nil] at quiet
  unfold State.afterClose State.laneClosed
  dsimp only
  rw [if_pos cls, quiet]
  unfold State.portClosed
  generalize settleLanesOn i ((formLanesOn i s).updPort i fun _ => new) = t at *
  constructor
  · rw [frame]
    split <;> rfl
  · intro k
    refine Eq.trans ?_ (lane k)
    split <;> rfl

/-- R34, R36, R46: a close that moves the class: the lanes take its Lc, the programmes the figures of their lanes, and the port
reports behind the notices of their lines. -/
theorem afterClose_class (c : RateClass) (cls : new.cls = some c) (moved : new.cls ≠ s.ports[i].cls)
    (state : new.state ≠ s.ports[i].state) :
    s.afterClose i new = { recomputeAll (s.portRelatent i new) with
      lanes := (s.afterClose i new).lanes
      link := (recomputeAll (s.portRelatent i new)).link.notice (.notice .port
        [.num i.val, .kw new.state.kw, .kw (RateClass.kw c), optFld (fun n => .num n) new.ratio, .num new.lockLoss,
          .kw .CLASS]) } ∧
    ∀ k : LaneId, (s.afterClose i new).lanes[k] = s.laneClosed i new (fun _ => c.latency) k := by
  have moves := recomputeAll_moves (s.portRelatent i new)
  have frame := portRelatent_frame s i new
  have lane := portRelatent_lane s i new c cls
  have shape : s.afterClose i new = portNotice i true (settleLanesOn i (recomputeAll (s.portRelatent i new))) := by
    unfold State.afterClose
    dsimp only
    rw [if_neg moved, if_neg state, relatencyOn_closed, decide_eq_true moved]
  generalize s.portRelatent i new = w at *
  have ports : w.ports = s.ports.set i new := by rw [frame]
  have port : (recomputeAll w).ports[i] = new := by
    simp only [moves.ports, ports, Fin.getElem_fin, Vector.getElem_set_self]
  have lanes := moves.lanes
  rw [shape, settle_reported _ i new c cls port]
  generalize recomputeAll w = r at *
  have settled := settle_after r i new port
  generalize (settleLanesOn i r).lanes = ls at *
  refine ⟨rfl, fun k => ?_⟩
  rw [settled k, lanes, lane k]
  unfold State.laneClosed
  by_cases on : s.lanes[k].onPort i = true
  · have on' : ({ laneFormed s k with lc := c.latency } : Lane).onPort i = true := by
      rw [← laneFormed_onPort] at on; exact on
    rw [if_pos on, if_pos on', if_pos on]
  · rw [if_neg on, if_neg on, if_neg on]

end closes

/-- R46: what the programmes take at a close that moves the class: `v` is the state with the lanes' new Lc, `t` the one behind
the close, with its notice. -/
theorem class_taken (s v t : State) (notice : Line) (latent : v = { s with ports := t.ports, lanes := v.lanes })
    (lc : ∀ k : LaneId, v.lanes[k].lc = t.lanes[k].lc)
    (frame : t = { recomputeAll v with lanes := t.lanes, link := (recomputeAll v).link.notice notice }) :
    (∀ q : ProgId,
      let g := s.pgms[q]
      let L := (g.ctl.lanes.map fun k => t.lanes[k].lc).foldl max 0
      let pads := g.ctl.lanes.map fun k => L - t.lanes[k].lc
      (g.ctl.state = .undefined ∨ (L = g.ctl.lcPgm ∧ pads = g.ctl.pads) → t.pgms[q].ctl = g.ctl ∧
        (g.dly.short = false → t.pgms[q].dly = g.dly)) ∧
      (g.ctl.state ≠ .undefined → ¬ (L = g.ctl.lcPgm ∧ pads = g.ctl.pads) →
        t.pgms[q].ctl = { g.ctl with lcPgm := L, pads := pads } ∧
        t.pgms[q].dly.t = (lengthFormed L g.dly).t ∧ t.pgms[q].dly.dReq = (lengthFormed L g.dly).dReq ∧
        t.pgms[q].dly.floor = (lengthFormed L g.dly).floor ∧
        (g.ctl.state = .parked → g.dly.short = false → t.pgms[q].dly = lengthFormed L g.dly))) ∧
    (∀ q : ProgId,
      let L := (s.pgms[q].ctl.lanes.map fun k => t.lanes[k].lc).foldl max 0
      latencyTaken (v.recomputedTo q.val) (v.recomputedTo (q.val + 1)) q L
        (s.pgms[q].ctl.lanes.map fun k => L - t.lanes[k].lc)) ∧
    ∃ told : List Line, (∀ x ∈ told, ∃ fields, x = .notice .pages fields) ∧
      t.link = (s.link.notices told).notice notice := by
  have vLc : ∀ ks : List LaneId, v.lcOf ks = (ks.map fun k => t.lanes[k].lc).foldl max 0 := by
    intro ks
    unfold State.lcOf maxPad
    rw [List.map_congr_left fun k _ => lc k]
  have vPads : ∀ ks : List LaneId, v.padsOf ks =
      ks.map fun k => (ks.map fun k => t.lanes[k].lc).foldl max 0 - t.lanes[k].lc := by
    intro ks
    unfold State.padsOf
    rw [vLc]
    exact List.map_congr_left fun k _ => by rw [lc k]
  have vLink : v.link = s.link := by rw [latent]
  have vPgm : ∀ q : ProgId, v.pgms[q] = s.pgms[q] := fun q => by rw [latent]
  refine ⟨fun q => ?_, fun q => ?_, ?_⟩
  · intro g L pads
    have own := recomputeAll_pgm v q
    dsimp only at own
    rw [vPgm, vLc, vPads, show ((recomputeAll v).pgms[q]) = t.pgms[q] by rw [frame]] at own
    obtain ⟨keeps, moved⟩ := own
    refine ⟨keeps, fun defined other => ?_⟩
    obtain ⟨ctl, figures, still⟩ := moved fun k => k.elim defined other
    simp only [Delay.figures, Prod.mk.injEq] at figures
    obtain ⟨-, -, ht, hd, hf, -⟩ := figures
    exact ⟨ctl, ht, hd, hf, fun parked => still fun running => absurd (parked.symm.trans running) (by decide)⟩
  · have taken := recomputedTo_taken v q
    rwa [vPgm, vLc, vPads] at taken
  · obtain ⟨told, pages, sent⟩ := (recomputeAll_moves v).told
    refine ⟨told, pages, ?_⟩
    rw [← vLink, ← sent, frame]

section lanes
variable (s : State) (i : PortId) (new : Port) (lc : LaneId → Nat) (k : LaneId)

theorem laneClosed_valid (on : s.lanes[k].onPort i = true) :
    (s.laneClosed i new lc k).valid = true ↔ new.state = .locked ∨ new.state = .relocking := by
  unfold State.laneClosed
  rw [if_pos on, Lane.settle_port]
  cases new.state <;> simp [PortState.good]

theorem laneClosed_off (off : ¬ s.lanes[k].onPort i = true) : s.laneClosed i new lc k = s.lanes[k] := if_neg off

theorem laneClosed_on (on : s.lanes[k].onPort i = true) :
    let l := s.lanes[k]
    let w := laneFormed s k
    let t := s.laneClosed i new lc k
    t = { w with
        lc := t.lc, valid := t.valid
        fade := if t.valid then (if l.valid then w.fade else .fadingIn) else .silent
        fadePos := if t.valid && l.valid then w.fadePos else 0
        readPos := if t.valid && !l.valid then (new.frameNo : Rat) - 32 else w.readPos } ∧
      t.main = l.main ∧ t.backup = l.backup ∧ t.current = l.current ∧ t.lc = lc k := by
  intro l w t
  obtain ⟨r, n, f, x, formed⟩ := laneFormed_frame s k
  have ht : t = _ := (if_pos on).trans (Lane.settle_port _ _ _)
  have valid : w.valid = l.valid := laneFormed_valid_eq s k
  have fixed : w.main = l.main ∧ w.backup = l.backup ∧ w.current = l.current := by
    simp only [w]
    rw [formed]
    exact ⟨rfl, rfl, rfl⟩
  rw [ht]
  refine ⟨?_, fixed.1, fixed.2.1, fixed.2.2, rfl⟩
  rw [← valid]

theorem laneClosed_lc : (s.laneClosed i new lc k).lc = if s.lanes[k].onPort i = true then lc k else s.lanes[k].lc := by
  by_cases on : s.lanes[k].onPort i = true
  · rw [if_pos on]; exact (laneClosed_on s i new lc k on).2.2.2.2
  · rw [laneClosed_off s i new lc k on, if_neg on]

end lanes

/-- R22: a close moves the class of port `i` at most together with its state. -/
def ClassOnlyAtLock (s : State) (i : PortId) (new : Port) : Prop :=
  new.cls ≠ s.ports[i].cls → new.state = .locked ∧ new.state ≠ s.ports[i].state ∧ ∃ c, new.cls = some c

/-- R17, R34, R46: what any close leaves of the state. -/
theorem afterClose_frame (s : State) (i : PortId) (new : Port) (lock : ClassOnlyAtLock s i new) :
    let t := s.afterClose i new
    t = { s with ports := s.ports.set i new, lanes := t.lanes, pgms := t.pgms, owners := t.owners, link := t.link } ∧
      (∀ q : ProgId, t.pgms[q] = { s.pgms[q] with ctl := t.pgms[q].ctl, dly := t.pgms[q].dly }) ∧
      ∃ lc, ∀ k : LaneId, t.lanes[k] = s.laneClosed i new lc k := by
  intro t
  have same := afterClose_same s i new
  have changed := afterClose_class s i new
  have latent := portRelatent_frame s i new
  generalize s.portRelatent i new = v at *
  rw [show s.afterClose i new = t from rfl] at same changed
  clear_value t
  by_cases cls : new.cls = s.ports[i].cls
  · obtain ⟨frame, lanes⟩ := same cls
    refine ⟨?_, fun q => ?_, _, lanes⟩
    · conv_lhs => rw [frame]
      rw [frame]
    · rw [frame]
  · obtain ⟨-, other, c, new_⟩ := lock cls
    obtain ⟨frame, lanes⟩ := changed c new_ cls other
    have rest := (recomputeAll_moves v).rest
    have pgm := (recomputeAll_moves v).pgm
    have vPgms : v.pgms = s.pgms := by rw [latent]
    generalize recomputeAll v = r at *
    refine ⟨?_, fun q => ?_, _, lanes⟩
    · conv_lhs => rw [frame, rest, latent]
      rw [frame]
    · rw [frame, ← vPgms]
      exact pgm q

/-- R34, R36, R46: what a close leaves where the class stays. -/
theorem afterClose_kept (s : State) (i : PortId) (new : Port) (cls : new.cls = s.ports[i].cls) :
    let t := s.afterClose i new
    t.pgms = s.pgms ∧ t.owners = s.owners ∧ (∀ k : LaneId, t.lanes[k].lc = s.lanes[k].lc) ∧
      t.link = if new.state = s.ports[i].state then s.link else s.link.notice (.notice .port
        [.num i.val, .kw new.state.kw, optFld (fun c => .kw (RateClass.kw c)) s.ports[i].cls,
          optFld (fun n => .num n) new.ratio, .num new.lockLoss]) := by
  intro t
  obtain ⟨frame, lanes⟩ := afterClose_same s i new cls
  rw [show s.afterClose i new = t from rfl, cls] at frame
  rw [show s.afterClose i new = t from rfl] at lanes
  clear_value t
  refine ⟨by rw [frame], by rw [frame], fun k => ?_, by rw [frame]⟩
  rw [lanes k, laneClosed_lc, laneFormed_lc, ite_self]

/-- Settles O15. -/
theorem windowCloseJudgesPort : Obligations.WindowCloseJudgesPort := by
  intro s i w e powered p heard enough opened expires edge rm kept lost agrees
  let new := p.closeWindow kept rm
  have measured : p.measure = some (rm, kept) := by
    unfold Port.measure
    simp only [kept, opened, expires]
    rfl
  have closes : windowClose i s = s.afterClose i new := by
    unfold windowClose
    dsimp only
    rw [if_neg (by rintro (h | h); exacts [heard h, absurd h (Nat.not_lt.mpr enough)]), measured]
    rfl
  obtain ⟨frames, class_⟩ := Port.closeWindow_class p kept rm
  have lock : ClassOnlyAtLock s i new := by
    intro other
    rcases class_ with same | ⟨locked, was, c, new_⟩
    · exact absurd same other
    · exact ⟨locked, fun h => was (h.symm.trans locked), c, new_⟩
  refine ⟨s.afterClose i new, (event_powered _ s powered).trans (congrArg _ closes), ?_⟩
  obtain ⟨rest, pgm, lc, lanes⟩ := afterClose_frame s i new lock
  have kept_ := afterClose_kept s i new
  have changed := afterClose_class s i new
  have latent := portRelatent_frame s i new
  have latentLane := portRelatent_lane s i new
  dsimp only at kept_
  generalize s.portRelatent i new = v at changed latent latentLane
  generalize s.afterClose i new = t at *
  have ports : t.ports = s.ports.set i new := by rw [rest]
  have own : t.ports[i] = new := by simp only [ports, Fin.getElem_fin, Vector.getElem_set_self]
  rw [own]
  refine ⟨by rw [ports]; exact rest, pgm, fun j other => ?_, fun k off => (lanes k).trans (laneClosed_off s i new lc k off),
    fun k on => ?_, fun stays => ?_, fun k on => ?_, fun cls => ?_, fun c new_ old => ?_, ?_⟩
  · simp only [ports, Fin.getElem_fin]
    exact Vector.getElem_set_ne _ _ fun h => other (Fin.ext h.symm)
  · rw [lanes k]; exact laneClosed_valid s i new lc k on
  · have cls : new.cls = p.cls := by
      by_contra other
      exact (lock other).2.1 stays
    exact (kept_ cls).2.2.2.trans (if_pos stays)
  · rw [lanes k]
    obtain ⟨shape, main, backup, current, -⟩ := laneClosed_on s i new lc k on
    exact ⟨frames ▸ shape, main, backup, current⟩
  · obtain ⟨pgms, owners, lcs, link⟩ := kept_ cls
    exact ⟨pgms, owners, lcs, fun moves => link.trans (if_neg moves)⟩
  · have other : new.cls ≠ s.ports[i].cls := fun same => old (same.symm.trans new_)
    obtain ⟨frame, lanes⟩ := changed c new_ other (lock other).2.1
    rw [(lock other).1] at frame
    have tLc : ∀ k : LaneId, t.lanes[k].lc = if s.lanes[k].onPort i = true then c.latency else s.lanes[k].lc := by
      intro k
      rw [lanes k, laneClosed_lc]
    have vLc : ∀ k : LaneId, v.lanes[k].lc = t.lanes[k].lc := by
      intro k
      rw [latentLane c new_ k, tLc k]
      split <;> rfl
    obtain ⟨programmes, taken, told⟩ := class_taken s v t _ (by rw [ports]; exact latent) vLc frame
    rw [recomputeAll_eq] at frame
    have link := congrArg State.link frame
    dsimp only at link
    refine ⟨fun k => (tLc k).trans (by cases c <;> rfl), programmes, ⟨v.recomputedTo, ?_, taken, ?_, link⟩, told⟩
    · rw [ports]; exact latent
    · rw [link]; exact frame
  · have same : kept.state = p.state := rfl
    refine ⟨Port.close_locked_out p kept rm same, fun rt h within ratio far => ?_, fun rt h within ratio near => ?_,
      Port.close_measuring_out p kept rm same, Port.close_measuring_first p kept rm, fun prev h within pred last => ?_,
      Port.close_relocking_out p kept rm same, fun prev h within last => ?_, fun h within => ?_, fun h out => ?_⟩
    · exact Port.close_locked_departs p kept rm h within rt ratio far
    · exact Port.close_locked_tracks p kept rm h within rt ratio near
    · have judged := Port.close_measuring p kept rm h within pred prev last
      refine ⟨fun far => judged.trans (if_neg far), fun near few => judged.trans ((if_pos near).trans (if_pos few)),
        fun a near many first => ?_⟩
      rw [if_pos near, if_neg (Nat.not_lt.mpr many)] at judged
      have history : kept.history.foldl (· + ·) 0 = prev + a := by
        obtain ⟨rest, hist⟩ := List.head?_eq_some_iff.mp first
        simp only [kept, last, hist, List.take_succ_cons, List.take_zero, List.foldl_cons, List.foldl_nil, Nat.zero_add]
      rw [history, ← Nat.add_assoc] at judged
      exact judged
    · have judged := Port.close_relocking p kept rm same h within prev last
      exact ⟨fun near => judged.trans (if_pos near), fun far many => judged.trans ((if_neg far).trans (if_pos many)),
        fun far few => judged.trans ((if_neg far).trans (if_neg (Nat.not_le.mpr few)))⟩
    · exact (Port.close_outOfRange p kept rm h).trans (if_pos within)
    · exact (Port.close_outOfRange p kept rm h).trans (if_neg (by rw [out]; decide))

end Sys2Proof.Machine
end

section
/-! PROOFS, O24. Lanes switched to a source (R33), and the change applied at the bottom of a fade (R51). -/

namespace Sys2Proof.Machine

/-! ### Lanes that are switched (R33) -/

/-- What a fold does that changes each lane of a list by the ports alone, where a second change makes no difference. -/
theorem foldl_updLane_again (f : Vector Port 6 → Lane → Lane) (g : State → LaneId → State)
    (hg : ∀ s k, g s k = s.updLane k (f s.ports)) (again : ∀ ports l, f ports (f ports l) = f ports l) (ks : List LaneId) (s : State) :
    ks.foldl g s = { s with lanes := (ks.foldl g s).lanes } ∧
      ∀ k : LaneId, (ks.foldl g s).lanes[k] = if k ∈ ks then f s.ports s.lanes[k] else s.lanes[k] := by
  induction ks generalizing s with
  | nil => exact ⟨rfl, fun k => rfl⟩
  | cons j ks ih =>
    obtain ⟨frame, lane⟩ := ih (g s j)
    rw [List.foldl_cons]
    generalize ks.foldl g (g s j) = t at *
    rw [hg] at frame lane
    refine ⟨frame, fun k => ?_⟩
    rw [lane k, getElem_updLane, State.updLane_ports]
    by_cases e : j = k
    · subst e
      simp only [if_true, List.mem_cons, true_or, again, ite_self]
    · simp only [if_neg e, List.mem_cons, Ne.symm e, false_or]

theorem good_iff (x : PortState) : x.good = true ↔ x = .locked ∨ x = .relocking := by
  cases x <;> simp [PortState.good]

/-- R33: a lane that is switched, by the ports alone. -/
theorem switchLane_eq (z : SrcSel) (s : State) (k : LaneId) : switchLane z s k = s.updLane k (laneSwitched s z) := by
  unfold switchLane
  congr 1
  funext l
  unfold laneSwitched State.portOf
  dsimp only
  have source : ({ l with current := z, fadePos := 0 } : Lane).source = ({ l with current := z } : Lane).source := rfl
  have lc : s.lcFor { l with current := z, fadePos := 0 } = s.lcFor { l with current := z } := rfl
  rw [source, lc, State.sourceGood_eq]
  cases ({ l with current := z } : Lane).source with
  | none => rfl
  | some x =>
    dsimp only [Option.elim, Option.map_some]
    by_cases good : s.ports[x.port].state = .locked ∨ s.ports[x.port].state = .relocking
    · simp only [(good_iff _).mpr good, if_pos good, if_true]
      rfl
    · simp only [Bool.eq_false_iff.mpr fun h => good ((good_iff _).mp h), if_neg good, Bool.false_eq_true, if_false]

/-- R33: switching a lane a second time makes no difference; its latched word and its word of the house sample play no part. -/
theorem laneSwitched_again (s : State) (z : SrcSel) (w : Lane) (latch : Option (Sample × Bool)) :
    laneSwitched s z { laneSwitched s z w with latch := latch } = { laneSwitched s z w with latch := latch } := by
  obtain ⟨main, backup, current, valid, fade, fadePos, readPos, slips, lc, lat, out⟩ := w
  have named : ∀ (src : Option Source), (z = .main → main = src) → (z = .backup → backup = src) →
      laneSwitched s z { laneSwitched s z ⟨main, backup, current, valid, fade, fadePos, readPos, slips, lc, lat, out⟩ with
        latch := latch } =
      { laneSwitched s z ⟨main, backup, current, valid, fade, fadePos, readPos, slips, lc, lat, out⟩ with latch := latch } := by
    intro src isMain isBackup
    cases src with
    | none => cases z <;> simp_all [laneSwitched, Lane.source, State.lcFor]
    | some x =>
      by_cases good : s.ports[x.port].state = .locked ∨ s.ports[x.port].state = .relocking
      · cases z <;> simp_all [laneSwitched, Lane.source, State.lcFor]
      · cases z <;> simp_all [laneSwitched, Lane.source, State.lcFor]
  cases z with
  | main => exact named main (fun _ => rfl) (fun h => nomatch h)
  | backup => exact named backup (fun h => nomatch h) (fun _ => rfl)

/-- R33, R51: the lanes of a programme that is switched behind its fade down. -/
theorem foldl_switchLaneNow (z : SrcSel) (ks : List LaneId) (s : State) :
    ks.foldl (switchLaneNow z) s = { s with lanes := (ks.foldl (switchLaneNow z) s).lanes } ∧
      ∀ k : LaneId, (ks.foldl (switchLaneNow z) s).lanes[k] =
        if k ∈ ks then { laneSwitched s z s.lanes[k] with latch := none } else s.lanes[k] :=
  foldl_updLane_again (fun ports l => { laneSwitched { s with ports := ports } z l with latch := none }) (switchLaneNow z)
    (fun t k => by
      unfold switchLaneNow
      rw [switchLane_eq]
      simp only [State.updLane, Fin.getElem_fin, Vector.getElem_set_self, Vector.set_set]
      rfl)
    (fun _ _ => by rw [laneSwitched_again]) ks s

theorem foldl_switchLaneNow_pgms (z : SrcSel) (ks : List LaneId) (s : State) (pgms : Vector Pgm 8) :
    ks.foldl (switchLaneNow z) { s with pgms := pgms } =
      { s with lanes := (ks.foldl (switchLaneNow z) s).lanes, pgms := pgms } := by
  obtain ⟨frame, lane⟩ := foldl_switchLaneNow z ks { s with pgms := pgms }
  have same := (foldl_switchLaneNow z ks s).2
  rw [frame]
  generalize (ks.foldl (switchLaneNow z) { s with pgms := pgms }).lanes = a at *
  generalize (ks.foldl (switchLaneNow z) s).lanes = b at *
  rw [show a = b from lanes_ext fun k => (lane k).trans (same k).symm]

/-! ### The change in flight (R51) -/

/-- R51: the record of a programme whose source, and mode where it is named, have been switched; its figures and its fade stand
as they did. -/
def Pgm.switched (g : Pgm) (z : SrcSel) (mo : Option Mode) : Pgm :=
  { g with
    ctl := { g.ctl with
      mode := mo.getD g.ctl.mode, active := z, changeovers := min 65535 (g.ctl.changeovers + 1), revertCount := 0 }
    cor := mo.elim g.cor g.cor.enterMode }

/-- R51: the state once the parts of a change with a source have been applied, before the figures of the lanes are taken. -/
def State.switchedTo (s : State) (p : ProgId) (z : SrcSel) (mo : Option Mode) : State :=
  { s with
    lanes := (s.pgms[p].ctl.lanes.foldl (switchLaneNow z) s).lanes
    pgms := s.pgms.set p (s.pgms[p].switched z mo) }

theorem applyChange_source (p : ProgId) (s : State) (z : SrcSel) (why : Cause) (mo : Option Mode) :
    applyChange p { source := some (z, why), mode := mo } s =
      srcNotice p why (cancelProbe p .source (recompute p (s.switchedTo p z mo))) := by
  have switched : ∀ (g : Pgm), g.ctl.lanes = s.pgms[p].ctl.lanes →
      (s.pgms[p].ctl.lanes.foldl (switchLaneNow z) { s with pgms := s.pgms.set p g }).updCtl p
        (fun c => { c.changeSource z with revertCount := 0 }) =
      { s with
        lanes := (s.pgms[p].ctl.lanes.foldl (switchLaneNow z) s).lanes
        pgms := s.pgms.set p { g with ctl := { g.ctl.changeSource z with revertCount := 0 } } } := by
    intro g same
    rw [foldl_switchLaneNow_pgms]
    simp only [State.updCtl, State.updPgm, Fin.getElem_fin, Vector.getElem_set_self, Vector.set_set]
  unfold applyChange switchSource
  cases mo with
  | none =>
    dsimp only
    have whole : ({ s with pgms := s.pgms.set p s.pgms[p] } : State) = s := by
      rw [show s.pgms.set p s.pgms[p] = s.pgms from Vector.set_getElem_self _]
    have here := switched s.pgms[p] rfl
    rw [whole] at here
    rw [here]
    rfl
  | some m =>
    dsimp only
    have mode : switchMode p m s = { s with pgms := s.pgms.set p { s.pgms[p] with
        ctl := { s.pgms[p].ctl with mode := m }, cor := s.pgms[p].cor.enterMode m } } := rfl
    have lanes : (switchMode p m s).pgms[p].ctl.lanes = s.pgms[p].ctl.lanes := by
      rw [mode]
      simp only [getElem_set_pgm, if_true]
    rw [lanes, mode]
    exact congrArg (fun t => srcNotice p why (cancelProbe p .source (recompute p t)))
      (switched { s.pgms[p] with ctl := { s.pgms[p].ctl with mode := m }, cor := s.pgms[p].cor.enterMode m } rfl)

theorem switchedTo_lane (s : State) (p : ProgId) (z : SrcSel) (mo : Option Mode) (k : LaneId) :
    (s.switchedTo p z mo).lanes[k] =
      if k ∈ s.pgms[p].ctl.lanes then { laneSwitched s z s.lanes[k] with latch := none } else s.lanes[k] :=
  (foldl_switchLaneNow z s.pgms[p].ctl.lanes s).2 k

theorem switchedTo_pgm (s : State) (p : ProgId) (z : SrcSel) (mo : Option Mode) (q : ProgId) :
    (s.switchedTo p z mo).pgms[q] = if q = p then s.pgms[p].switched z mo else s.pgms[q] :=
  getElem_set_pgm _ _ _ _

/-- R129: a probe on a programme is cancelled, as the statements give it. -/
theorem cancelProbe_eq (p : ProgId) (cause : CancelCause) (s : State) :
    cancelProbe p cause s = if s.probe.pgm = some p ∧ (s.probe.state = .armed ∨ s.probe.state = .searching) then
        probeNotice { s with probe := { s.probe with state := .cancelled, expiry := none, cancel := some cause } }
      else s := by
  have busy : ∀ x : ProbeState, x.isBusy = true ↔ x = .armed ∨ x = .searching := by
    intro x; cases x <;> simp [ProbeState.isBusy]
  unfold cancelProbe
  simp only [busy, and_comm]
  rfl

theorem cancelProbe_frame (p : ProgId) (cause : CancelCause) (s : State) :
    cancelProbe p cause s = { s with probe := (cancelProbe p cause s).probe, link := (cancelProbe p cause s).link } := by
  rw [cancelProbe_eq]
  split <;> rfl

/-- R56: an SRC notice, as the statements give it. -/
theorem srcNotice_eq (p : ProgId) (cause : Cause) (s : State) :
    srcNotice p cause s = { s with link := s.link.notice (.notice .src
      ([.num p.val, .kw s.pgms[p].ctl.active.kw] ++ cause.flds ++
        [.num s.pgms[p].ctl.changeovers, .num s.pgms[p].ctl.lcPgm])) } := rfl

/-- R51: the bottom of a fade. -/
theorem changeoverSwitch_due (p : ProgId) (s : State)
    (due : s.pgms[p].ctl.state = .running ∧ s.pgms[p].ctl.out = .fadingDown ∧ 240 ≤ s.pgms[p].ctl.fadePos) :
    changeoverSwitch p s = (applyChange p (s.pgms[p].ctl.inflight.getD Change.empty) s).updCtl p
      fun c => { c with out := .fadingUp, fadePos := 0 } := if_pos due

/-- R46, R51: the figures a RUNNING programme holds once its lanes are switched. -/
theorem switchedTo_recomputed (s : State) (p : ProgId) (z : SrcSel) (mo : Option Mode)
    (running : s.pgms[p].ctl.state = .running) :
    let t := s.switchedTo p z mo
    let w := recompute p t
    let lc := t.lcOf s.pgms[p].ctl.lanes
    let pads := t.padsOf s.pgms[p].ctl.lanes
    let kept := lc = s.pgms[p].ctl.lcPgm ∧ pads = s.pgms[p].ctl.pads
    let formed := (s.pgms[p].switched z mo).latency lc pads
    w.pgms[p].ctl = formed.ctl ∧ w.pgms[p].mtr = s.pgms[p].mtr ∧ w.pgms[p].cor = (s.pgms[p].switched z mo).cor ∧
      w.pgms[p].dly.padsNow = s.pgms[p].dly.padsNow ∧
      (kept → w = { t with pgms := s.pgms.set p { formed with dly := s.pgms[p].dly } }) ∧
      (¬ kept → retargeted { t with pgms := s.pgms.set p formed } w p) := by
  intro t w lc pads kept formed
  have own : t.pgms[p] = s.pgms[p].switched z mo := (switchedTo_pgm s p z mo p).trans (if_pos rfl)
  have moves := recompute_moves p t
  have pgm := moves.pgm p
  have eq := recompute_eq p t
  have held := recompute_own p t
  dsimp only at eq held
  rw [own] at pgm eq held
  obtain ⟨stays, runs, -⟩ := eq
  obtain ⟨same, other⟩ := held
  have keeps : (s.pgms[p].switched z mo).keeps lc pads ↔ kept :=
    ⟨fun h => h.resolve_left fun u => absurd (running.symm.trans u) (by decide), .inr⟩
  have mtr : w.pgms[p].mtr = s.pgms[p].mtr := by simp only [w]; rw [pgm]; rfl
  have cor : w.pgms[p].cor = (s.pgms[p].switched z mo).cor := by simp only [w]; rw [pgm]
  have again : t.pgms.set p formed = s.pgms.set p formed := by
    simp only [t, State.switchedTo, Vector.set_set]
  by_cases k : kept
  · have record := same (keeps.mpr k)
    have whole : { formed with dly := s.pgms[p].dly } = s.pgms[p].switched z mo := by
      obtain ⟨hl, hp⟩ := k
      simp only [formed, Pgm.latency, hl, hp]
      rfl
    refine ⟨?_, mtr, cor, ?_, fun _ => ?_, fun no => absurd k no⟩
    · simp only [w]
      rw [record, ← whole]
    · simp only [w]
      rw [record]
      rfl
    · rw [whole]
      exact stays (keeps.mpr k)
  · obtain ⟨ctl, figures, -⟩ := other fun h => k (keeps.mp h)
    refine ⟨ctl, mtr, cor, ?_, fun yes => absurd yes k, fun _ => ?_⟩
    · simp only [Delay.figures, Prod.mk.injEq] at figures
      exact figures.2.2.2.2.2.2
    · rw [← again]
      simp only [w]
      rw [runs (fun h => k (keeps.mp h)) running]
      exact retarget_retargeted _ _

/-- Settles O24. -/
theorem changeoverAppliesInFlight : Obligations.ChangeoverAppliesInFlight := by
  intro s p powered c due
  refine ⟨fun early => (event_powered _ s powered).trans (congrArg _ (if_neg early)), ?_⟩
  intro entered
  have entered_eq : ∀ m r, entered m r = r.enterMode m := by intro m r; cases m <;> rfl
  refine ⟨fun m down inflight => ?_, fun z why mo down inflight => ?_⟩
  · refine (event_powered _ s powered).trans (congrArg _ ?_)
    rw [changeoverSwitch_due p s down, show s.pgms[p].ctl.inflight = _ from inflight, Option.getD_some]
    unfold applyChange switchMode
    dsimp only
    unfold State.updCtl
    rw [State.updPgm_updPgm]
    refine State.updPgm_congr ?_
    rw [entered_eq]
  · have shape := changeoverSwitch_due p s down
    rw [show s.pgms[p].ctl.inflight = _ from inflight, Option.getD_some, applyChange_source] at shape
    refine ⟨_, (event_powered _ s powered).trans (congrArg _ shape), ?_⟩
    have lane := switchedTo_lane s p z mo
    have pgm := switchedTo_pgm s p z mo
    have moves := recompute_moves p (s.switchedTo p z mo)
    have own := switchedTo_recomputed s p z mo down.1
    dsimp only at own
    have rest : s.switchedTo p z mo = { s with
      lanes := (s.switchedTo p z mo).lanes, pgms := (s.switchedTo p z mo).pgms } := rfl
    generalize s.switchedTo p z mo = t at *
    have cancels := cancelProbe_eq p .source (recompute p t)
    have cancelled := cancelProbe_frame p .source (recompute p t)
    generalize recompute p t = w at *
    rw [srcNotice_eq]
    generalize cancelProbe p .source w = x at *
    have xPgms : x.pgms = w.pgms := by rw [cancelled]
    have xLanes : x.lanes = t.lanes := by rw [cancelled]; exact moves.lanes
    have wProbe : w.probe = s.probe := by rw [moves.rest, rest]
    rw [wProbe] at cancels
    obtain ⟨ctl, mtr, cor, padsNow, stays, takes⟩ := own
    have line : ({ x with link := x.link.notice (.notice .src ([.num p.val, .kw x.pgms[p].ctl.active.kw] ++ why.flds ++
        [.num x.pgms[p].ctl.changeovers, .num x.pgms[p].ctl.lcPgm])) } : State) =
        { x with link := x.link.notice (.notice .src ([.num p.val, .kw z.kw] ++ why.flds ++
          [.num (min 65535 (c.changeovers + 1)), .num (t.lcOf c.lanes)])) } := by
      have count : ((min 65535 (c.changeovers + 1) : Nat) : Int) = min 65535 ((c.changeovers : Int) + 1) := by push_cast; rfl
      rw [xPgms, ctl, ← count]
      rfl
    rw [line]
    generalize hu : State.updCtl _ p _ = u
    have uLanes : u.lanes = t.lanes := by rw [← hu, State.updCtl_lanes]; exact xLanes
    have uProbe : u.probe = x.probe := by rw [← hu]; rfl
    have lcOf : ∀ ks, u.lcOf ks = t.lcOf ks := fun ks => by unfold State.lcOf; rw [uLanes]
    have padsOf : ∀ ks, u.padsOf ks = t.padsOf ks := fun ks => by unfold State.padsOf State.lcOf; rw [uLanes]
    have pgmOf : ∀ q : ProgId, u.pgms[q] =
        if p = q then { w.pgms[q] with ctl := { w.pgms[q].ctl with out := .fadingUp, fadePos := 0 } } else w.pgms[q] := by
      intro q
      rw [← hu, getElem_updCtl]
      simp only [xPgms]
    have own : u.pgms[p] = _ := (pgmOf p).trans (if_pos rfl)
    have restU : u = { s with lanes := u.lanes, pgms := u.pgms, owners := u.owners, probe := u.probe, link := u.link } := by
      rw [← hu, cancelled, moves.rest, rest]
      rfl
    rw [own]
    simp only [lcOf, padsOf, uLanes, uProbe, ctl, mtr, cor]
    refine ⟨rfl, trivial, padsNow, fun k inside => (lane k).trans (if_pos inside), fun k outside => (lane k).trans (if_neg outside),
      fun on busy => ?_, ?_, ?_, fun q other => ?_, w, fun kept => ?_, fun moved => ?_, ?_⟩
    · rw [cancels, if_pos ⟨on, busy⟩]
      rfl
    · rw [← uLanes, ← uProbe]
      exact restU
    · cases mo with
      | none => rfl
      | some m => exact (entered_eq m _).symm
    · have from_ : t.pgms[q] = s.pgms[q] := (pgm q).trans (if_neg other)
      have wrote := moves.pgm q
      rw [pgmOf q, if_neg (Ne.symm other)]
      rw [from_] at wrote
      refine ⟨(moves.ctl q other).trans (by rw [from_]), by rw [wrote], by rw [wrote], fun met => ?_⟩
      rw [wrote, moves.ctl q other, (moves.served q other).unserved (by rw [from_]; exact met), from_]
    · rw [stays kept, if_pos kept]
      conv_lhs => rw [rest]
      rfl
    · rw [if_neg moved]
      have takes := takes moved
      rw [rest] at takes
      exact takes
    · have told : x = if s.probe.pgm = some p ∧ (s.probe.state = .armed ∨ s.probe.state = .searching) then
          probeNotice { w with probe := x.probe } else w := by
        by_cases on : s.probe.pgm = some p ∧ (s.probe.state = .armed ∨ s.probe.state = .searching)
        · rw [if_pos on] at cancels ⊢
          have probe : x.probe = { s.probe with state := .cancelled, expiry := none, cancel := some .source } := by
            rw [cancels]; rfl
          rw [probe]
          exact cancels
        · rwa [if_neg on] at cancels ⊢
      rw [← hu]
      exact congrArg (fun v : State => ({ v with link := v.link.notice (.notice .src ([.num p.val, .kw z.kw] ++ why.flds ++
        [.num (min 65535 (c.changeovers + 1)), .num (t.lcOf c.lanes)])) } : State).updCtl p
          fun c => { c with out := .fadingUp, fadePos := 0 }) told

end Sys2Proof.Machine
end

section
/-! PROOFS, O37, O38, O39 and O41. The probe: its windows, the ends of its search, and its requests (07). -/

namespace Sys2Proof.Machine

/-! ### Windows (R125, R126) -/

/-- R125, R126: what judging windows moves of the probe's record. -/
def Probe.Judged (p q : Probe) : Prop :=
  ∃ onsets windows quiet seen, q = { p with onsets := onsets, windows := windows, quiet := quiet, seen := seen }

theorem Probe.Judged.refl (p : Probe) : p.Judged p := ⟨_, _, _, _, rfl⟩

theorem Probe.Judged.trans {p q r : Probe} (h : p.Judged q) (k : q.Judged r) : p.Judged r := by
  obtain ⟨a, b, c, d, rfl⟩ := h
  obtain ⟨a', b', c', d', rfl⟩ := k
  exact ⟨a', b', c', d', rfl⟩

theorem Probe.examine_judged (p : Probe) (words : List Sample) (loc : Int) : p.Judged (p.examine words loc) := by
  unfold Probe.examine
  dsimp only
  generalize isLoud (sumSquares words) p.threshold = loud
  split <;> exact ⟨_, _, _, _, rfl⟩

theorem Probe.examineNext_judged (p : Probe) (h : HouseCount) (newer : Nat) : p.Judged (p.examineNext h newer) := by
  unfold Probe.examineNext
  dsimp only
  split
  · split
    · exact p.examine_judged _ _
    · exact .refl p
  · exact .refl p

theorem Probe.examineHeld_judged (p : Probe) (h : HouseCount) (newer : Nat) : p.Judged (p.examineHeld h newer) := by
  unfold Probe.examineHeld
  generalize p.taken h / Config.envelopeLen - p.windows = n
  induction n generalizing p with
  | zero => exact .refl p
  | succ n ih => exact (p.examineNext_judged h newer).trans (ih _)

theorem sumSquares_eq (words : List Sample) : sumSquares words = (words.map fun w => w.toInt.natAbs ^ 2).sum := by
  have fold : ∀ n, words.foldl (fun acc w => acc + magnitude w ^ 2) n = n + (words.map fun w => w.toInt.natAbs ^ 2).sum := by
    induction words with
    | nil => intro n; rfl
    | cons w ws ih =>
      intro n
      rw [List.foldl_cons, ih, List.map_cons, List.sum_cons, Nat.add_assoc]
      rfl
  rw [sumSquares, fold, Nat.zero_add]

/-- R125, R126: a window that does not begin an onset. -/
theorem Probe.examine_plain (p : Probe) (words : List Sample) (loc : Int)
    (not : ¬ (isLoud (sumSquares words) p.threshold = true ∧ 10 ≤ p.quiet)) :
    p.examine words loc = { p with
      windows := p.windows + 1, quiet := if isLoud (sumSquares words) p.threshold then 0 else p.quiet + 1
      onsets := p.onsets.map fun o => o.extend words } := if_neg not

/-- R126: a window that begins an onset. -/
theorem Probe.examine_onset (p : Probe) (words : List Sample) (loc : Int)
    (onset : isLoud (sumSquares words) p.threshold = true ∧ 10 ≤ p.quiet) :
    p.examine words loc = { p with
      windows := p.windows + 1, quiet := if isLoud (sumSquares words) p.threshold then 0 else p.quiet + 1, seen := p.seen + 1
      onsets := if p.onsets.length < 4 then (p.onsets.map fun o => o.extend words) ++ [onsetAt words p.threshold loc]
        else p.onsets.map fun o => o.extend words } := if_pos onset

/-- Settles O39. -/
theorem envelopeWindowJudges : Obligations.EnvelopeWindowJudges := by
  intro s r t powered region at_ p taken stop words loud u
  have run := event_powered envelopeWindow s powered
  have next : p.examineNext s.hc = if stop ≤ taken then p.examine words ((r - t).toInt + 48 * p.windows) else p := by
    have takes : p.taken s.hc = taken := by
      unfold Probe.taken Probe.regionLength
      simp only [p, region, at_]
      rfl
    unfold Probe.examineNext
    simp only [p, region, at_, Nat.zero_add]
    rw [show s.probe.taken s.hc = taken from takes]
    rfl
  have examines : p.state = .searching → stop ≤ taken →
      exec .envelopeWindow s = .next { s with probe := p.examine words ((r - t).toInt + 48 * p.windows) } := by
    intro searching whole
    refine run.trans (congrArg _ ?_)
    unfold envelopeWindow
    rw [if_pos searching, ← next.trans (if_pos whole)]
    rfl
  have loud_ : isLoud (sumSquares words) p.threshold = loud := by rw [sumSquares_eq]
  have plain := p.examine_plain words ((r - t).toInt + 48 * p.windows)
  have onset := p.examine_onset words ((r - t).toInt + 48 * p.windows)
  rw [loud_] at plain onset
  refine ⟨fun not => run.trans (congrArg _ ?_), fun searching whole not => ?_, fun searching whole begins quiet full => ?_,
    fun i w searching whole begins quiet room found first => ?_⟩
  · unfold envelopeWindow
    by_cases searching : s.probe.state = .searching
    · rw [if_pos searching]
      have stays := next.trans (if_neg fun whole => not ⟨searching, whole⟩)
      unfold State.updProbe
      dsimp only
      rw [show s.probe.examineNext s.hc = s.probe from stays]
    · rw [if_neg searching]
  · rw [examines searching whole, plain not]
  · rw [examines searching whole, onset ⟨begins, quiet⟩, if_neg (Nat.not_lt.mpr full)]
  · rw [examines searching whole, onset ⟨begins, quiet⟩, if_pos room]
    have here : onsetAt words p.threshold ((r - t).toInt + 48 * p.windows) =
        { location := (r - t).toInt + 48 * p.windows + i, peak := greatest w words, left := 4 } := by
      unfold onsetAt
      rw [List.findIdx_eq_getD_findIdx?, found, List.headD_eq_head?_getD, first]
      rfl
    rw [here]

/-! ### The end of a search (R127 to R130) -/

/-- R63, R64, R128: the state once −m has been written as the trim, before the line takes its length. -/
def State.trimmed (s : State) (q : ProgId) (o : Int) : State :=
  { s with pgms := s.pgms.set q { s.pgms[q] with
      dly := lengthFormed s.pgms[q].ctl.lcPgm { s.pgms[q].dly with o := o } } }

theorem State.trimmed_pgm (s : State) (q p : ProgId) (o : Int) :
    (s.trimmed q o).pgms[p] = { s.pgms[p] with
      dly := if q = p then lengthFormed s.pgms[p].ctl.lcPgm { s.pgms[p].dly with o := o } else s.pgms[p].dly } := by
  unfold State.trimmed
  dsimp only
  rw [getElem_set_pgm]
  by_cases same : q = p
  · subst same
    simp only [if_pos]
  · simp only [if_neg same, if_neg (Ne.symm same)]

/-- R128: the trim of a search on programme `q`. -/
theorem probeTrim_eq (m : Int) (s : State) (q : ProgId) (on : s.probe.pgm = some q) :
    let O := max (-48000) (min (-m) 48000)
    ∃ w : State, LineMoves (· = q) (s.trimmed q O) w ∧
      (s.pgms[q].ctl.state = .running → retargeted (s.trimmed q O) w q) ∧
      (s.pgms[q].ctl.state ≠ .running → w = s.trimmed q O) ∧
      probeTrim m s = { w with probe := { s.probe with trimWritten := some O } } := by
  intro O
  have written := handOver_updDly q s fun d => { d with o := O }
  dsimp only at written
  change handOver q _ = if _ then retarget q (s.trimmed q O) else s.trimmed q O at written
  have own : (s.trimmed q O).pgms[q].dly = lengthFormed s.pgms[q].ctl.lcPgm { s.pgms[q].dly with o := O } := by
    rw [State.trimmed_pgm, if_pos rfl]
  have shape : ∀ w, handOver q (s.updDly q fun d => { d with o := O }) = w → LineMoves (· = q) (s.trimmed q O) w →
      probeTrim m s = { w with probe := { s.probe with trimWritten := some O } } := by
    intro w hw lines
    have figures := lines.figures q
    rw [own] at figures
    simp only [Delay.figures, Prod.mk.injEq] at figures
    have probe : w.probe = s.probe := by rw [lines.moves.rest]; rfl
    have writes : probeTrim m s = { w with probe := { w.probe with trimWritten := some w.pgms[q].dly.o } } := by
      rw [← hw]
      unfold probeTrim
      split
      next p here => cases Option.some.inj (here.symm.trans on); rfl
      next none_ => exact absurd (none_.symm.trans on) (fun no => nomatch no)
    rw [writes, figures.2.1, probe]
    rfl
  by_cases running : s.pgms[q].ctl.state = .running
  · rw [if_pos running] at written
    have lines := retarget_line q (s.trimmed q O)
    exact ⟨_, lines, fun _ => retarget_retargeted _ _, fun no => absurd running no, shape _ written lines⟩
  · rw [if_neg running] at written
    exact ⟨_, .refl _, fun yes => absurd yes running, fun _ => rfl, shape _ written (.refl _)⟩

/-- R127: a search that found no onset. -/
theorem probeOutcome_none (s : State) (none_ : s.probe.onsets = []) :
    probeOutcome s = probeNotice { s with probe := { s.probe with state := .noOnset } } := by
  unfold probeOutcome
  split
  · rfl
  next o rest list => exact absurd (list.symm.trans none_) (fun no => nomatch no)

/-- R127, R128: a search that found an onset. -/
theorem probeOutcome_some (s : State) (o : Onset) (rest : List Onset) (list : s.probe.onsets = o :: rest) :
    probeOutcome s = probeNotice (if s.probe.trim then probeTrim o.location { s with probe := { s.probe with state := .done } }
      else { s with probe := { s.probe with state := .done } }) := by
  unfold probeOutcome
  split
  next none_ => exact absurd (none_.symm.trans list) (fun no => nomatch no)
  next o' rest' list' =>
    cases (List.cons.inj (list'.symm.trans list)).1
    rfl

/-- R130: the notice of a search that found an onset and wrote its trim. -/
theorem probeNotice_trimmed (s : State) (q : ProgId) (o : Onset) (rest : List Onset) (O : Int)
    (list : s.probe.onsets = o :: rest) (on : s.probe.pgm = some q) :
    probeNotice { s with probe := { s.probe with state := .done, trimWritten := some O } } =
      { s with
        probe := { s.probe with state := .done, trimWritten := some O }
        link := s.link.notice (.notice .probe
          [.kw .DONE, .num q.val, optBv s.probe.t,
            (match s.probe.region, s.probe.t with
              | some r, some t => .num (r - t).toInt
              | _, _ => .dash),
            .num s.probe.seen, .num o.location, .num (peakLevel o.peak),
            .kw (if 0 < o.peak.toInt then .POS else .NEG), .num O,
            optFld (fun c => .kw (CancelCause.kw c)) s.probe.cancel]) } := by
  have fields : o.flds = [.num o.location, .num (peakLevel o.peak), .kw (if 0 < o.peak.toInt then .POS else .NEG)] := by
    unfold Onset.flds boolFld
    by_cases up : 0 < o.peak.toInt <;> simp [up]
  unfold probeNotice
  dsimp only
  rw [on, list]
  dsimp only
  rw [fields]
  rfl

/-- R127, R128, R130: the end of a search, as the statements give it. -/
theorem probeOutcome_ended (s : State) (seen : Probe) : searchEnded s (probeOutcome { s with probe := seen }) seen := by
  refine ⟨fun none_ => probeOutcome_none _ none_, fun some_ plain => ?_, fun o q first trims on => ?_⟩
  · obtain ⟨o, rest, list⟩ := List.exists_cons_of_ne_nil some_
    refine (probeOutcome_some _ o rest list).trans (congrArg probeNotice (if_neg ?_))
    exact fun yes => nomatch plain.symm.trans yes
  · intro O g set
    obtain ⟨rest, list⟩ := List.head?_eq_some_iff.mp first
    obtain ⟨w, lines, running, still, written⟩ := probeTrim_eq o.location { s with probe := { seen with state := .done } } q on
    have probe : w.probe = { seen with state := .done } := by rw [lines.moves.rest]; rfl
    refine ⟨w, running, still, lines.told, (probeOutcome_some _ o rest list).trans ?_⟩
    rw [show (if ({ s with probe := seen } : State).probe.trim = true then _ else _) = _ from if_pos trims]
    have told := probeNotice_trimmed w q o rest O (by rw [probe]; exact list) (by rw [probe]; exact on)
    rw [probe] at told
    exact (congrArg probeNotice written).trans told

/-- R127, R128: what the end of a search moves. -/
theorem probeOutcome_frame (s : State) :
    let u := probeOutcome s
    u = { s with pgms := u.pgms, owners := u.owners, probe := u.probe, link := u.link } ∧
    (∃ written, u.probe = { s.probe with
      state := if s.probe.onsets = [] then .noOnset else .done, trimWritten := written }) ∧
    ∀ q : ProgId, u.pgms[q].ctl = s.pgms[q].ctl ∧ u.pgms[q].mtr = s.pgms[q].mtr ∧ u.pgms[q].cor = s.pgms[q].cor ∧
      u.pgms[q].dly.v = s.pgms[q].dly.v ∧ (some q ≠ s.probe.pgm → u.pgms[q].dly.o = s.pgms[q].dly.o) := by
  intro u
  cases list : s.probe.onsets with
  | nil =>
    have ends : u = _ := probeOutcome_none s list
    clear_value u
    subst ends
    exact ⟨rfl, ⟨s.probe.trimWritten, by rw [if_pos rfl]; rfl⟩, fun q => ⟨rfl, rfl, rfl, rfl, fun _ => rfl⟩⟩
  | cons o rest =>
    have ends : u = _ := probeOutcome_some s o rest list
    clear_value u
    by_cases written : s.probe.trim = true ∧ ∃ q, s.probe.pgm = some q
    · obtain ⟨trims, q, on⟩ := written
      obtain ⟨w, lines, -, -, writes⟩ := probeTrim_eq o.location { s with probe := { s.probe with state := .done } } q on
      rw [if_pos trims, writes] at ends
      subst ends
      refine ⟨?_, ⟨_, by rw [if_neg (List.cons_ne_nil _ _)]; rfl⟩, fun p => ?_⟩
      · conv_lhs => unfold probeNotice State.notify
        rw [lines.moves.rest]
        rfl
      · have kept := lines.moves.pgm p
        have figures := lines.figures p
        simp only [Delay.figures, Prod.mk.injEq] at figures
        obtain ⟨v, o_, -⟩ := figures
        rw [State.trimmed_pgm] at kept v o_
        change w.pgms[p].ctl = _ ∧ w.pgms[p].mtr = _ ∧ w.pgms[p].cor = _ ∧ w.pgms[p].dly.v = _ ∧ (_ → w.pgms[p].dly.o = _)
        rw [v, o_, kept]
        refine ⟨rfl, rfl, rfl, ?_, fun other => ?_⟩
        · split <;> rfl
        · rw [if_neg fun same : q = p => other (same ▸ on.symm)]
    · have plain : (if s.probe.trim = true then probeTrim o.location { s with probe := { s.probe with state := .done } }
          else { s with probe := { s.probe with state := .done } }) = { s with probe := { s.probe with state := .done } } := by
        split
        next trims =>
          unfold probeTrim
          split
          next q on => exact absurd ⟨trims, q, on⟩ written
          next => rfl
        next => rfl
      rw [plain] at ends
      subst ends
      exact ⟨rfl, ⟨s.probe.trimWritten, by rw [if_neg (List.cons_ne_nil _ _)]; rfl⟩,
        fun q => ⟨rfl, rfl, rfl, rfl, fun _ => rfl⟩⟩

/-! ### The statements -/

/-- R127: what the end of a search leaves of the windows examined. -/
theorem probeOutcome_judged (s : State) (p seen : Probe) (judged : p.Judged seen) :
    let u := probeOutcome { s with probe := seen }
    u.probe.t = p.t ∧ u.probe.region = p.region ∧ u.probe.expiry = p.expiry ∧
      u.probe.state = (if u.probe.onsets = [] then .noOnset else .done) := by
  intro u
  obtain ⟨-, ⟨written, probe⟩, -⟩ := probeOutcome_frame { s with probe := seen }
  rw [show u.probe = _ from probe]
  obtain ⟨onsets, windows, quiet, count, rfl⟩ := judged
  exact ⟨rfl, rfl, rfl, rfl⟩

/-- Settles O38. -/
theorem markerFixesRegion : Obligations.MarkerFixesRegion := by
  intro s l t a p u d past back marked
  refine ⟨fun not => if_neg not, fun armed line at_ => ?_⟩
  have mark : p.mark t d = marked := by
    unfold Probe.mark
    rw [show p.armAt.getD d = a by rw [at_]; rfl]
    rfl
  have empty : p.noRegion t d = true ↔ back + p.w < past := by
    unfold Probe.noRegion
    rw [at_, decide_eq_true_iff]
    change (d - a).toNat + p.w < past ∨ 24000 + p.w < past ↔ min (min (past + p.w) (d - a).toNat) 24000 + p.w < past
    omega
  have newer : p.newerThanRegion t d = past - (p.w + 1) := rfl
  have run : u = if p.noRegion t d then probeOutcome { s with probe := marked } else
      let s1 : State := { s with probe := marked.examineHeld d (past - (p.w + 1)) }
      if p.w < past then probeOutcome s1 else s1 := by
    rw [← mark]
    exact if_pos ⟨armed, line⟩
  have judged := marked.examineHeld_judged d (past - (p.w + 1))
  clear_value u
  by_cases none_ : back + p.w < past
  · rw [if_pos (empty.mpr none_)] at run
    subst run
    obtain ⟨t_, region, expiry, ends⟩ := probeOutcome_judged s marked marked (.refl _)
    refine ⟨t_, region, expiry, fun early => absurd none_ (by omega), fun _ => ⟨ends, ?_⟩⟩
    rw [if_pos none_]
    exact probeOutcome_ended s marked
  · rw [if_neg (fun yes => none_ (empty.mp yes))] at run
    dsimp only at run
    by_cases late : p.w < past
    · rw [if_pos late] at run
      subst run
      obtain ⟨t_, region, expiry, ends⟩ := probeOutcome_judged s marked _ judged
      refine ⟨t_, region, expiry, fun early => absurd late (by omega), fun _ => ⟨ends, ?_⟩⟩
      rw [if_neg none_]
      exact probeOutcome_ended s _
    · have whole : past - (p.w + 1) = 0 := by omega
      rw [if_neg late, whole] at run
      rw [whole] at judged
      subst run
      obtain ⟨onsets, windows, quiet, seen, same⟩ := judged
      have held : (marked.examineHeld d).t = some t ∧
          (marked.examineHeld d).region = some (d - BitVec.ofNat 48 back) ∧ (marked.examineHeld d).expiry = none ∧
          (marked.examineHeld d).state = .searching := by
        rw [same]
        exact ⟨rfl, rfl, rfl, rfl⟩
      obtain ⟨t_, region, expiry, state⟩ := held
      exact ⟨t_, region, expiry, fun _ => ⟨state, rfl⟩, fun now => absurd now late⟩

/-- Settles O41. -/
theorem probeEnds : Obligations.ProbeEnds := by
  intro s tag ready ht p due
  have powered := ready.1
  have busy : ∀ x : ProbeState, x.isBusy = true ↔ x = .armed ∨ x = .searching := by
    intro x; cases x <;> simp [ProbeState.isBusy]
  refine ⟨fun x words => receive_er ready ht rfl, fun not => ?_, fun now => ?_, fun e armed at_ reached => ?_, fun not => ?_,
    fun q working on => ?_, fun armed searching => receive_er ready ht (if_neg ?_)⟩
  · exact (event_powered probeSearchComplete s powered).trans (congrArg _ (if_neg not))
  · refine ⟨_, (event_powered probeSearchComplete s powered).trans (congrArg _ (if_pos now)),
      probeOutcome_ended s (p.examineHeld s.hc), ?_⟩
    obtain ⟨frame, -, pgms⟩ := probeOutcome_frame { s with probe := p.examineHeld s.hc }
    obtain ⟨-, -, -, ends⟩ := probeOutcome_judged s p _ (p.examineHeld_judged s.hc 0)
    have same : (p.examineHeld s.hc).pgm = p.pgm := by
      obtain ⟨onsets, windows, quiet, seen, same⟩ := p.examineHeld_judged s.hc 0
      rw [same]
    refine ⟨ends, fun q => ?_, frame⟩
    rw [← same]
    exact pgms q
  · refine (event_powered probeTimeout s powered).trans (congrArg _ ?_)
    unfold probeTimeout
    rw [at_]
    exact if_pos ⟨armed, decide_eq_true reached⟩
  · refine (event_powered probeTimeout s powered).trans (congrArg _ ?_)
    unfold probeTimeout
    split
    next e at_ => exact if_neg fun ⟨armed, reached⟩ => not ⟨armed, e, at_, of_decide_eq_true reached⟩
    next => rfl
  · refine receive_ok ready ht (s := s) (f := reqPrbCancel []) ((if_pos ((busy _).mpr working)).trans ?_)
    split
    next p' here =>
      cases Option.some.inj (here.symm.trans on)
      rw [cancelProbe_eq, if_pos ⟨on, working⟩]
    next none_ => exact absurd (none_.symm.trans on) (fun no => nomatch no)
  · rw [busy]
    exact fun working => working.elim armed searching

/-! ### PRB ARM (R121) -/

theorem Tok.fin?_eq_none_of_unread {k : NameKind} {n : Nat} {t : Tok} (h : Tok.index? k t = none) : Tok.fin? k n t = none := by
  unfold Tok.fin?
  rw [h]
  rfl

theorem outside_iff {k : NameKind} {n : Nat} {o : Option Tok} : outside k n o = true ↔ ∃ t, o = some t ∧ beyond k n t := by
  cases o with
  | none => exact ⟨fun no => (nomatch no), fun ⟨_, no, _⟩ => (nomatch no)⟩
  | some t => exact outside_iff_beyond.trans ⟨fun out => ⟨t, rfl, out⟩, fun ⟨_, same, out⟩ => Option.some.inj same ▸ out⟩

/-- A request whose numbers lie in their ranges and whose words can all be read. -/
theorem withArgs_read {α : Type} {bad : Bool} {v : Option α} {s : State} {g : α → Answer} {x : α}
    (inside : bad = false) (read : v = some x) : withArgs bad v s g = g x := by
  rw [inside, read]
  rfl

theorem withArgs_range {α : Type} {bad : Bool} {v : Option α} {s : State} {g : α → Answer} (out : bad = true) :
    withArgs bad v s g = refuse .range s := by
  rw [out]
  rfl

theorem withArgs_unread {α : Type} {bad : Bool} {v : Option α} {s : State} {g : α → Answer} (inside : bad = false)
    (unread : v = none) : withArgs bad v s g = refuse .synErr s := by
  rw [inside, unread]
  rfl

theorem flagIf_decide (P : Prop) [Decidable P] (flag : RFlag) : flagIf (decide P) flag = if P then [flag] else [] := by
  by_cases h : P <;> simp [flagIf, h]

section refusals

variable {s : State} {tag : Nat} (ready : Ready s) (ht : tag ≤ 9999) {request : List Tok → Instr}
  {f : List Tok → State → Answer}
  (run : ∀ args, exec (request args) s = receive (request args) (fun s => s.answer tag (f args)) s)
include ready ht run

/-- R187: a request that judges its numbers first and then reads all its words. -/
theorem wordsRefused_of_args {α : Type} {unread outside : List Tok → Prop} (bad : List Tok → Bool)
    (read : List Tok → Option α) (g : α → Answer) (form : ∀ args, f args s = withArgs (bad args) (read args) s g)
    (range : ∀ args, bad args = true ↔ outside args)
    (readable : ∀ args x, read args = some x → ¬ unread args) :
    wordsRefused s tag (fun args => exec (request args) s) (fun args => ¬ outside args ∧ unread args) outside := by
  refine wordsRefused_of ready ht run (fun args unreadable => ?_) fun args out => ?_
  · obtain ⟨inside, words⟩ := unreadable
    rw [form]
    refine withArgs_unread (Bool.eq_false_iff.mpr fun yes => inside ((range args).mp yes)) ?_
    cases is : read args with
    | none => rfl
    | some x => exact absurd words (readable args x is)
  · rw [form]
    exact withArgs_range ((range args).mpr out)

end refusals

/-- R121: the words PRB ARM reads. -/
theorem readProbe_some {args : List Tok} {x : ProbeSettings} (h : readProbe args = some x) :
    ∃ t l w th tm, (args = [t, l, w, th, tm] ∨ args = [t, l, w, th, tm, .kw .TRIM]) ∧ Tok.fin? .P 8 t = some x.pgm ∧
      Tok.fin? .G 8 l = some x.marker ∧ Tok.int? w = some x.w ∧ Tok.signed? th = some x.threshold ∧
      Tok.int? tm = some x.timeout := by
  unfold readProbe at h
  dsimp only at h
  split at h
  next t l w th tm =>
    split at h
    next t_ l_ w_ th_ tm_ => cases h; exact ⟨t, l, w, th, tm, .inl rfl, t_, l_, w_, th_, tm_⟩
    next => cases h
  next t l w th tm =>
    split at h
    next t_ l_ w_ th_ tm_ => cases h; exact ⟨t, l, w, th, tm, .inr rfl, t_, l_, w_, th_, tm_⟩
    next => cases h
  next => cases h

/-- Settles O37. -/
theorem probeArms : Obligations.ProbeArms := by
  intro s tag ready ht
  refine ⟨?_, fun t l w th tm p line W A T t_ l_ w_ th_ tm_ args trim words => ?_⟩
  · intro outside_
    refine wordsRefused_of_args ready ht (f := reqPrbArm) (fun _ => rfl)
      (fun args => outside .P 8 args[0]? || outside .G 8 args[1]?) readProbe _ (fun _ => rfl)
      (fun args => ?_) fun args x read unread => ?_
    · rw [Bool.or_eq_true, outside_iff, outside_iff]
    · obtain ⟨t, l, w, th, tm, shape, t_, l_, w_, th_, tm_⟩ := readProbe_some read
      rcases unread t l w th tm shape with no | no | no | no | no
      · exact nomatch t_.symm.trans (Tok.fin?_eq_none_of_unread no)
      · exact nomatch l_.symm.trans (Tok.fin?_eq_none_of_unread no)
      · exact nomatch w_.symm.trans no
      · exact nomatch th_.symm.trans no
      · exact nomatch tm_.symm.trans no
  · intro busy W1 A1 T1
    have isBusy : s.probe.state.isBusy = true ↔ busy := by
      simp only [busy]
      cases s.probe.state <;> simp [ProbeState.isBusy]
    let x : ProbeSettings := { pgm := p, marker := line, w := W, threshold := A, timeout := T, trim := trim }
    have inside : (outside .P 8 args[0]? || outside .G 8 args[1]?) = false := by
      obtain ⟨rfl, -⟩ | ⟨rfl, -⟩ := words <;> exact Bool.or_eq_false_iff.mpr ⟨outside_fin t_, outside_fin l_⟩
    have read : readProbe args = some x := by
      obtain ⟨rfl, rfl⟩ | ⟨rfl, rfl⟩ := words <;> simp only [readProbe, t_, l_, w_, th_, tm_, x]
    refine ⟨fun yes => ?_, fun no stopped => ?_, fun no running => ?_⟩
    · exact receive_er ready ht ((withArgs_read inside read).trans (if_pos (isBusy.mpr yes)))
    · exact receive_er ready ht
        ((withArgs_read inside read).trans ((if_neg fun yes => no (isBusy.mp yes)).trans (if_pos stopped)))
    · have flags := flagIf_decide ((W1 : Int) ≠ W ∨ A1 ≠ A ∨ (T1 : Int) ≠ T) .clamped
      rw [← flags]
      exact receive_okFlags ready ht ((withArgs_read inside read).trans
        ((if_neg fun yes => no (isBusy.mp yes)).trans (if_neg fun stopped => stopped running)))

end Sys2Proof.Machine
end

section
/-! PROOFS, O18, O21, O22 and O23. Programmes: definition, deletion, changes of source and mode, and settings (03). -/

namespace Sys2Proof.Machine

/-! ### Lanes whose source is set (R33) -/

theorem laneSwitched_current (s : State) (z : SrcSel) (w : Lane) : (laneSwitched s z w).current = z := by
  unfold laneSwitched
  dsimp only
  split
  · rfl
  · split <;> rfl

/-- R33: the lanes of a list whose current source is set, each by itself. -/
theorem foldl_setLaneSource (z : SrcSel) (ks : List LaneId) (s : State) :
    ks.foldl (setLaneSource z) s = { s with lanes := (ks.foldl (setLaneSource z) s).lanes } ∧
      ∀ k : LaneId, (ks.foldl (setLaneSource z) s).lanes[k] = if k ∈ ks then laneSetTo s z k else s.lanes[k] := by
  let f : Vector Port 6 → Lane → Lane := fun ports l =>
    if l.current = z then l else laneSwitched { s with ports := ports } z (Lane.form ports l)
  have one : ∀ t k, setLaneSource z t k = t.updLane k (f t.ports) := by
    intro t k
    by_cases there : t.lanes[k].current = z
    · refine (if_pos there).trans ?_
      unfold State.updLane
      rw [show f t.ports t.lanes[k] = t.lanes[k] from if_pos there]
      rw [show t.lanes.set k t.lanes[k] = t.lanes from Vector.set_getElem_self _]
    · refine (if_neg there).trans ((switchLane_eq _ _ _).trans ?_)
      unfold formLane State.updLane
      rw [show f t.ports t.lanes[k] = _ from if_neg there]
      simp only [Fin.getElem_fin, Vector.getElem_set_self, Vector.set_set]
      rfl
  have again : ∀ ports l, f ports (f ports l) = f ports l := by
    intro ports l
    by_cases there : l.current = z
    · simp only [f, if_pos there]
    · simp only [f, if_neg there, laneSwitched_current, if_true]
  obtain ⟨frame, lane⟩ := foldl_updLane_again f (setLaneSource z) one again ks s
  refine ⟨frame, fun k => (lane k).trans ?_⟩
  unfold laneSetTo
  rw [laneFormed_eq]

/-! ### Sets of lanes as read (R40) -/

theorem asFins_eq_none {n : Nat} {l : List Int} : asFins n l = none ↔ ∃ x ∈ l, x < 0 ∨ (n : Int) ≤ x := by
  unfold asFins
  induction l with
  | nil => simp
  | cons x l ih =>
    rw [List.mapM_cons]
    cases h : asFin n x with
    | none => simp [asFin_eq_none.mp h]
    | some i =>
      have inside : ¬ (x < 0 ∨ (n : Int) ≤ x) := fun out => nomatch h.symm.trans (asFin_eq_none.mpr out)
      cases k : l.mapM (asFin n) with
      | none => simp only [k, true_iff] at ih; simpa [inside] using ih
      | some ys => simp only [k, reduceCtorEq, false_iff] at ih; simpa [inside] using ih

theorem asFins_length {n : Nat} {l : List Int} {ks : List (Fin n)} (h : asFins n l = some ks) : ks.length = l.length := by
  unfold asFins at h
  induction l generalizing ks with
  | nil => cases h; rfl
  | cons x l ih =>
    rw [List.mapM_cons] at h
    cases hx : asFin n x with
    | none => simp [hx] at h
    | some i =>
      cases hl : l.mapM (asFin n) with
      | none => simp [hx, hl] at h
      | some ys =>
        simp only [hx, hl, Option.pure_def, Option.bind_eq_bind, Option.bind_some, Option.some.injEq] at h
        subst h
        simp [ih hl]

theorem itemsOutside_iff {k : NameKind} {n : Nat} {o : Option Tok} :
    itemsOutside k n o = true ↔ ∃ t l, o = some t ∧ Tok.items? k t = some l ∧ ∃ x ∈ l, x < 0 ∨ (n : Int) ≤ x := by
  unfold itemsOutside
  cases o with
  | none => simp
  | some t =>
    cases h : Tok.items? k t with
    | none => simp [h]
    | some l => simp [h, Option.isNone_iff_eq_none, asFins_eq_none]

/-- R40: the words PGM DEFINE reads. -/
theorem readDefine_some {args : List Tok} {x : ProgId × Layout × List LaneId × PresetId} (h : readDefine args = some x) :
    ∃ t y ks b, args = [t, y, ks, b] ∧ Tok.fin? .P 8 t = some x.1 ∧ Tok.layout? y = some x.2.1 ∧
      (Tok.items? .L ks).bind (asFins 24) = some x.2.2.1 ∧ Tok.fin? .PS 16 b = some x.2.2.2 ∧
      x.2.2.1.length = x.2.1.count := by
  unfold readDefine at h
  split at h
  next t y ks b =>
    split at h
    next p l ks' b' t_ y_ ks_ b_ =>
      split at h
      next fits => cases h; exact ⟨t, y, ks, b, rfl, t_, y_, ks_, b_, fits⟩
      next => cases h
    next => cases h
  next => cases h

/-- R40: a lane list that clashes. -/
theorem laneConflict_iff (s : State) (p : ProgId) (lanes : List LaneId) :
    s.laneConflict p lanes = true ↔ ¬ lanes.Nodup ∨ ∃ k ∈ lanes, ∃ q, s.ownerOf k = some q ∧ q ≠ p := by
  unfold State.laneConflict
  rw [Bool.or_eq_true, decide_eq_true_iff, List.any_eq_true]
  refine or_congr_right (exists_congr fun k => and_congr_right fun _ => ?_)
  cases s.ownerOf k <;> simp

/-! ### Definition (R40) -/

/-- R45, R46: the figures of a programme that is not RUNNING, formed afresh. -/
theorem computeLatency_eq (p : ProgId) (s : State) :
    let g := s.pgms[p].latency (s.lcOf s.pgms[p].ctl.lanes) (s.padsOf s.pgms[p].ctl.lanes)
    computeLatency p s = { s with pgms := s.pgms.set p g } := by
  unfold computeLatency formLength
  simp only [State.updDly, State.updCtl, State.updPgm, Fin.getElem_fin, Vector.getElem_set_self, Vector.set_set]
  rfl

/-- R40, R78, R98: the record of a programme just defined, with the figures of its lanes. -/
def Pgm.defined (old : Pgm) (l : Layout) (lanes : List LaneId) (base : PresetId) (lc : Nat) (pads : List Nat) : Pgm :=
  { ctl := { Ctl.define l lanes base with lcPgm := lc, pads := pads }
    dly := lengthFormed lc (if old.ctl.state = .undefined then Delay.undefined else old.dly)
    mtr := Meter.start lanes.length
    cor := Correction.start [base] }

/-- R40: a definition. -/
theorem definePgm_eq (p : ProgId) (l : Layout) (lanes : List LaneId) (base : PresetId) (s : State) :
    let u := definePgm p l lanes base s
    let g := s.pgms[p].defined l lanes base (u.lcOf lanes) (u.padsOf lanes)
    u = { s with lanes := u.lanes, pgms := s.pgms.set p g } ∧
    ∀ k : LaneId, u.lanes[k] = if k ∈ lanes ∨ k ∈ s.pgms[p].ctl.lanes then laneSetTo s .main k else s.lanes[k] := by
  intro u g
  have moved : lanesToMain (s.pgms[p].ctl.lanes.filter fun k => decide (k ∉ lanes)) (lanesToMain lanes s) =
      (lanes ++ s.pgms[p].ctl.lanes.filter fun k => decide (k ∉ lanes)).foldl (setLaneSource .main) s :=
    (List.foldl_append).symm
  obtain ⟨frame, lane⟩ := foldl_setLaneSource .main (lanes ++ s.pgms[p].ctl.lanes.filter fun k => decide (k ∉ lanes)) s
  rw [← moved] at frame lane
  have hu : u = definePgm p l lanes base s := rfl
  clear_value u
  unfold definePgm at hu
  dsimp only at hu
  generalize lanesToMain (s.pgms[p].ctl.lanes.filter fun k => decide (k ∉ lanes)) (lanesToMain lanes s) = t at *
  have tPgms : t.pgms = s.pgms := by rw [frame]
  have formed := computeLatency_eq p (t.updPgm p fun g =>
    { ctl := Ctl.define l lanes base, dly := if s.pgms[p].ctl.state = .undefined then Delay.undefined else g.dly
      mtr := Meter.start lanes.length, cor := Correction.start [base] })
  dsimp only at formed
  simp only [getElem_updPgm, if_true] at formed
  have uLanes : u.lanes = t.lanes := by rw [hu, formed]; rfl
  have lc : u.lcOf lanes = t.lcOf lanes := by unfold State.lcOf; rw [uLanes]
  have pads : u.padsOf lanes = t.padsOf lanes := by unfold State.padsOf State.lcOf; rw [uLanes]
  refine ⟨?_, fun k => ?_⟩
  · simp only [g]
    rw [lc, pads, uLanes, hu, formed]
    unfold State.updPgm
    rw [Vector.set_set, tPgms]
    conv_lhs => rw [frame]
    rfl
  · rw [uLanes, lane]
    refine if_congr ?_ rfl rfl
    simp only [List.mem_append, List.mem_filter, decide_eq_true_eq]
    tauto

/-- Settles O18. -/
theorem pgmDefineMakesParked : Obligations.PgmDefineMakesParked := by
  intro s tag ready ht
  refine ⟨?_, fun t y ks b p lay lanes base t_ y_ ks_ b_ fits => ?_⟩
  · intro outside_
    refine wordsRefused_of_args ready ht (f := reqPgmDefine) (fun _ => rfl)
      (fun args => outside .P 8 args[0]? || itemsOutside .L 24 args[2]? || outside .PS 16 args[3]?) readDefine _
      (fun _ => rfl) (fun args => ?_) fun args x read unread => ?_
    · rw [Bool.or_eq_true, Bool.or_eq_true, outside_iff, outside_iff, itemsOutside_iff, or_assoc]
      rfl
    · obtain ⟨t, y, ks, b, shape, t_, y_, ks_, b_, fits⟩ := readDefine_some read
      obtain ⟨l, items, fins⟩ := Option.bind_eq_some_iff.mp ks_
      rcases unread t y ks b _ l shape y_ items ((asFins_length fins).symm.trans fits) with no | no
      · exact nomatch t_.symm.trans (Tok.fin?_eq_none_of_unread no)
      · exact nomatch b_.symm.trans (Tok.fin?_eq_none_of_unread no)
  · intro go clash
    have inside : (outside .P 8 [t, y, ks, b][0]? || itemsOutside .L 24 [t, y, ks, b][2]? || outside .PS 16 [t, y, ks, b][3]?) =
        false := by
      obtain ⟨l, items, fins⟩ := Option.bind_eq_some_iff.mp ks_
      have inList : itemsOutside .L 24 (some ks) = false := by
        unfold itemsOutside
        simp only [Option.bind_some, items, fins]
        rfl
      exact Bool.or_eq_false_iff.mpr ⟨Bool.or_eq_false_iff.mpr ⟨outside_fin t_, inList⟩, outside_fin b_⟩
    have read : readDefine [t, y, ks, b] = some (p, lay, lanes, base) := by
      simp only [readDefine, t_, y_, ks_, b_, fits, if_true]
    have conflict := laneConflict_iff s p lanes
    refine ⟨fun running => ?_, fun idle clashes => ?_, fun idle free => ?_⟩
    · exact receive_er ready ht ((withArgs_read inside read).trans (if_pos running))
    · exact receive_er ready ht ((withArgs_read inside read).trans ((if_neg idle).trans (if_pos (conflict.mpr clashes))))
    · refine ⟨_, receive_ok ready ht ((withArgs_read inside read).trans ((if_neg idle).trans
        (if_neg fun yes => free (conflict.mp yes)))), ?_⟩
      obtain ⟨frame, lane⟩ := definePgm_eq p lay lanes base s
      generalize definePgm p lay lanes base s = u at *
      have own : u.pgms[p] = s.pgms[p].defined lay lanes base (u.lcOf lanes) (u.padsOf lanes) := by
        conv_lhs => rw [frame]
        simp only [getElem_set_pgm, if_true]
      have other : ∀ q, q ≠ p → u.pgms[q] = s.pgms[q] := by
        intro q other
        conv_lhs => rw [frame]
        simp only [getElem_set_pgm, if_neg other]
      simp only [State.sendReply_lanes, State.sendReply_pgms]
      refine ⟨own, fun undefined_ => ?_, other, fun k named => (lane k).trans (if_pos named), fun k out before => ?_, ?_⟩
      · rw [own]
        unfold Pgm.defined
        rw [if_pos undefined_]
        exact ⟨rfl, rfl, rfl⟩
      · exact (lane k).trans (if_neg fun named => named.elim out before)
      · have rest : u = { s with lanes := u.lanes, pgms := u.pgms } := by rw [frame]
        change u.okTo tag [.num u.pgms[p].ctl.lcPgm] = _
        generalize u.pgms[p].ctl.lcPgm = n
        conv_lhs => rw [rest]
        rfl

/-! ### Deletion (R43) -/

/-- Settles O21. -/
theorem pgmDeleteMakesUndefined : Obligations.PgmDeleteMakesUndefined := by
  intro s tag ready ht
  refine ⟨oneNumberRefused_of ready ht (f := reqPgmDelete) (fun _ => rfl) (fun p =>
      if s.pgms[p].ctl.state ≠ .parked then refuse .state s
      else okReply [] ((lanesToMain s.pgms[p].ctl.lanes s).updPgm p fun _ => Pgm.undefined)) (fun t => rfl)
      (fun args other => ?_), fun t p t_ => ?_⟩
  · unfold reqPgmDelete
    split
    next t => exact absurd rfl (other t)
    next => rfl
  · have answer : reqPgmDelete [t] s = _ := withIndex_fin t_
    refine ⟨fun busy => receive_er ready ht (answer.trans (if_pos busy)), fun parked => ?_⟩
    refine ⟨_, receive_ok ready ht (answer.trans (if_neg (not_not_intro parked))), ?_⟩
    obtain ⟨frame, lane⟩ := foldl_setLaneSource .main s.pgms[p].ctl.lanes s
    unfold lanesToMain
    generalize s.pgms[p].ctl.lanes.foldl (setLaneSource .main) s = u at *
    refine ⟨?_, fun k inside => (lane k).trans (if_pos inside), fun k out => (lane k).trans (if_neg out)⟩
    conv_lhs => rw [frame]
    rfl

/-! ### Changes of mode and source (R47 to R49) -/

/-- R47: the source changes that are refused. -/
theorem sourceRefused_iff (s : State) (p : ProgId) (z : SrcSel) :
    s.sourceRefused p z = true ↔ s.pgms[p].ctl.state = .undefined ∨
      (z = .backup ∧ ∃ k ∈ s.pgms[p].ctl.lanes, s.lanes[k].backup = none) := by
  unfold State.sourceRefused
  simp only [Bool.or_eq_true, Bool.and_eq_true, decide_eq_true_eq, List.any_eq_true, Option.isNone_iff_eq_none]

/-- R49: the state of a PARKED programme once its source is set, before it takes the figures of its lanes. -/
def State.sourceSet (s : State) (p : ProgId) (z : SrcSel) : State :=
  { s with
    lanes := (s.pgms[p].ctl.lanes.foldl (setLaneSource z) s).lanes
    pgms := s.pgms.set p { s.pgms[p] with ctl := s.pgms[p].ctl.changeSource z } }

theorem applyParked_eq (p : ProgId) (z : SrcSel) (why : Cause) (s : State) (other : s.pgms[p].ctl.active ≠ z) :
    applyParked p z why s = srcNotice p why (recompute p (s.sourceSet p z)) := by
  refine (if_neg other).trans (congrArg (fun t => srcNotice p why (recompute p t)) ?_)
  obtain ⟨frame, -⟩ := foldl_setLaneSource z s.pgms[p].ctl.lanes s
  unfold State.sourceSet
  generalize s.pgms[p].ctl.lanes.foldl (setLaneSource z) s = u at *
  rw [frame]
  rfl

/-- R49: a source change of a PARKED programme that is not on the source. -/
theorem parked_source_taken (s : State) (p : ProgId) (z : SrcSel) (why : Cause) (parked : s.pgms[p].ctl.state = .parked)
    (other : s.pgms[p].ctl.active ≠ z) :
    let c := s.pgms[p].ctl
    let u := applyParked p z why s
    u.pgms[p].ctl = { c with active := z, changeovers := min 65535 (c.changeovers + 1),
                             lcPgm := u.lcOf c.lanes, pads := u.padsOf c.lanes } ∧
    u.pgms[p] = { s.pgms[p] with ctl := u.pgms[p].ctl, dly := u.pgms[p].dly } ∧
    u.pgms[p].dly = (if u.lcOf c.lanes = c.lcPgm ∧ u.padsOf c.lanes = c.pads then s.pgms[p].dly
      else lengthFormed (u.lcOf c.lanes) s.pgms[p].dly) ∧
    (∀ k : LaneId, k ∈ c.lanes → u.lanes[k] = laneSetTo s z k) ∧
    (∀ k : LaneId, k ∉ c.lanes → u.lanes[k] = s.lanes[k]) ∧
    (∀ q, q ≠ p → u.pgms[q] = s.pgms[q]) ∧
    u = { s with lanes := u.lanes, pgms := u.pgms,
                 link := s.link.notice (.notice .src
                   ([.num p.val, .kw z.kw] ++ why.flds ++ [.num (min 65535 (c.changeovers + 1)),
                    .num (u.lcOf c.lanes)])) } := by
  intro c u
  have hu : u = srcNotice p why (recompute p (s.sourceSet p z)) := applyParked_eq p z why s other
  clear_value u
  obtain ⟨kept, -, still⟩ := recompute_eq p (s.sourceSet p z)
  have lane := (foldl_setLaneSource z s.pgms[p].ctl.lanes s).2
  have pgm : ∀ q : ProgId, (s.sourceSet p z).pgms[q] =
      if q = p then { s.pgms[p] with ctl := s.pgms[p].ctl.changeSource z } else s.pgms[q] := fun q => getElem_set_pgm _ _ _ _
  have rest : s.sourceSet p z = { s with lanes := (s.sourceSet p z).lanes, pgms := (s.sourceSet p z).pgms } := rfl
  change ∀ k : LaneId, (s.sourceSet p z).lanes[k] = _ at lane
  generalize s.sourceSet p z = t at *
  have own := (pgm p).trans (if_pos rfl)
  rw [own] at kept still
  let lc := t.lcOf c.lanes
  let pads := t.padsOf c.lanes
  let final : Pgm := { s.pgms[p] with
    ctl := { c with active := z, changeovers := min 65535 (c.changeovers + 1), lcPgm := lc, pads := pads }
    dly := if lc = c.lcPgm ∧ pads = c.pads then s.pgms[p].dly else lengthFormed lc s.pgms[p].dly }
  have taken : recompute p t = { t with pgms := t.pgms.set p final } := by
    by_cases same : lc = c.lcPgm ∧ pads = c.pads
    · obtain ⟨hl, hp⟩ := same
      have whole : final = t.pgms[p] := by
        rw [own]
        simp only [final, hl, hp, and_self, if_true]
        rfl
      rw [kept (.inr ⟨hl, hp⟩), whole, show t.pgms.set p t.pgms[p] = t.pgms from Vector.set_getElem_self _]
    · refine (still (fun k => k.elim (fun h => nomatch parked.symm.trans h) same)
        (fun running => nomatch parked.symm.trans running)).trans ?_
      have formed : final = ({ s.pgms[p] with ctl := s.pgms[p].ctl.changeSource z } : Pgm).latency lc pads := by
        simp only [final, if_neg same]
        rfl
      rw [formed]
      rfl
  rw [taken, srcNotice_eq] at hu
  have uLanes : u.lanes = t.lanes := by rw [hu]
  have lcOf : u.lcOf c.lanes = lc := by unfold State.lcOf; rw [uLanes]; rfl
  have padsOf : u.padsOf c.lanes = pads := by unfold State.padsOf State.lcOf; rw [uLanes]; rfl
  have pgmOf : ∀ q : ProgId, u.pgms[q] = if q = p then final else t.pgms[q] := by
    intro q
    rw [hu]
    exact getElem_set_pgm _ _ _ _
  have ownOf := (pgmOf p).trans (if_pos rfl)
  rw [ownOf, lcOf, padsOf, uLanes]
  refine ⟨rfl, rfl, rfl, fun k inside => (lane k).trans (if_pos inside), fun k out => (lane k).trans (if_neg out),
    fun q other => (pgmOf q).trans ((if_neg other).trans ((pgm q).trans (if_neg other))), ?_⟩
  have count : ((min 65535 (c.changeovers + 1) : Nat) : Int) = min 65535 ((c.changeovers : Int) + 1) := by push_cast; rfl
  have uPgms : u.pgms = t.pgms.set p final := by rw [hu]
  rw [uPgms, ← count, hu]
  simp only [getElem_set_pgm, if_true]
  rw [rest]

/-- Settles O22. -/
theorem pgmChangesWaitForBoundary : Obligations.PgmChangesWaitForBoundary := by
  intro s tag ready ht
  refine ⟨?_, ?_, fun t y p t_ => ⟨fun m mode => ?_, fun z sel => ?_⟩⟩
  · refine programmeAndWordRefused_of ready ht (f := reqPgmMode) (fun _ => rfl) (read := Tok.mode?)
      (fun m p => match requestMode p m s with
        | none => refuse .state s
        | some s1 => okReply [] s1) (fun t y => ?_) (fun args other => ?_)
    · cases h : Tok.mode? y with
      | none => simp only [reqPgmMode, h]
      | some m => simp only [reqPgmMode, h]; rfl
    · unfold reqPgmMode
      split
      next t y => exact absurd rfl (other t y)
      next => rfl
  · refine programmeAndWordRefused_of ready ht (f := reqPgmSource) (fun _ => rfl) (read := Tok.sel?)
      (fun z p => match requestSource p z .request s with
        | none => refuse .state s
        | some s1 => okReply [] s1) (fun t y => ?_) (fun args other => ?_)
    · cases h : Tok.sel? y with
      | none => simp only [reqPgmSource, h]
      | some m => simp only [reqPgmSource, h]; rfl
    · unfold reqPgmSource
      split
      next t y => exact absurd rfl (other t y)
      next => rfl
  · intro go
    have answer : reqPgmMode [t, y] s = match requestMode p m s with
        | none => refuse .state s
        | some s1 => okReply [] s1 := by
      simp only [reqPgmMode, mode]
      exact withIndex_fin t_
    refine ⟨fun undefined_ => receive_er ready ht (answer.trans ?_), fun parked => receive_ok ready ht (answer.trans ?_),
      fun running => receive_ok ready ht (answer.trans ?_)⟩
    · simp only [requestMode, undefined_]
    · simp only [requestMode, parked]
    · simp only [requestMode, running, Ctl.settle_eq]
  · intro go unbacked
    have answer : reqPgmSource [t, y] s = match requestSource p z .request s with
        | none => refuse .state s
        | some s1 => okReply [] s1 := by
      simp only [reqPgmSource, sel]
      exact withIndex_fin t_
    have refused := sourceRefused_iff s p z
    refine ⟨fun bad => receive_er ready ht (answer.trans ?_), fun running backed => receive_ok ready ht (answer.trans ?_),
      fun parked backed same => receive_ok ready ht (answer.trans ?_), fun parked backed other => ?_⟩
    · simp only [requestSource, refused.mpr bad, if_true]
    · have taken : ¬ s.sourceRefused p z = true := fun yes =>
        (refused.mp yes).elim (fun h => nomatch running.symm.trans h) backed
      simp only [requestSource, if_neg taken, running, Ctl.settle_eq]
    · have taken : ¬ s.sourceRefused p z = true := fun yes =>
        (refused.mp yes).elim (fun h => nomatch parked.symm.trans h) backed
      simp only [requestSource, if_neg taken, parked]
      exact congrArg (okReply []) (if_pos same)
    · have taken : ¬ s.sourceRefused p z = true := fun yes =>
        (refused.mp yes).elim (fun h => nomatch parked.symm.trans h) backed
      have done : reqPgmSource [t, y] s = okReply [] (applyParked p z .request s) := by
        rw [answer]
        simp only [requestSource, if_neg taken, parked]
      refine ⟨_, receive_ok ready ht done, ?_⟩
      obtain ⟨ctl, whole, dly, inside, out, others, rest⟩ := parked_source_taken s p z .request parked other
      generalize applyParked p z .request s = u at *
      refine ⟨ctl, whole, dly, inside, out, others, ?_⟩
      conv_lhs => rw [rest]
      rfl

/-! ### Settings (R54, R65, R96) -/

theorem revert_manual (t : Tok) (s : State) :
    reqPgmRevert [t, .kw .MANUAL] s = withIndex .P 8 t s fun p => setRevert p none false s := rfl

theorem revert_auto (t h : Tok) (s : State) (x : Int) (read : Tok.int? h = some x) :
    reqPgmRevert [t, .kw .AUTO, h] s = withIndex .P 8 t s fun p =>
      setRevert p (some (max 1 (min x 600)).toNat) (decide (max 1 (min x 600) ≠ x)) s := by
  simp only [reqPgmRevert, read]
  rfl

/-- Settles O23. -/
theorem programmeSettingsAreWritten : Obligations.ProgrammeSettingsAreWritten := by
  intro s tag t ready ht
  refine ⟨fun n y h x number out read => ?_, fun p t_ => ⟨fun y h x undefined_ read => ?_, fun defined => ?_, ?_⟩⟩
  · have far : n < 0 ∨ ((8 : Nat) : Int) ≤ n := by omega
    exact ⟨receive_er ready ht (withIndex_range number far),
      receive_er ready ht ((revert_auto t h s x read).trans (withIndex_range number far)),
      receive_er ready ht (withIndex_range number far)⟩
  · refine ⟨receive_er ready ht ((withIndex_fin t_).trans (if_pos undefined_)),
      receive_er ready ht ((revert_auto t h s x read).trans ((withIndex_fin t_).trans (if_pos undefined_))),
      receive_er ready ht ((withIndex_fin t_).trans (if_pos undefined_))⟩
  · refine ⟨receive_ok ready ht ((withIndex_fin t_).trans (if_neg defined)), fun h x read => ?_, fun y m read => ?_,
      fun y unread => ?_⟩
    · have flags := flagIf_decide (max 1 (min x 600) ≠ x) .clamped
      have same : (x < 1 ∨ 600 < x) ↔ max 1 (min x 600) ≠ x := by omega
      rw [if_congr same rfl rfl, ← flags]
      exact receive_okFlags ready ht ((revert_auto t h s x read).trans ((withIndex_fin t_).trans (if_neg defined)))
    · refine receive_ok ready ht ((withIndex_fin t_).trans ((if_neg defined).trans ?_))
      simp only [read]
    · refine receive_er ready ht ((withIndex_fin t_).trans ((if_neg defined).trans ?_))
      simp only [unread]
  · intro go
    have reset : s.pgms[p].ctl.state ≠ .undefined → go = .next ((integrationReset p s).okTo tag []) := fun defined =>
      receive_ok ready ht ((withIndex_fin t_).trans (if_neg defined))
    refine ⟨fun undefined_ => receive_er ready ht ((withIndex_fin t_).trans (if_pos undefined_)), fun parked => ?_,
      fun running => ?_⟩
    · rw [reset fun no => nomatch parked.symm.trans no]
      unfold integrationReset
      rw [if_neg fun running : s.pgms[p].ctl.state = .running => nomatch parked.symm.trans running]
    · rw [reset fun no => nomatch running.symm.trans no]
      unfold integrationReset
      rw [if_pos running]
      rfl

end Sys2Proof.Machine
end

section
/-! PROOFS, O19. PGM RUN (R41, R77), and the pages that leave the pool. -/

namespace Sys2Proof.Machine

/-! ### Pages that leave the pool (R59, R60) -/

theorem attachFold_free (p : ProgId) (a : Nat) (ks : List (Fin 8)) (l : List PageOwner) (h : a * ks.length ≤ l.count .free) :
    (ks.foldl (fun l pos => attachPages (.line p pos) a l) l).count .free + a * ks.length = l.count .free := by
  induction ks generalizing l with
  | nil => rfl
  | cons k ks ih =>
    rw [List.length_cons, Nat.mul_succ] at h
    have one : (attachPages (.line p k) a l).count .free = l.count .free - a := by
      rw [attachPages_count _ _ _ _ (by simp), if_neg (by simp), if_pos rfl]
      omega
    rw [List.foldl_cons, List.length_cons, Nat.mul_succ]
    have rest := ih (attachPages (.line p k) a l) (by rw [one]; omega)
    omega

/-- R60: an attachment of `a` pages to each of at most eight lanes takes them from the pool. -/
theorem attachLanes_free (p : ProgId) (k a : Nat) (l : List PageOwner) (h : a * k ≤ l.count .free) (le : k ≤ 8) :
    (attachLanes p k a l).count .free + a * k = l.count .free := by
  have length : (positions k).length = k := by
    have eight : allLines.length = 8 := by decide
    rw [positions, List.length_take, eight]
    omega
  have fold := attachFold_free p a (positions k) l (by rw [length]; exact h)
  rwa [length] at fold

/-! ### PGM RUN (R41, R77) -/

/-- R41, R77: the record of a programme that is run with `grant` pages for each lane. -/
def Pgm.run (g : Pgm) (grant : Nat) : Pgm :=
  let d := g.dly.form g.ctl.lcPgm
  { ctl := g.ctl.run
    dly := d.formLine g.ctl.lanes.length grant (pagesFor d.dReq (maxPad g.ctl.pads)) g.ctl.pads
    mtr := Meter.start g.ctl.lanes.length
    cor := g.cor.atRest }

/-- R77: the need of a programme that is to be run. -/
def Pgm.runNeed (g : Pgm) : Nat := pagesFor (g.dly.form g.ctl.lcPgm).dReq (maxPad g.ctl.pads)

/-- R77: the pages each lane of a programme that is to be run is granted. -/
def State.runGrant (s : State) (p : ProgId) : Nat := s.grantFor s.pgms[p].ctl.lanes.length s.pgms[p].runNeed

/-- R41, R77: the state once a programme has been run, before its report. -/
def State.hasRun (s : State) (p : ProgId) : State :=
  { s with
    owners := attachLanes p s.pgms[p].ctl.lanes.length (s.runGrant p) s.owners
    pgms := s.pgms.set p (s.pgms[p].run (s.runGrant p)) }

/-- R41, R77: the run of a programme. -/
theorem runProgramme_eq (p : ProgId) (s : State) :
    runProgramme p s = if s.runGrant p = 0 then none
      else some (if s.runGrant p < s.pgms[p].runNeed then pagesNotice p false (s.hasRun p) else s.hasRun p) := by
  have formed : (formLength p s).pgms[p] = { s.pgms[p] with dly := s.pgms[p].dly.form s.pgms[p].ctl.lcPgm } := by
    unfold formLength
    rw [getElem_updDly, if_pos rfl]
  have free : (formLength p s).freePages = s.freePages := rfl
  have owners : (formLength p s).owners = s.owners := rfl
  unfold runProgramme
  dsimp only
  rw [formed]
  unfold State.grantFor
  rw [free, owners]
  have ran : ((formLength p s).setOwners (attachLanes p s.pgms[p].ctl.lanes.length (s.runGrant p) s.owners)).updPgm p
      (fun g => { ctl := g.ctl.run
                  dly := g.dly.formLine s.pgms[p].ctl.lanes.length (s.runGrant p) s.pgms[p].runNeed s.pgms[p].ctl.pads
                  mtr := Meter.start s.pgms[p].ctl.lanes.length, cor := g.cor.atRest }) = s.hasRun p := by
    unfold formLength State.updDly State.setOwners State.updPgm State.hasRun
    simp only [Fin.getElem_fin, Vector.getElem_set_self, Vector.set_set]
    rfl
  rw [← ran]
  rfl

/-- Settles O19. -/
theorem pgmRunStartsProgramme : Obligations.PgmRunStartsProgramme := by
  intro s tag ready ht
  refine ⟨oneNumberRefused_of ready ht (f := reqPgmRun) (fun _ => rfl) (fun p =>
      if s.pgms[p].ctl.state ≠ .parked then refuse .state s
      else
        match runProgramme p s with
        | none => refuse .full s
        | some s1 => okReply (natFld (s1.pagesHeld p) :: (if s1.pgms[p].dly.short then [.kw .SHORT] else [])) s1)
      (fun t => rfl) (fun args other => ?_), fun t p t_ => ?_⟩
  · unfold reqPgmRun
    split
    next t => exact absurd rfl (other t)
    next => rfl
  · intro c d k pad need grant len
    have answer : reqPgmRun [t] s = _ := withIndex_fin t_
    have need_eq : s.pgms[p].runNeed = need := pagesFor_eq _ _
    have grant_eq : s.runGrant p = grant := by
      unfold State.runGrant State.grantFor
      rw [need_eq]
    have ran := runProgramme_eq p s
    rw [need_eq, grant_eq] at ran
    refine ⟨fun busy => receive_er ready ht (answer.trans (if_pos busy)), fun parked few => ?_,
      fun parked some_ eight enough clear => ?_⟩
    · have no : grant = 0 := by
        simp only [grant]
        rw [Nat.div_eq_of_lt few]
        exact Nat.min_zero need
      refine receive_er ready ht (answer.trans ((if_neg (not_not_intro parked)).trans ?_))
      rw [ran, if_pos no]
    · have one : ¬ grant = 0 := by
        have page : 1 ≤ s.freePages / k := (Nat.one_le_div_iff some_).mpr enough
        simp only [grant, need]
        omega
      rw [if_neg one] at ran
      have own : (s.hasRun p).pgms[p] = s.pgms[p].run grant := by
        unfold State.hasRun
        rw [grant_eq]
        simp only [getElem_set_pgm, if_true]
      have others : ∀ q, q ≠ p → (s.hasRun p).pgms[q] = s.pgms[q] := by
        intro q other
        unfold State.hasRun
        simp only [getElem_set_pgm, if_neg other]
      have fits : grant * k ≤ s.freePages := by
        rw [← grant_eq]
        exact grantFor_le _ _ _
      have owners : (s.hasRun p).owners = attachLanes p k grant s.owners := by rw [← grant_eq]; rfl
      have held : (s.hasRun p).pagesHeld p = grant := by
        unfold State.pagesHeld at clear ⊢
        rw [owners, attachLanes_count _ _ _ _ fits _ (by simp), if_pos ⟨0, some_, rfl⟩, clear, Nat.zero_add]
      have free : (s.hasRun p).freePages + grant * k = s.freePages := by
        unfold State.freePages
        rw [owners]
        exact attachLanes_free p k grant s.owners fits eight
      have rest : s.hasRun p = { s with pgms := (s.hasRun p).pgms, owners := (s.hasRun p).owners } := rfl
      have short : (s.hasRun p).pgms[p].dly.short = decide (grant < need) := by
        rw [own, ← need_eq]
        rfl
      have record : s.pgms[p].run grant =
          { ctl := { c with state := .running, revertCount := 0, out := .fadingUp, fadePos := 0, fadeHold := true,
                            inflight := none }
            dly := { d with dTarget := len, dApp := len, hist := 0, motion := .still, slewCount := 0, jumpPos := 0,
                            pendTarget := none, short := decide (grant < need), lines := List.replicate k []
                            padsNow := c.pads }
            mtr := Meter.start k
            cor := { Correction.start s.pgms[p].cor.stack with
                       overflow := s.pgms[p].cor.overflow, underflow := s.pgms[p].cor.underflow } } := by
        rw [← need_eq]
        rfl
      rw [record] at own
      generalize s.hasRun p = u at *
      have reported : ∀ v : State, v = { u with link := v.link } → runProgramme p s = some v →
          exec (.pgmRun tag [t]) s =
            .next (v.okTo tag (.num grant :: (if grant < need then [.kw .SHORT] else []))) := by
        intro v same took
        have vPgms : v.pgms = u.pgms := by rw [same]
        have vHeld : v.pagesHeld p = grant := by rw [same]; exact held
        refine receive_ok ready ht (answer.trans ((if_neg (not_not_intro parked)).trans ?_))
        rw [took]
        dsimp only
        rw [vPgms, short, vHeld]
        by_cases less : grant < need <;> simp only [less, decide_true, decide_false, if_true, Bool.false_eq_true, if_false] <;> rfl
      have framed : ∀ v : State, v = { s with pgms := v.pgms, owners := v.owners, link := v.link } → ∀ fields,
          v.okTo tag fields = { s with
            pgms := (v.okTo tag fields).pgms, owners := (v.okTo tag fields).owners, link := (v.okTo tag fields).link } := by
        intro v same fields
        conv_lhs => rw [same]
        rfl
      by_cases less : grant < need
      · rw [if_pos less] at ran
        refine ⟨_, reported _ (by rw [pagesNotice_eq]) ran, own, held, free, others, List.getLast?_concat,
          fun whole => absurd less (Nat.not_lt.mpr whole), ?_⟩
        refine framed _ ?_ _
        rw [pagesNotice_eq]
        generalize u.link.notice _ = told
        conv_lhs => rw [rest]
      · rw [if_neg less] at ran
        refine ⟨_, reported u rfl ran, own, held, free, others, List.getLast?_concat, fun _ => ?_, framed u (by rw [rest]) _⟩
        rw [if_neg less]
        have link : u.link = s.link := by rw [rest]
        exact congrArg (fun l => l.reply (some tag) (.ok [.num grant] [])) link

end Sys2Proof.Machine
end

section
/-! SUPPORT, O20 and O51. Words fixed at a park (R42), and slots that enter FREE (R173, R174). -/

namespace Sys2Proof.Machine

/-! ### The words of the house sample of a park (R42) -/

theorem Lane.form_latch (ports : Vector Port 6) (l : Lane) : (Lane.form ports l).latch.isSome = true := by
  unfold Lane.form
  split
  next some_ => exact some_
  next =>
    split
    · rfl
    · rfl

theorem Lane.form_again (ports : Vector Port 6) (l : Lane) : Lane.form ports (Lane.form ports l) = Lane.form ports l := by
  generalize formed : Lane.form ports l = m
  have latch := Lane.form_latch ports l
  rw [formed] at latch
  exact if_pos latch

/-- The words of the house sample in progress of a list of lanes, in which one may stand twice. -/
theorem formLanesOf_again (ks : List LaneId) (s : State) :
    formLanesOf ks s = { s with lanes := (formLanesOf ks s).lanes } ∧
      ∀ k : LaneId, (formLanesOf ks s).lanes[k] = if k ∈ ks then laneFormed s k else s.lanes[k] := by
  obtain ⟨frame, lane⟩ := foldl_updLane_again Lane.form formLane (fun _ _ => rfl) Lane.form_again ks s
  refine ⟨frame, fun k => ?_⟩
  rw [laneFormed_eq]
  exact lane k

/-- R42: the word that a list gives a lane's channel: the first that it names. -/
def wordFor (k : LaneId) (words : List (LaneId × Sample)) : Option Sample :=
  (words.find? fun kw => decide (kw.1 = k)).map (·.2)

theorem wordFor_none {k : LaneId} {words : List (LaneId × Sample)} (h : ∀ kw ∈ words, kw.1 ≠ k) : wordFor k words = none := by
  unfold wordFor
  rw [List.find?_eq_none.mpr fun kw inside => by simpa using h kw inside]
  rfl

theorem wordFor_at {k : LaneId} {w : Sample} (words : List (LaneId × Sample)) (i : Nat) (once : (words.map (·.1)).Nodup)
    (at_i : words[i]? = some (k, w)) : wordFor k words = some w := by
  induction words generalizing i with
  | nil => simp at at_i
  | cons x words ih =>
    rw [List.map_cons, List.nodup_cons] at once
    cases i with
    | zero =>
      obtain rfl : x = (k, w) := by simpa using at_i
      simp [wordFor]
    | succ i =>
      have later : words[i]? = some (k, w) := by simpa using at_i
      have other : x.1 ≠ k := fun e => once.1 (e ▸ List.mem_map.mpr ⟨_, List.mem_of_getElem? later, rfl⟩)
      have behind := ih i once.2 later
      unfold wordFor at behind ⊢
      rw [List.find?_cons_of_neg (by simpa using other)]
      exact behind

/-- R42: the words of a list are fixed for the channels of their lanes, where none is fixed yet. -/
theorem foldl_outLatch (words : List (LaneId × Sample)) (s : State) :
    let u := words.foldl (fun s kw => s.updLane kw.1 fun l => { l with outLatch := some (l.outLatch.getD kw.2) }) s
    u = { s with lanes := u.lanes } ∧
      ∀ k : LaneId, u.lanes[k] = { s.lanes[k] with outLatch := s.lanes[k].outLatch.or (wordFor k words) } := by
  induction words generalizing s with
  | nil =>
    refine ⟨rfl, fun k => ?_⟩
    rw [show wordFor k [] = none from rfl, Option.or_none]
    rfl
  | cons x words ih =>
    intro u
    obtain ⟨frame, lane⟩ := ih (s.updLane x.1 fun l => { l with outLatch := some (l.outLatch.getD x.2) })
    refine ⟨frame, fun k => (lane k).trans ?_⟩
    rw [getElem_updLane]
    by_cases here : x.1 = k
    · rw [if_pos here]
      have first : wordFor k (x :: words) = some x.2 := by simp [wordFor, here]
      rw [first]
      cases s.lanes[k].outLatch <;> rfl
    · rw [if_neg here]
      have later : wordFor k (x :: words) = wordFor k words := by
        unfold wordFor
        rw [List.find?_cons_of_neg (by simpa using here)]
      rw [later]

/-- R42: what a park fixes of the lanes of its programme. -/
theorem latchOutput_eq (p : ProgId) (s : State) :
    let u := latchOutput p s
    let words := s.pgms[p].ctl.lanes.zip (channelWords s.pgms[p] ((formLanesOf s.pgms[p].ctl.lanes s).laneWords p))
    u = { s with lanes := u.lanes } ∧
    (∀ k : LaneId, k ∉ s.pgms[p].ctl.lanes → u.lanes[k] = s.lanes[k]) ∧
    ∀ k : LaneId, k ∈ s.pgms[p].ctl.lanes →
      u.lanes[k] = { laneFormed s k with outLatch := s.lanes[k].outLatch.or (wordFor k words) } := by
  intro u words
  obtain ⟨formed, lane⟩ := formLanesOf_again s.pgms[p].ctl.lanes s
  have hu : u = latchOutput p s := rfl
  clear_value u
  unfold latchOutput at hu
  dsimp only at hu
  have pgms : (formLanesOf s.pgms[p].ctl.lanes s).pgms = s.pgms := by rw [formed]
  rw [pgms] at hu
  change u = words.foldl _ _ at hu
  have named : ∀ kw ∈ words, kw.1 ∈ s.pgms[p].ctl.lanes := fun kw inside => (List.of_mem_zip inside).1
  clear_value words
  obtain ⟨frame, latch⟩ := foldl_outLatch words (formLanesOf s.pgms[p].ctl.lanes s)
  rw [← hu] at frame latch
  refine ⟨?_, fun k out => ?_, fun k inside => ?_⟩
  · rw [frame, formed]
  · rw [latch, lane, if_neg out, wordFor_none fun kw inside (same : kw.1 = k) => out (same ▸ named kw inside), Option.or_none]
  · rw [latch, lane, if_pos inside, laneFormed_outLatch]

/-- R42, R44: the word that a park fixes is the word the channel would carry. -/
theorem latchOutput_word (p : ProgId) (s v : State) (k : LaneId) (powered : s.powered = true)
    (running : s.pgms[p].ctl.state = .running) (inside : k ∈ s.pgms[p].ctl.lanes) (once : s.pgms[p].ctl.lanes.Nodup)
    (alone : ∀ q, q ≠ p → s.pgms[q].ctl.state = .running → k ∉ s.pgms[q].ctl.lanes) (sample : exec .houseSample s = .next v) :
    (latchOutput p s).lanes[k].outLatch = some v.pins.out[k] := by
  obtain ⟨-, -, latched⟩ := latchOutput_eq p s
  rw [latched k inside]
  obtain ⟨i, at_i⟩ := List.getElem?_of_mem inside
  have hv : houseSample s = v := by
    have run := (event_powered houseSample s powered).symm.trans sample
    exact Host.Outcome.next.inj run
  have out : v.pins.out = s.delivered.pins.out := by rw [← hv, houseSample_frame s]
  have words : (formLanesOf allLanes s).laneWords p = (formLanesOf s.pgms[p].ctl.lanes s).laneWords p := by
    obtain ⟨formed, lane⟩ := formLanesOf_again s.pgms[p].ctl.lanes s
    unfold State.laneWords
    rw [formAll_pgms, show (formLanesOf s.pgms[p].ctl.lanes s).pgms = s.pgms by rw [formed]]
    refine List.map_congr_left fun j listed => ?_
    unfold State.laneWord
    rw [formAll_lane, lane, if_pos listed]
  have carried : (formLanesOf allLanes s).programmeWords[k] = s.pgms[p].ctl.fadeWord (gainStage s.pgms[p] i
      (((formLanesOf s.pgms[p].ctl.lanes s).laneWords p).getD i 0)).1 := by
    rw [State.programmeWords_eq, ← words]
    refine (State.foldl_withChannels_own _ p k i ?_ ?_ ?_ ?_ allProgs allProgs_nodup (mem_allProgs p) _).trans ?_
    any_goals rw [formAll_pgms]
    · exact running
    · exact once
    · exact at_i
    · exact alone
  have long : ((formLanesOf s.pgms[p].ctl.lanes s).laneWords p).length = s.pgms[p].ctl.lanes.length := by
    rw [← words, State.laneWords, formAll_pgms, List.length_map]
  rw [out, delivered_out, carried]
  have word := wordFor_at (k := k) (s.pgms[p].ctl.lanes.zip (channelWords s.pgms[p]
      ((formLanesOf s.pgms[p].ctl.lanes s).laneWords p))) i
    (by rw [List.map_fst_zip (by rw [channelWords_length, long])]; exact once)
    (List.getElem?_zip_eq_some.mpr ⟨at_i, channelWords_at _ _ _ (by
      rw [long]; exact (List.getElem?_eq_some_iff.mp at_i).1)⟩)
  dsimp only
  rw [word]
  cases s.lanes[k].outLatch <;> rfl

/-! ### Pages that return to the pool (R59) -/

/-- R78, R173: the pages of some owners become free. -/
theorem count_freed (gone : PageOwner → Bool) (l : List PageOwner) (x : PageOwner) :
    (l.map fun o => if gone o = true then PageOwner.free else o).count x =
      if x = .free then l.countP (fun o => decide (o = .free) || gone o) else if gone x = true then 0 else l.count x := by
  induction l with
  | nil => simp
  | cons o l ih =>
    rw [List.map_cons, List.count_cons, ih, List.countP_cons, List.count_cons]
    by_cases hx : x = .free
    · subst hx
      by_cases ho : gone o = true
      · simp [ho]
      · simp [ho]
    · by_cases ho : gone o = true
      · by_cases same : o = x
        · subst same; simp [hx, ho, Ne.symm hx]
        · simp [hx, ho, same, Ne.symm hx]
      · by_cases same : o = x
        · subst same; simp [hx, ho]
        · simp [hx, ho, same]

theorem releaseAll_count (c : SlotId) (l : List PageOwner) (x : PageOwner) (taken : x ≠ .free) :
    (releaseAll (.slot c) l).count x = if x = .slot c then 0 else l.count x := by
  have map : releaseAll (.slot c) l = l.map fun o => if decide (o = .slot c) = true then PageOwner.free else o := by
    unfold releaseAll
    simp only [decide_eq_true_eq]
  rw [map, count_freed, if_neg taken]
  simp only [decide_eq_true_eq]

theorem releasePgm_count (p : ProgId) (l : List PageOwner) (x : PageOwner) (taken : x ≠ .free) :
    (releasePgm p l).count x = if isLineOf p x = true then 0 else l.count x := by
  unfold releasePgm
  rw [count_freed, if_neg taken]

/-! ### The arbiter and the pages of others (R61) -/

/-- R61: an owner whose pages no service can touch: a slot, or the line of a programme that does not wait. -/
def State.Settled (s : State) (x : PageOwner) : Prop := x ≠ .free ∧ ∀ p pos, x = .line p pos → s.pgms[p].dly.short = false

theorem serve_count (s : State) (p : ProgId) (x : PageOwner) (settled : s.Settled x) :
    (serve s p).owners.count x = s.owners.count x := by
  obtain ⟨taken, met⟩ := settled
  by_cases short : s.pgms[p].dly.short = false
  · rw [show serve s p = s from if_pos short]
  · have attach : (attachLanes p (s.laneCount p) (s.grantFor (s.laneCount p) (s.need p - s.pagesHeld p)) s.owners).count x =
        s.owners.count x := by
      rw [attachLanes_count _ _ _ _ (grantFor_le _ _ _) x taken, if_neg]
      rintro ⟨pos, -, line⟩
      exact short (met p pos line)
    unfold serve
    dsimp only
    rw [if_neg short]
    split
    · exact attach
    · split
      · rfl
      · exact attach

theorem Settled.of_line {s t : State} {x : PageOwner} (moves : LineMoves Nobody s t) (settled : s.Settled x) : t.Settled x := by
  obtain ⟨taken, met⟩ := settled
  refine ⟨taken, fun p pos line => ?_⟩
  have short := met p pos line
  rw [(moves.others p id).unserved short]
  exact short

theorem arbiter_count (s : State) (x : PageOwner) (settled : s.Settled x) : (arbiter s).owners.count x = s.owners.count x := by
  have fold : ∀ (ps : List ProgId) (t : State), t.Settled x → (ps.foldl serve t).owners.count x = t.owners.count x := by
    intro ps
    induction ps with
    | nil => exact fun _ _ => rfl
    | cons p ps ih =>
      intro t settled
      rw [List.foldl_cons, ih _ (Settled.of_line (serve_line t p) settled), serve_count t p x settled]
  exact fold allProgs s settled

/-- R61: with no programme waiting the arbiter does nothing. -/
theorem arbiter_idle (s : State) (met : ∀ q : ProgId, s.pgms[q].dly.short = false) : arbiter s = s := by
  have fold : ∀ ps : List ProgId, ps.foldl serve s = s := by
    intro ps
    induction ps with
    | nil => rfl
    | cons p ps ih => rw [List.foldl_cons, show serve s p = s from if_pos (met p), ih]
  exact fold allProgs

/-! ### Slots that enter FREE (R173, R174) -/

/-- R174: a slot that a park of programme `p` frees. -/
abbrev State.parksSlot (s : State) (p : ProgId) (c : SlotId) : Prop := s.slots[c].pgm = some p ∧ s.slots[c].state ≠ .free

/-- What freeing slots leaves: `u` is `s` but for slots, pages, lines that the arbiter serves, and notices. -/
structure SlotsMove (s u : State) : Prop where
  rest : u = { s with pgms := u.pgms, owners := u.owners, slots := u.slots, link := u.link }
  pgm : ∀ q : ProgId, u.pgms[q] = { s.pgms[q] with dly := u.pgms[q].dly }
  served : ∀ q : ProgId, s.pgms[q].dly.ServedIn u.pgms[q].dly

theorem SlotsMove.refl (s : State) : SlotsMove s s := ⟨rfl, fun _ => rfl, fun _ => ⟨fun _ => rfl, rfl, rfl⟩⟩

theorem SlotsMove.trans {s t u : State} (h : SlotsMove s t) (k : SlotsMove t u) : SlotsMove s u where
  rest := by rw [k.rest, h.rest]
  pgm q := by rw [k.pgm q, h.pgm q]
  served q := by
    obtain ⟨h1, h2, h3⟩ := h.served q
    obtain ⟨k1, k2, k3⟩ := k.served q
    exact ⟨fun e => (k1 (by rw [h1 e, e])).trans (h1 e), k2.trans h2, k3.trans h3⟩

theorem SlotsMove.settled {s u : State} (h : SlotsMove s u) {x : PageOwner} (settled : s.Settled x) : u.Settled x := by
  obtain ⟨taken, met⟩ := settled
  refine ⟨taken, fun p pos line => ?_⟩
  rw [(h.served p).unserved (met p pos line)]
  exact met p pos line

/-- R173: a slot is freed. -/
theorem freeSlot_moves (c : SlotId) (s : State) :
    SlotsMove s (freeSlot c s) ∧
    (∀ d : SlotId, (freeSlot c s).slots[d] = if c = d then s.slots[d].freed else s.slots[d]) ∧
    ∀ x, s.Settled x → (freeSlot c s).owners.count x = if x = .slot c then 0 else s.owners.count x := by
  have line := arbiter_line ((s.updSlot c Slot.freed).setOwners (releaseAll (.slot c) s.owners))
  have count := fun x settled => arbiter_count ((s.updSlot c Slot.freed).setOwners (releaseAll (.slot c) s.owners)) x settled
  change LineMoves Nobody _ (freeSlot c s) at line
  change ∀ x, _ → (freeSlot c s).owners.count x = _ at count
  generalize freeSlot c s = u at *
  have slots : u.slots = (s.updSlot c Slot.freed).slots := by rw [line.moves.rest]; rfl
  refine ⟨⟨?_, line.moves.pgm, fun q => line.others q id⟩, fun d => ?_, fun x settled => ?_⟩
  · rw [slots]
    conv_lhs => rw [line.moves.rest]
    rfl
  · rw [slots, getElem_updSlot]
  · rw [count x settled]
    exact releaseAll_count c s.owners x settled.1

theorem capNotice_moves (c : SlotId) (reason : Kw) (s : State) : SlotsMove s (capNotice c reason s) :=
  ⟨rfl, fun _ => rfl, fun _ => ⟨fun _ => rfl, rfl, rfl⟩⟩

/-- R174: one slot at a park. -/
def parkSlot (p : ProgId) (s : State) (c : SlotId) : State :=
  if s.slots[c].pgm = some p ∧ s.slots[c].state ≠ .free then capNotice c .PARKED (freeSlot c s) else s

theorem parkSlots_eq (p : ProgId) (s : State) : parkSlots p s = parkSlot p (parkSlot p s 0) 1 := rfl

theorem parkSlot_moves (p : ProgId) (s : State) (c : SlotId) :
    SlotsMove s (parkSlot p s c) ∧
    (∀ d : SlotId, (parkSlot p s c).slots[d] = if c = d ∧ s.parksSlot p d then s.slots[d].freed else s.slots[d]) ∧
    ∀ x, s.Settled x → (parkSlot p s c).owners.count x = if s.parksSlot p c ∧ x = .slot c then 0 else s.owners.count x := by
  by_cases parks : s.parksSlot p c
  · rw [show parkSlot p s c = capNotice c .PARKED (freeSlot c s) from if_pos parks]
    obtain ⟨moves, slots, count⟩ := freeSlot_moves c s
    generalize freeSlot c s = u at *
    refine ⟨moves.trans (capNotice_moves _ _ _), fun d => (slots d).trans ?_, fun x settled => (count x settled).trans ?_⟩
    · by_cases same : c = d
      · subst same; rw [if_pos rfl, if_pos ⟨rfl, parks⟩]
      · rw [if_neg same, if_neg fun h => same h.1]
    · exact if_congr (and_iff_right parks).symm rfl rfl
  · rw [show parkSlot p s c = s from if_neg parks]
    refine ⟨.refl s, fun d => ?_, fun x _ => ?_⟩
    · rw [if_neg]
      rintro ⟨rfl, h⟩
      exact parks h
    · rw [if_neg fun h => parks h.1]

/-- R174, R175: one slot at a park while no programme waits for pages. -/
theorem parkSlot_quiet (p : ProgId) (s : State) (c : SlotId) (met : ∀ q : ProgId, s.pgms[q].dly.short = false)
    (parks : s.parksSlot p c) :
    let x := s.slots[c]
    let free := (releaseAll (.slot c) s.owners).count .free
    parkSlot p s c = { s with
      slots := (s.updSlot c Slot.freed).slots
      owners := releaseAll (.slot c) s.owners
      link := s.link.notice (.notice .cap
        ([.num c.val, .kw .PARKED, .num p.val, optBv x.trigAt] ++ optFlds TrigSource.flds x.trigSrc ++
          [optNat x.actualPre, .num x.post, .num x.ignored, .num free])) } := by
  intro x free
  have freed : freeSlot c s = (s.updSlot c Slot.freed).setOwners (releaseAll (.slot c) s.owners) := arbiter_idle _ met
  have slot : ((s.updSlot c Slot.freed).setOwners (releaseAll (.slot c) s.owners)).slots[c] = s.slots[c].freed := by
    change (s.updSlot c Slot.freed).slots[c] = _
    rw [getElem_updSlot, if_pos rfl]
  rw [show parkSlot p s c = capNotice c .PARKED (freeSlot c s) from if_pos parks, freed]
  unfold capNotice
  dsimp only
  rw [slot, show s.slots[c].freed.pgm = some p from parks.1]
  rfl

end Sys2Proof.Machine
end

section
/-! PROOFS, O20. PGM PARK (R42, R78, R98, R129, R174). -/

namespace Sys2Proof.Machine

/-- R42, R78: the record of a programme that is parked. -/
def Pgm.parked (g : Pgm) : Pgm :=
  { ctl := g.ctl.park, dly := g.dly.park, mtr := Meter.start g.ctl.lanes.length, cor := g.cor.atRest }

/-- R42: the state once a park has silenced its programme. -/
def State.silenced (s : State) (p : ProgId) : State :=
  (latchOutput p s).updPgm p fun g => { g with ctl := g.ctl.park, dly := g.dly.park }

/-- R42, R78: the state once the pages, the meter and the gain of a programme that is parked have been cleared. -/
def State.emptied (s : State) (p : ProgId) : State :=
  (returnPages p s.pgms[p].dly.short (s.silenced p)).updPgm p fun g =>
    { g with mtr := Meter.start g.ctl.lanes.length, cor := g.cor.atRest }

theorem parkPgm_eq (p : ProgId) (s : State) :
    parkPgm p s = (parkSlots p (cancelProbe p .park (s.emptied p))).setReport p none := rfl

theorem silenced_frame (s : State) (p : ProgId) :
    s.silenced p = { s with lanes := (latchOutput p s).lanes, pgms := (s.silenced p).pgms } := by
  obtain ⟨frame, -⟩ := latchOutput_eq p s
  unfold State.silenced
  generalize latchOutput p s = a at *
  have rest : a = { s with lanes := a.lanes, pgms := a.pgms } := by rw [frame]
  conv_lhs => rw [rest]
  rfl

theorem silenced_pgm (s : State) (p q : ProgId) :
    (s.silenced p).pgms[q] = if q = p then { s.pgms[p] with ctl := s.pgms[p].ctl.park, dly := s.pgms[p].dly.park } else s.pgms[q] := by
  obtain ⟨frame, -⟩ := latchOutput_eq p s
  have pgms : (latchOutput p s).pgms = s.pgms := by rw [frame]
  unfold State.silenced
  rw [getElem_updPgm, pgms]
  by_cases same : q = p
  · subst same; rw [if_pos rfl]
  · rw [if_neg same, if_neg (Ne.symm same)]

/-- R78: the pages of a programme's lines return. -/
theorem returnPages_moves (p : ProgId) (short : Bool) (s : State) :
    LineMoves Nobody s (returnPages p short s) ∧
    ∀ x, s.Settled x → (returnPages p short s).owners.count x = if isLineOf p x = true then 0 else s.owners.count x := by
  have first : LineMoves Nobody s (s.setOwners (releasePgm p s.owners)) := .setOwners _ _ (releasePgm_length _ _)
  have told : LineMoves Nobody s (if short then pagesNotice p false (s.setOwners (releasePgm p s.owners))
      else s.setOwners (releasePgm p s.owners)) := by
    split
    · exact first.trans (.pagesNotice _ _ _)
    · exact first
  have owners : (if short then pagesNotice p false (s.setOwners (releasePgm p s.owners))
      else s.setOwners (releasePgm p s.owners)).owners = releasePgm p s.owners := by
    split <;> rfl
  refine ⟨told.trans (arbiter_line _), fun x settled => ?_⟩
  refine (arbiter_count _ x (Settled.of_line told settled)).trans ?_
  rw [owners]
  exact releasePgm_count p s.owners x settled.1

/-- R78, R80: the pages of a programme's lines return while no programme waits. -/
theorem returnPages_quiet (p : ProgId) (short : Bool) (s : State) (met : ∀ q : ProgId, s.pgms[q].dly.short = false)
    (idle : s.pgms[p].ctl.state ≠ .running) (empty : s.pgms[p].dly.dTarget = 0) :
    returnPages p short s = { s with
      owners := releasePgm p s.owners
      link := if short then s.link.notice (.notice .pages
          [.num p.val, .num 0, .num 0, .num 0, .kw .MET, .num ((releasePgm p s.owners).count .free)]) else s.link } := by
  have held : (s.setOwners (releasePgm p s.owners)).pagesHeld p = 0 := by
    have none_ : (releasePgm p s.owners).count (.line p 0) = 0 := by
      rw [releasePgm_count p _ _ (by simp)]
      simp [isLineOf]
    exact none_
  unfold returnPages
  dsimp only
  cases short with
  | false => exact arbiter_idle _ met
  | true =>
    simp only [if_true]
    have still : ¬ (s.setOwners (releasePgm p s.owners)).pgms[p].ctl.state = .running := idle
    rw [pagesNotice_eq, if_neg still]
    have quiet : ∀ l : Link, arbiter { s.setOwners (releasePgm p s.owners) with link := l } =
        { s with owners := releasePgm p s.owners, link := l } := fun l => arbiter_idle _ met
    rw [quiet]
    unfold pagesLine
    rw [held]
    have record : (s.setOwners (releasePgm p s.owners)).pgms[p].dly = s.pgms[p].dly := rfl
    dsimp only
    rw [record, empty, met p]
    rfl

/-- R42, R78: what a park empties. -/
theorem emptied_moves (s : State) (p : ProgId) :
    let t := s.emptied p
    t = { s with lanes := (latchOutput p s).lanes, pgms := t.pgms, owners := t.owners, link := t.link } ∧
    t.pgms[p] = s.pgms[p].parked ∧
    (∀ q, q ≠ p → t.pgms[q] = { s.pgms[q] with dly := t.pgms[q].dly } ∧ s.pgms[q].dly.ServedIn t.pgms[q].dly) ∧
    (∀ pos, t.owners.count (.line p pos) = 0) ∧
    ∀ c : SlotId, t.owners.count (.slot c) = s.owners.count (.slot c) := by
  intro t
  obtain ⟨line, count⟩ := returnPages_moves p s.pgms[p].dly.short (s.silenced p)
  have frame := silenced_frame s p
  have pgm := silenced_pgm s p
  have ht : t = (returnPages p s.pgms[p].dly.short (s.silenced p)).updPgm p fun g =>
    { g with mtr := Meter.start g.ctl.lanes.length, cor := g.cor.atRest } := rfl
  clear_value t
  generalize s.silenced p = a at *
  have own := (pgm p).trans (if_pos rfl)
  have owners : a.owners = s.owners := by rw [frame]
  have link : a.link = s.link := by rw [frame]
  generalize returnPages p s.pgms[p].dly.short a = b at *
  have tPgm : ∀ q : ProgId, t.pgms[q] = if p = q then { b.pgms[q] with
      mtr := Meter.start b.pgms[q].ctl.lanes.length, cor := b.pgms[q].cor.atRest } else b.pgms[q] := by
    intro q; rw [ht, getElem_updPgm]
  have tOwners : t.owners = b.owners := by rw [ht]; rfl
  have rests : b.pgms[p] = a.pgms[p] := by
    have dly := (line.others p id).unserved (by rw [own]; rfl)
    rw [line.moves.pgm p, dly]
  refine ⟨?_, ?_, fun q other => ?_, fun pos => ?_, fun c => ?_⟩
  · have rest : b = { s with lanes := (latchOutput p s).lanes, pgms := b.pgms, owners := b.owners, link := b.link } := by
      conv_lhs => rw [line.moves.rest, frame]
    rw [ht]
    conv_lhs => rw [rest]
    rfl
  · rw [tPgm, if_pos rfl, rests, own]
    rfl
  · have before := (pgm q).trans (if_neg other)
    have moved := line.moves.pgm q
    have served := line.others q id
    rw [before] at moved served
    rw [tPgm, if_neg (Ne.symm other)]
    exact ⟨moved, served⟩
  · rw [tOwners, count _ ⟨by simp, fun q pos' same => ?_⟩, if_pos (by simp [isLineOf])]
    cases same
    rw [own]
    rfl
  · rw [tOwners, count _ ⟨by simp, by intro q pos same; cases same⟩, owners]
    simp [isLineOf]

/-- R174: the slots at a park, all of them. -/
theorem parkSlots_moves (p : ProgId) (s : State) :
    SlotsMove s (parkSlots p s) ∧
    (∀ d : SlotId, (parkSlots p s).slots[d] = if s.parksSlot p d then s.slots[d].freed else s.slots[d]) ∧
    (∀ q pos, s.pgms[q].dly.short = false → (parkSlots p s).owners.count (.line q pos) = s.owners.count (.line q pos)) ∧
    ∀ c : SlotId, s.parksSlot p c → (parkSlots p s).owners.count (.slot c) = 0 := by
  rw [parkSlots_eq]
  obtain ⟨moves, slots, count⟩ := parkSlot_moves p s 0
  generalize parkSlot p s 0 = t at *
  obtain ⟨moves', slots', count'⟩ := parkSlot_moves p t 1
  generalize parkSlot p t 1 = u at *
  have second : t.slots[(1 : SlotId)] = s.slots[(1 : SlotId)] := by rw [slots, if_neg fun h => absurd h.1 (by decide)]
  have parks : t.parksSlot p 1 ↔ s.parksSlot p 1 := by
    unfold State.parksSlot
    rw [second]
  have slot : ∀ c : SlotId, s.Settled (.slot c) := fun c => ⟨by simp, by intro q pos same; cases same⟩
  refine ⟨moves.trans moves', fun d => ?_, fun q pos met => ?_, fun c freed => ?_⟩
  · obtain rfl | rfl : d = 0 ∨ d = 1 := by revert d; decide
    · rw [slots', if_neg fun h => absurd h.1 (by decide), slots]
      exact if_congr (and_iff_right rfl) rfl rfl
    · refine (slots' 1).trans (if_congr ((and_iff_right rfl).trans parks) ?_ second)
      rw [second]
  · have settled : s.Settled (.line q pos) := ⟨by simp, by intro q' pos' same; cases same; exact met⟩
    rw [count' _ (moves.settled settled), if_neg fun h => (nomatch h.2), count _ settled, if_neg fun h => (nomatch h.2)]
  · rw [count' _ (moves.settled (slot c))]
    have two : ∀ c : SlotId, c = 0 ∨ c = 1 := by decide
    obtain rfl | rfl := two c
    · rw [count _ (slot 0), if_pos (show s.parksSlot p 0 ∧ _ from ⟨freed, rfl⟩), ite_self]
    · rw [if_pos (show t.parksSlot p 1 ∧ _ from ⟨parks.mpr freed, rfl⟩)]

/-- R42: what a park makes of the part. -/
theorem parkPgm_moves (p : ProgId) (s : State) :
    let u := parkPgm p s
    u = { s with lanes := (latchOutput p s).lanes, pgms := u.pgms, owners := u.owners, probe := u.probe,
                 reports := u.reports, slots := u.slots, link := u.link } ∧
    u.pgms[p] = s.pgms[p].parked ∧
    (∀ q, q ≠ p → u.pgms[q] = { s.pgms[q] with dly := u.pgms[q].dly } ∧ s.pgms[q].dly.ServedIn u.pgms[q].dly) ∧
    (∀ pos, u.owners.count (.line p pos) = 0) ∧
    (∀ c : SlotId, u.slots[c] = if s.parksSlot p c then s.slots[c].freed else s.slots[c]) ∧
    (∀ c : SlotId, s.parksSlot p c → u.slotPages c = 0) ∧
    u.probe = (if s.probe.pgm = some p ∧ (s.probe.state = .armed ∨ s.probe.state = .searching) then
      { s.probe with state := .cancelled, expiry := none, cancel := some .park } else s.probe) ∧
    ∀ q : ProgId, u.reports[q] = if q = p then none else s.reports[q] := by
  intro u
  have hu : u = (parkSlots p (cancelProbe p .park (s.emptied p))).setReport p none := parkPgm_eq p s
  clear_value u
  obtain ⟨rest, own, others, pages, slotPages⟩ := emptied_moves s p
  generalize s.emptied p = t at *
  have cancels := cancelProbe_eq p .park t
  have cancelled := cancelProbe_frame p .park t
  generalize cancelProbe p .park t = x at *
  have xPgms : x.pgms = t.pgms := by rw [cancelled]
  have xOwners : x.owners = t.owners := by rw [cancelled]
  have xSlots : x.slots = s.slots := by rw [cancelled, rest]
  have xReports : x.reports = s.reports := by rw [cancelled, rest]
  have xProbe : x.probe = if t.probe.pgm = some p ∧ (t.probe.state = .armed ∨ t.probe.state = .searching) then
      { t.probe with state := .cancelled, expiry := none, cancel := some .park } else t.probe := by
    rw [cancels]
    split <;> rfl
  have tProbe : t.probe = s.probe := by rw [rest]
  rw [tProbe] at xProbe
  obtain ⟨moves, slots, lines, freed⟩ := parkSlots_moves p x
  generalize parkSlots p x = y at *
  unfold State.parksSlot at slots freed
  rw [xSlots] at slots freed
  have yPgm := moves.pgm
  have yServed := moves.served
  rw [xPgms] at yPgm yServed lines
  rw [xOwners] at lines
  have met : t.pgms[p].dly.short = false := by rw [own]; rfl
  have uPgms : u.pgms = y.pgms := by rw [hu]; rfl
  have uOwners : u.owners = y.owners := by rw [hu]; rfl
  have uSlots : u.slots = y.slots := by rw [hu]; rfl
  have yProbe : y.probe = x.probe := by rw [moves.rest]
  have yReports : y.reports = s.reports := by rw [moves.rest]; exact xReports
  refine ⟨?_, ?_, fun q other => ?_, fun pos => ?_, fun c => ?_, fun c parks => ?_, ?_, fun q => ?_⟩
  · have restX : y = { s with lanes := (latchOutput p s).lanes, pgms := y.pgms, owners := y.owners, probe := x.probe,
                              slots := y.slots, link := y.link } := by
      conv_lhs => rw [moves.rest, cancelled, rest]
    have probe : u.probe = x.probe := by rw [hu]; exact yProbe
    rw [probe, hu]
    unfold State.setReport
    conv_lhs => rw [restX]
    rw [yReports]
  · rw [uPgms, yPgm, (yServed p).unserved met, own]
  · obtain ⟨before, served⟩ := others q other
    obtain ⟨h1, h2, h3⟩ := served
    obtain ⟨k1, k2, k3⟩ := yServed q
    rw [uPgms]
    refine ⟨by rw [yPgm, before], fun e => ?_, k2.trans h2, k3.trans h3⟩
    rw [k1 (by rw [h1 e, e]), h1 e]
  · rw [uOwners, lines p pos met, pages]
  · rw [uSlots, slots]
  · unfold State.slotPages
    rw [uOwners]
    exact freed c parks
  · rw [hu, ← xProbe]
    exact yProbe
  · rw [hu, getElem_setReport, yReports]

/-! ### The notices of a park while no other programme waits (R42, R80, R174) -/

/-- R59, R78, R174: the owners whose pages return with the lines of programme `p` and the slots `gone`. -/
def returned (p : ProgId) (gone : SlotId → Bool) : PageOwner → Bool
  | .free => false
  | .line q _ => decide (q = p)
  | .slot c => gone c

/-- R59, R78, R174: the owner map once those pages have returned. -/
def freedBy (p : ProgId) (gone : SlotId → Bool) (l : List PageOwner) : List PageOwner :=
  l.map fun o => if returned p gone o = true then .free else o

theorem releasePgm_freedBy (p : ProgId) (l : List PageOwner) : releasePgm p l = freedBy p (fun _ => false) l := by
  unfold releasePgm freedBy
  refine List.map_congr_left fun o _ => if_congr ?_ rfl rfl
  cases o <;> simp [isLineOf, returned]

theorem releaseAll_freedBy (p : ProgId) (gone : SlotId → Bool) (c : SlotId) (l : List PageOwner) :
    releaseAll (.slot c) (freedBy p gone l) = freedBy p (fun d => gone d || decide (d = c)) l := by
  unfold releaseAll freedBy
  rw [List.map_map]
  refine List.map_congr_left fun o _ => ?_
  cases o with
  | free => simp [returned]
  | line q pos => by_cases h : q = p <;> simp [returned, h]
  | slot d =>
    by_cases h : gone d = true
    · simp [returned, h]
    · simp [returned, h]

/-- R174: a slot that may return its pages too. -/
theorem freedBy_slot (p : ProgId) (gone : SlotId → Bool) (c : SlotId) (also : Prop) [Decidable also] (l : List PageOwner) :
    (if also then releaseAll (.slot c) (freedBy p gone l) else freedBy p gone l) =
      freedBy p (fun d => gone d || decide (d = c ∧ also)) l := by
  by_cases h : also
  · rw [if_pos h, releaseAll_freedBy]
    simp only [h, and_true]
  · rw [if_neg h]
    simp only [h, and_false, decide_false, Bool.or_false]

theorem freedBy_free (p : ProgId) (gone : SlotId → Bool) (l : List PageOwner) :
    (freedBy p gone l).count .free = l.countP fun o => decide (o = .free) || returned p gone o := by
  unfold freedBy
  rw [count_freed, if_pos rfl]

/-- R174, R175: one slot at a park while no programme waits for pages. -/
theorem parkSlot_told (p : ProgId) (s : State) (c : SlotId) (met : ∀ q : ProgId, s.pgms[q].dly.short = false) :
    let x := s.slots[c]
    let u := parkSlot p s c
    u.owners = (if s.parksSlot p c then releaseAll (.slot c) s.owners else s.owners) ∧
    u.pgms = s.pgms ∧
    u.link = s.link.notices (if s.parksSlot p c then [Line.notice .cap
      ([.num c.val, .kw .PARKED, .num p.val, optBv x.trigAt] ++ optFlds TrigSource.flds x.trigSrc ++
        [optNat x.actualPre, .num x.post, .num x.ignored, .num (u.owners.count .free)])] else []) := by
  intro x u
  by_cases parks : s.parksSlot p c
  · have quiet : u = _ := parkSlot_quiet p s c met parks
    have owners : u.owners = releaseAll (.slot c) s.owners := by rw [quiet]
    rw [owners]
    simp only [if_pos parks]
    refine ⟨trivial, by rw [quiet], by rw [quiet]; rfl⟩
  · have quiet : u = s := if_neg parks
    rw [quiet]
    simp only [if_neg parks]
    exact ⟨trivial, trivial, rfl⟩

/-- R175: the free count once a park of programme `p` has freed the slots among `cs` that are its own. -/
def State.parkFree (s : State) (p : ProgId) (cs : List SlotId) : Nat :=
  (freedBy p (fun c => decide (c ∈ cs ∧ s.parksSlot p c)) s.owners).count .free

/-- R174, R175: the CAP notice of a slot that a park frees, behind the slots before it. -/
def State.parkLine (s : State) (p : ProgId) (c : SlotId) (cs : List SlotId) : List Line :=
  if s.parksSlot p c then [Line.notice .cap
    ([.num c.val, .kw .PARKED, .num p.val, optBv s.slots[c].trigAt] ++ optFlds TrigSource.flds s.slots[c].trigSrc ++
      [optNat s.slots[c].actualPre, .num s.slots[c].post, .num s.slots[c].ignored, .num (s.parkFree p cs)])] else []

/-- R174, R175: the slots at a park while no programme waits, from a pool to which the lines have returned. -/
theorem parkSlots_told (p : ProgId) (s x : State) (met : ∀ q : ProgId, x.pgms[q].dly.short = false)
    (slots : x.slots = s.slots) (owners : x.owners = freedBy p (fun _ => false) s.owners) :
    (parkSlots p x).link = x.link.notices (s.parkLine p 0 [0] ++ s.parkLine p 1 [0, 1]) := by
  have parks : ∀ c : SlotId, x.parksSlot p c ↔ s.parksSlot p c := by
    intro c
    unfold State.parksSlot
    rw [slots]
  rw [parkSlots_eq]
  obtain ⟨owners0, pgms0, told0⟩ := parkSlot_told p x 0 met
  obtain ⟨-, slots0, -⟩ := parkSlot_moves p x 0
  generalize parkSlot p x 0 = y at *
  have second : y.slots[(1 : SlotId)] = s.slots[(1 : SlotId)] := by
    rw [slots0, if_neg fun h => absurd h.1 (by decide), slots]
  have parks1 : y.parksSlot p 1 ↔ s.parksSlot p 1 := by
    unfold State.parksSlot
    rw [second]
  obtain ⟨owners1, -, told1⟩ := parkSlot_told p y 1 fun q => by rw [pgms0]; exact met q
  generalize parkSlot p y 1 = z at *
  have pool0 : y.owners = freedBy p (fun c => decide (c ∈ [0] ∧ s.parksSlot p c)) s.owners := by
    rw [owners0, owners, freedBy_slot]
    congr 1
    funext d
    rw [Bool.false_or, decide_eq_decide, List.mem_singleton]
    exact and_congr_right fun e => e ▸ parks 0
  have pool1 : z.owners = freedBy p (fun c => decide (c ∈ [0, 1] ∧ s.parksSlot p c)) s.owners := by
    rw [owners1, pool0, freedBy_slot]
    congr 1
    funext d
    rw [← Bool.decide_or, decide_eq_decide, List.mem_singleton, List.mem_cons, List.mem_singleton, or_and_right]
    exact or_congr_right (and_congr_right fun e => e ▸ parks1)
  have first : x.slots[(0 : SlotId)] = s.slots[(0 : SlotId)] := by rw [slots]
  rw [told1, told0]
  unfold State.parkLine State.parkFree Link.notices
  rw [List.foldl_append]
  simp only [parks, parks1, first, second, pool0, pool1]

/-- R42, R80, R130, R175: the notices of a park while no other programme waits. -/
theorem parkPgm_link (p : ProgId) (s : State) (met : ∀ q, q ≠ p → s.pgms[q].dly.short = false) :
    let first := if s.pgms[p].dly.short then s.link.notice (.notice .pages
        [.num p.val, .num 0, .num 0, .num 0, .kw .MET, .num (s.parkFree p [])]) else s.link
    let second := if s.probe.pgm = some p ∧ (s.probe.state = .armed ∨ s.probe.state = .searching) then
        (probeNotice { s with probe := (parkPgm p s).probe, link := first }).link else first
    (parkPgm p s).link = second.notices (s.parkLine p 0 [0] ++ s.parkLine p 1 [0, 1]) := by
  intro first second
  obtain ⟨-, -, -, -, -, -, probe, -⟩ := parkPgm_moves p s
  have frame := silenced_frame s p
  have pgm := silenced_pgm s p
  have own := (pgm p).trans (if_pos rfl)
  have owners : (s.silenced p).owners = s.owners := by rw [frame]
  have link : (s.silenced p).link = s.link := by rw [frame]
  have slots : (s.silenced p).slots = s.slots := by rw [frame]
  have oldProbe : (s.silenced p).probe = s.probe := by rw [frame]
  have quietly : ∀ q : ProgId, (s.silenced p).pgms[q].dly.short = false := by
    intro q
    rw [pgm]
    split
    · rfl
    next other => exact met q other
  have returns := returnPages_quiet p s.pgms[p].dly.short (s.silenced p) quietly (by rw [own]; exact PgmState.noConfusion) (by rw [own]; rfl)
  rw [owners, link] at returns
  have free : (releasePgm p s.owners).count .free = s.parkFree p [] := by
    rw [releasePgm_freedBy]
    unfold State.parkFree
    simp only [List.not_mem_nil, false_and, decide_false]
  rw [free] at returns
  have parked := parkPgm_eq p s
  have emptied : ∀ b, returnPages p s.pgms[p].dly.short (s.silenced p) = b →
      (s.emptied p).owners = b.owners ∧ (s.emptied p).link = b.link ∧ (s.emptied p).slots = b.slots ∧
      (s.emptied p).probe = b.probe ∧ ∀ q : ProgId, (s.emptied p).pgms[q].dly = b.pgms[q].dly := by
    rintro b rfl
    unfold State.emptied
    generalize returnPages p s.pgms[p].dly.short (s.silenced p) = b
    refine ⟨rfl, rfl, rfl, rfl, fun q => ?_⟩
    rw [getElem_updPgm]
    split <;> rfl
  obtain ⟨pool, told, kept, recorded, lines⟩ := emptied _ returns
  have idle : ∀ q : ProgId, (s.emptied p).pgms[q].dly.short = false := fun q => by rw [lines]; exact quietly q
  change (s.emptied p).link = first at told
  clear emptied lines returns
  generalize s.emptied p = t at *
  have cancels := cancelProbe_eq p .park t
  have cancelled := cancelProbe_frame p .park t
  generalize cancelProbe p .park t = x at *
  have xPgms : x.pgms = t.pgms := by rw [cancelled]
  have xOwners : x.owners = t.owners := by rw [cancelled]
  have xSlots : x.slots = t.slots := by rw [cancelled]
  have after := parkSlots_told p s x (by rw [xPgms]; exact idle) (xSlots.trans (kept.trans slots))
    (xOwners.trans (pool.trans (releasePgm_freedBy p _)))
  have xLink : x.link = second := by
    simp only [second]
    rw [probe]
    rw [recorded, show _ = s.probe from oldProbe] at cancels
    split
    next on =>
      rw [if_pos on] at cancels
      rw [cancels]
      unfold probeNotice
      dsimp only
      rw [← told]
      rfl
    next off =>
      rw [if_neg off] at cancels
      rw [cancels, told]
  rw [parked, ← xLink]
  exact after

/-- Settles O20. -/
theorem pgmParkStopsProgramme : Obligations.PgmParkStopsProgramme := by
  intro s tag ready ht
  refine ⟨oneNumberRefused_of ready ht (f := reqPgmPark) (fun _ => rfl) (fun p =>
      if s.pgms[p].ctl.state ≠ .running then refuse .state s else okReply [] (parkPgm p s)) (fun t => rfl)
      (fun args other => ?_), fun t p t_ => ?_⟩
  · unfold reqPgmPark
    split
    next t => exact absurd rfl (other t)
    next => rfl
  · have answer : reqPgmPark [t] s = _ := withIndex_fin t_
    refine ⟨fun idle => receive_er ready ht (answer.trans (if_pos idle)), fun running => ?_⟩
    refine ⟨_, receive_ok ready ht (answer.trans (if_neg (not_not_intro running))), ?_⟩
    obtain ⟨rest, own, others, pages, slots, slotPages, probe, reports⟩ := parkPgm_moves p s
    obtain ⟨-, apart, latched⟩ := latchOutput_eq p s
    have word := latchOutput_word p s
    have notices := parkPgm_link p s
    generalize parkPgm p s = u at *
    generalize latchOutput p s = a at *
    have lanes : u.lanes = a.lanes := by rw [rest]
    have at_k : ∀ k : LaneId, (u.okTo tag []).lanes[k] = a.lanes[k] := fun k => by rw [← lanes]; rfl
    refine ⟨own, fun k => ?_, pages, (reports p).trans (if_pos rfl), fun c holds => ?_, fun c free => ?_, fun on busy => ?_,
      fun q other => ?_, List.getLast?_concat, ?_, fun q other => ?_, ?_⟩
    · rw [at_k]
      refine ⟨?main, ?backup, ?current, fun out => apart k out, fun inside => ?_, fun w fixed => ?_, fun inside once alone v sample => ?_⟩
      case main | backup | current =>
        by_cases inside : k ∈ s.pgms[p].ctl.lanes
        · obtain ⟨r, n, f, w, formed⟩ := laneFormed_frame s k
          rw [latched k inside, formed]
        · rw [apart k inside]
      · rw [latched k inside]
      · by_cases inside : k ∈ s.pgms[p].ctl.lanes
        · rw [latched k inside, fixed]
          rfl
        · rw [apart k inside, fixed]
      · exact word v k ready.1 running inside once alone sample
    · by_cases free : s.slots[c].state = .free
      · exact .inr ⟨free, (slots c).trans (if_neg fun h => h.2 free)⟩
      · refine .inl ⟨?_, slotPages c ⟨holds, free⟩⟩
        change u.slots[c].state = .free
        rw [slots c, if_pos (show s.parksSlot p c from ⟨holds, free⟩)]
        rfl
    · exact (slots c).trans (if_neg fun h => free h.1)
    · exact probe.trans (if_pos ⟨on, busy⟩)
    · change u.pgms[q].ctl = _ ∧ u.pgms[q].mtr = _ ∧ u.pgms[q].cor = _
      rw [(others q other).1]
      exact ⟨rfl, rfl, rfl⟩
    · have framed : u = { s with lanes := u.lanes, pgms := u.pgms, owners := u.owners, probe := u.probe,
                                 reports := u.reports, slots := u.slots, link := u.link } := by
        rw [lanes]
        exact rest
      conv_lhs => rw [framed]
      rfl
    · refine ⟨(reports q).trans (if_neg other), fun met => ?_⟩
      obtain ⟨moved, served⟩ := others q other
      change u.pgms[q] = _
      rw [moved, served.unserved met]
    · intro cancels parks freeBy capLine
      refine ⟨fun no => probe.trans (if_neg no), fun met => ?_⟩
      intro first second
      have frees : ∀ cs, freeBy cs = s.parkFree p cs := by
        intro cs
        unfold State.parkFree
        rw [freedBy_free]
        refine List.countP_congr fun o _ => ?_
        cases o <;> simp [returned, parks]
      have tells : ∀ c cs, capLine c cs = s.parkLine p c cs := by
        intro c cs
        simp only [capLine, frees]
        unfold State.parkLine
        exact if_congr decide_eq_true_iff rfl rfl
      have link := notices met
      rw [tells, tells]
      simp only [second, first, frees]
      exact congrArg (fun l => l.reply (some tag) (.ok [] [])) link

end Sys2Proof.Machine
end

section
/-! PROOFS, O43 and O44. Alarm points out of service, acknowledged, and forced (08). -/

namespace Sys2Proof.Machine

/-! ### What the operations on a point leave (R144 to R151) -/

theorem contribute_frame (n : PointId) (lines : List LineId) (up : Bool) (s : State) :
    contribute n lines up s = { s with gpos := (contribute n lines up s).gpos } := by
  unfold contribute
  refine foldl_keeps (fun t => t = { s with gpos := t.gpos }) _ (fun t l h => ?_) lines s rfl
  conv_lhs => rw [h]
  rfl

/-- R150: a change of one record beside a change of its contribution. -/
theorem contribute_written (n : PointId) (lines : List LineId) (up : Bool) (s : State) (points : Vector Point 48) :
    contribute n lines up { s with points := points } =
      { s with points := points, gpos := (contribute n lines up s).gpos } := by
  have gpos : (contribute n lines up { s with points := points }).gpos = (contribute n lines up s).gpos := by
    refine Vector.ext fun i h => ?_
    have at_l := contribute_gpos n lines up { s with points := points } ⟨i, h⟩
    exact at_l.trans (contribute_gpos n lines up s ⟨i, h⟩).symm
  rw [contribute_frame, gpos]

/-- R150: the contribution of a point that stands. -/
theorem contributionMoved_contribute (s u : State) (n : PointId) (lines : List LineId) (up : Bool)
    (gpos : u.gpos = (contribute n lines up s).gpos) : contributionMoved s u n lines up :=
  contributionMoved_congr rfl gpos (contribute_moves n lines up s)

theorem almNotice_contributed (n : PointId) (reason : Kw) (byRequest : Bool) (s : State) (gpos : Vector Gpo 8) :
    almNotice n reason byRequest { s with gpos := gpos } =
      { s with gpos := gpos, link := (almNotice n reason byRequest s).link } := rfl

/-- R151: a notice that is sent where the point's notify field is ON. -/
theorem almNoticeIf_contributed (n : PointId) (reason : Kw) (byRequest : Bool) (s : State) (gpos : Vector Gpo 8) :
    almNoticeIf n reason byRequest { s with gpos := gpos } =
      { s with gpos := gpos
               link := if s.points[n].cfg.notify then (almNotice n reason byRequest s).link else s.link } := by
  unfold almNoticeIf
  split <;> rfl

/-- R150: a point's contribution changes, and then its record. -/
theorem contributePoint_updPoint (n : PointId) (up : Bool) (s : State) (f : Point → Point) :
    (contributePoint n up s).updPoint n f =
      { s.updPoint n f with gpos := (contribute n s.points[n].cfg.gpo up s).gpos } := by
  unfold contributePoint State.updPoint
  have frame := contribute_frame n s.points[n].cfg.gpo up s
  generalize contribute n s.points[n].cfg.gpo up s = t at *
  have points : t.points = s.points := by rw [frame]
  rw [points]
  conv_lhs => rw [frame]

/-- R150: a point's record changes, and then its contribution, for the lines it names before and after. -/
theorem updPoint_contributePoint (n : PointId) (up : Bool) (s : State) (f : Point → Point)
    (gpo : (f s.points[n]).cfg.gpo = s.points[n].cfg.gpo) :
    contributePoint n up (s.updPoint n f) =
      { s.updPoint n f with gpos := (contribute n s.points[n].cfg.gpo up s).gpos } := by
  unfold contributePoint
  rw [State.updPoint_self, gpo]
  exact contribute_written n s.points[n].cfg.gpo up s _

/-! ### ALM OFF and ALM ACK (R133, R146) -/

theorem isUp_iff (x : PointState) : x.isUp = true ↔ x = .active ∨ x = .clearing ∨ x = .forced := by
  cases x <;> simp [PointState.isUp]

theorem getElem_updPoint (s : State) (j n : PointId) (f : Point → Point) :
    (s.updPoint j f).points[n] = if n = j then f s.points[n] else s.points[n] := by
  unfold State.updPoint
  simp only [Fin.getElem_fin, Vector.getElem_set]
  by_cases h : n = j
  · subst h; simp
  · rw [if_neg h, if_neg fun e => h (Fin.ext e.symm)]

/-- What a change of every record on a list makes of the records. -/
theorem foldl_updPoint (f : Point → Point) (ns : List PointId) (once : ns.Nodup) (s : State) :
    let u := ns.foldl (fun s n => s.updPoint n f) s
    u = { s with points := u.points } ∧
      ∀ n : PointId, u.points[n] = if n ∈ ns then f s.points[n] else s.points[n] := by
  induction ns generalizing s with
  | nil => exact ⟨rfl, fun n => rfl⟩
  | cons j ns ih =>
    obtain ⟨fresh, once⟩ := List.nodup_cons.mp once
    obtain ⟨frame, point⟩ := ih once (s.updPoint j f)
    refine ⟨frame, fun n => (point n).trans ?_⟩
    rw [getElem_updPoint]
    by_cases e : n = j
    · subst e
      rw [if_neg fresh, if_pos rfl, if_pos List.mem_cons_self]
    · simp only [List.mem_cons, e, false_or, if_false]

theorem allPoints_nodup : allPoints.Nodup := by decide

theorem map_allPoints (v : Vector Point 48) : allPoints.map (fun n => v[n]) = v.toList := by
  have all : allPoints = List.finRange 48 := by decide
  refine List.ext_getElem (by simp [all]) fun i h k => ?_
  simp [all]

/-- R146: how many points have their latched flag set. -/
theorem latchedCount_eq (s : State) : s.latchedCount = s.points.toList.countP fun x => x.latched := by
  unfold State.latchedCount
  rw [← map_allPoints, List.countP_map]
  rfl

/-- R146: ALM ACK of one point. -/
theorem reqAlmAck_one (t : Tok) (s : State) (one : t ≠ .kw .ALL) :
    reqAlmAck [t] s = withPoint t s fun n => (.ok [] (flagIf s.points[n].state.isUp .still), s.updPoint n Point.ack) := by
  unfold reqAlmAck
  split
  next same => exact absurd (List.cons.inj same).1 one
  next u not same => cases (List.cons.inj same).1; rfl
  next not => exact absurd rfl (not t)

theorem index_not_keyword {t : Tok} {k : NameKind} {x : Int} (read : Tok.index? k t = some x) (w : Kw) : t ≠ .kw w := by
  rintro rfl
  exact nomatch read

theorem Point.ack_latched (x : Point) : x.ack.latched = (x.latched && x.state.isUp) := by
  unfold Point.ack
  cases x.state.isUp <;> simp

/-- R146: ALM ACK of all points. -/
theorem reqAlmAck_all (s : State) :
    let left := s.points.toList.countP fun x => x.latched && x.state.isUp
    ∃ u, reqAlmAck [.kw .ALL] s =
        (.ok [natFld ((s.points.toList.countP fun x => x.latched) - left), natFld left]
          (if 0 < left then [.still] else []), u) ∧
      (∀ n : PointId, u.points[n] = (s.points[n]).ack) ∧ u = { s with points := u.points } := by
  intro left
  obtain ⟨frame, point⟩ := foldl_updPoint Point.ack allPoints allPoints_nodup s
  have answer : ∀ u, allPoints.foldl (fun s n => s.updPoint n Point.ack) s = u → reqAlmAck [.kw .ALL] s =
      (.ok [natFld (s.latchedCount - u.latchedCount), natFld u.latchedCount]
        (flagIf (decide (0 < u.latchedCount)) .still), u) := by
    intro u folded
    simp only [reqAlmAck, folded]
  replace answer := answer _ rfl
  generalize allPoints.foldl (fun s n => s.updPoint n Point.ack) s = u at *
  have acked : ∀ n : PointId, u.points[n] = (s.points[n]).ack := fun n => (point n).trans (if_pos (mem_allPoints n))
  have count : u.latchedCount = left := by
    unfold State.latchedCount
    simp only [left]
    rw [← map_allPoints, List.countP_map]
    refine List.countP_congr fun n _ => ?_
    rw [acked, Point.ack_latched]
    rfl
  rw [count, latchedCount_eq, flagIf_decide] at answer
  exact ⟨u, answer, acked, frame⟩

/-- Settles O43. -/
theorem almOffAndAckActByState : Obligations.AlmOffAndAckActByState := by
  have index : ∀ {t : Tok} {s : State} {f : PointId → Answer} (n : Int), Tok.index? .A t = some n → (n < 0 ∨ 47 < n) →
      withPoint t s f = refuse .range s := fun n number out => withIndex_range number (by omega)
  refine ⟨fun s tag t ready ht => ⟨fun n number out => receive_er ready ht (index n number out), fun n t_ => ?_⟩,
    fun s tag ready ht => ⟨fun t => ⟨fun n number out => ?_, fun n t_ => ?_⟩, ?_⟩⟩
  · intro x y off
    have up := isUp_iff x.state
    have answer : reqAlmOff [t] s = _ := withIndex_fin t_
    refine ⟨fun already => receive_ok ready ht (answer.trans (if_pos already)), fun down => ?_, fun raised => ?_⟩
    · have notOff : ¬ x.state = .off := fun already => by rcases down with h | h <;> exact nomatch h.symm.trans already
      have notUp : ¬ x.state.isUp = true := fun raised => by rcases down with h | h <;> rw [h] at raised <;> cases raised
      exact receive_ok ready ht (answer.trans ((if_neg notOff).trans (if_neg notUp)))
    · have notOff : ¬ x.state = .off := fun already => by
        rcases raised with h | h | h <;> exact nomatch h.symm.trans already
      have taken := answer.trans ((if_neg notOff).trans (if_pos (up.mpr raised)))
      rw [contributePoint_updPoint, almNotice_contributed] at taken
      exact ⟨_, receive_ok ready ht taken, contributionMoved_contribute s _ n x.cfg.gpo false rfl, rfl⟩
  · exact receive_er ready ht ((reqAlmAck_one t s (index_not_keyword number _)).trans (index n number out))
  · intro x
    obtain ⟨number, read, -⟩ := Tok.fin?_index t_
    have answer : reqAlmAck [t] s = (.ok [] (flagIf x.state.isUp .still), s.updPoint n Point.ack) :=
      (reqAlmAck_one t s (index_not_keyword read _)).trans (withIndex_fin t_)
    refine ⟨fun down => ?_, fun up => ?_⟩
    · have notUp : x.state.isUp = false := by rcases down with h | h | h <;> rw [h] <;> rfl
      have acked : s.updPoint n Point.ack = { s with points := s.points.set n { x with latched := false } } := by
        unfold State.updPoint Point.ack
        rw [if_neg (by rw [notUp]; exact Bool.false_ne_true)]
      rw [notUp, acked] at answer
      exact receive_ok ready ht answer
    · have isUp : x.state.isUp = true := (isUp_iff _).mpr up
      have acked : s.updPoint n Point.ack = s := State.updPoint_eq_self (if_pos isUp)
      rw [isUp, acked] at answer
      exact receive_okFlags ready ht answer
  · intro left
    obtain ⟨u, answer, acked, frame⟩ := reqAlmAck_all s
    refine ⟨_, receive_okFlags ready ht (f := reqAlmAck [.kw .ALL]) answer, fun n => acked n, ?_⟩
    conv_lhs => rw [frame]
    rfl

/-! ### ALM FORCE (R144, R145) -/

/-- Settles O44. -/
theorem almForceHoldsPoint : Obligations.AlmForceHoldsPoint := by
  intro s tag t ready ht on off
  refine ⟨fun n number out => ?_, fun n t_ => ?_⟩
  · have far : n < 0 ∨ ((48 : Nat) : Int) ≤ n := by omega
    exact ⟨receive_er ready ht (f := reqAlmForceOn [t]) (withIndex_range number far),
      receive_er ready ht (f := reqAlmForceOff [t]) (withIndex_range number far)⟩
  · intro x y forced freed
    have onAnswer : reqAlmForceOn [t] s = _ := withIndex_fin t_
    have offAnswer : reqAlmForceOff [t] s = _ := withIndex_fin t_
    refine ⟨fun out => receive_er ready ht (onAnswer.trans ?_), fun already => receive_ok ready ht (onAnswer.trans ?_),
      fun inService free => ?_, fun other => receive_er ready ht (offAnswer.trans (if_neg other)), fun held => ?_⟩
    · simp only [show s.points[n].state = .off from out]
    · simp only [show s.points[n].state = .forced from already]
    · have enters : contributePoint n true (s.updPoint n fun x => x.raiseTo .forced) =
          { forced with gpos := (contribute n x.cfg.gpo true s).gpos } := updPoint_contributePoint n true s _ rfl
      have taken : reqAlmForceOn [t] s = okReply [] (runAction n (almNoticeIf n .FORCED true
          (contributePoint n true (s.updPoint n fun x => x.raiseTo .forced)))) := by
        rw [onAnswer]
        cases state : s.points[n].state with
        | off => exact absurd state inService
        | forced => exact absurd state free
        | clear | raising | active | clearing => rfl
      rw [enters, almNoticeIf_contributed] at taken
      refine ⟨_, receive_ok ready ht taken, contributionMoved_contribute s _ n x.cfg.gpo true rfl, ?_⟩
      have notify : forced.points[n].cfg.notify = x.cfg.notify := by simp [forced, y]
      rw [notify]
    · have leaves : contributePoint n false (s.updPoint n fun x => { x with state := .clear, run := 0, clipReading := none }) =
          { freed with gpos := (contribute n x.cfg.gpo false s).gpos } := updPoint_contributePoint n false s _ rfl
      have taken := offAnswer.trans (if_pos held)
      rw [leaves, almNoticeIf_contributed] at taken
      refine ⟨_, receive_ok ready ht taken, contributionMoved_contribute s _ n x.cfg.gpo false rfl, ?_⟩
      have notify : freed.points[n].cfg.notify = x.cfg.notify := by simp [freed]
      rw [notify]

end Sys2Proof.Machine
end

section
/-! PROOFS, O42. ALM SET: its fields keyword by keyword, and the record it writes (R132). -/

namespace Sys2Proof.Machine

/-! ### Words that a field reads -/

theorem Tok.measure?_some {x : Tok} {m : Measure} (h : Tok.measure? x = some m) : x = .kw m.kw := by
  unfold Tok.measure? at h
  split at h <;> cases h <;> rfl

theorem Tok.sense?_some {x : Tok} {y : Sense} (h : Tok.sense? x = some y) : x = .kw y.kw := by
  unfold Tok.sense? at h
  split at h <;> cases h <;> rfl

theorem Tok.onOff?_some {x : Tok} {b : Bool} (h : Tok.onOff? x = some b) : x = .kw .ON ∨ x = .kw .OFF := by
  unfold Tok.onOff? at h
  split at h
  · exact .inl rfl
  · exact .inr rfl
  · cases h

theorem asFin_val {n : Nat} (i : Fin n) : asFin n i.val = some i := by
  unfold asFin
  rw [dif_pos ⟨by omega, by simp⟩]
  simp

theorem asFin_some {n : Nat} {x : Int} {i : Fin n} (h : asFin n x = some i) : x = i.val := by
  unfold asFin at h
  split at h
  next inside => cases h; simp [inside.1]
  next => cases h

theorem Tok.subject?_some {x : Tok} {y : Subject} (h : Tok.subject? x = some y) :
    x = .kw .NONE ∨ (∃ p : ProgId, x = .name .P p.val) ∨ ∃ i : PortId, x = .name .IN i.val := by
  unfold Tok.subject? at h
  split at h
  next => exact .inl rfl
  next n =>
    obtain ⟨p, named, -⟩ := Option.map_eq_some_iff.mp h
    exact .inr (.inl ⟨p, by rw [asFin_some named]⟩)
  next n =>
    obtain ⟨i, named, -⟩ := Option.map_eq_some_iff.mp h
    exact .inr (.inr ⟨i, by rw [asFin_some named]⟩)
  next => cases h

/-- R132: a field with a value of one word. -/
theorem fields_one (d : PointDraft) (k : Kw) (t : Tok) (rest : List Tok) (other : k ≠ .ACTION) :
    d.fields (.kw k :: t :: rest) = match d.field k t with
      | some d1 => d1.fields rest
      | none => none := by
  have no : ∀ {A : Prop}, k = .ACTION → A := fun e => absurd e other
  exact PointDraft.fields.eq_6 d k t rest (fun e => no e) (fun e => no e) (fun e => no e) (fun _ _ e => no e)

theorem fields_none (d : PointDraft) (k : Kw) (t : Tok) (rest : List Tok) (other : k ≠ .ACTION) (unread : d.field k t = none) :
    d.fields (.kw k :: t :: rest) = none := by
  rw [fields_one d k t rest other, unread]

/-- R132: a keyword without a value. -/
theorem fields_alone (d : PointDraft) (k : Kw) : d.fields [.kw k] = none := by
  refine PointDraft.fields.eq_7 d _ ?_ ?_ ?_ ?_ ?_ ?_ <;> simp

/-- R132: the keywords of ALM SET. -/
theorem field_keyword {d d1 : PointDraft} {k : Kw} {t : Tok} (h : d.field k t = some d1) :
    k ∈ [Kw.MEASURE, .SUBJECT, .SENSE, .NOTIFY, .GPO, .THRESHOLD, .HYST, .STRIDE, .PHASE, .RAISE, .CLEAR] := by
  unfold PointDraft.field at h
  split at h
  case h_12 => cases h
  all_goals decide

theorem fields_one_read {d d1 : PointDraft} {k : Kw} {t : Tok} {rest : List Tok} (other : k ≠ .ACTION)
    (read : d.field k t = some d1) : d.fields (.kw k :: t :: rest) = d1.fields rest := by
  rw [fields_one d k t rest other, read]

theorem tok_name_asFin {n : Nat} {x : Int} (out : x < 0 ∨ ((n - 1 : Nat) : Int) < x) (some_ : 0 < n) : asFin n x = none :=
  asFin_eq_none.mpr (by omega)

/-- R132: the fields of ALM SET, keyword by keyword. -/
theorem almSet_fields (d : PointDraft) (x : Tok) (rest : List Tok) :
    let set := fun (c : PointCfg) => PointDraft.fields { d with cfg := c } rest
    let c := d.cfg
    d.fields [] = some d ∧
    (∀ m : Measure, d.fields (.kw .MEASURE :: .kw m.kw :: rest) = set { c with measure := some m }) ∧
    ((∀ m : Measure, x ≠ .kw m.kw) → d.fields (.kw .MEASURE :: x :: rest) = none) ∧
    d.fields (.kw .SUBJECT :: .kw .NONE :: rest) = set { c with subject := .nothing } ∧
    (∀ p : ProgId, d.fields (.kw .SUBJECT :: .name .P p.val :: rest) = set { c with subject := .pgm p }) ∧
    (∀ i : PortId, d.fields (.kw .SUBJECT :: .name .IN i.val :: rest) = set { c with subject := .port i }) ∧
    (x ≠ .kw .NONE → (∀ p : ProgId, x ≠ .name .P p.val) → (∀ i : PortId, x ≠ .name .IN i.val) →
      d.fields (.kw .SUBJECT :: x :: rest) = none) ∧
    (∀ y : Sense, d.fields (.kw .SENSE :: .kw y.kw :: rest) = set { c with sense := y }) ∧
    (x ≠ .kw .ABOVE → x ≠ .kw .BELOW → d.fields (.kw .SENSE :: x :: rest) = none) ∧
    d.fields (.kw .NOTIFY :: .kw .ON :: rest) = set { c with notify := true } ∧
    d.fields (.kw .NOTIFY :: .kw .OFF :: rest) = set { c with notify := false } ∧
    (x ≠ .kw .ON → x ≠ .kw .OFF → d.fields (.kw .NOTIFY :: x :: rest) = none) := by
  intro set c
  refine ⟨rfl, fun m => ?_, fun unread => ?_, rfl, fun p => ?_, fun i => ?_, fun n1 n2 n3 => ?_, fun y => ?_, fun n1 n2 => ?_,
    rfl, rfl, fun n1 n2 => ?_⟩
  · cases m <;> rfl
  · refine fields_none d _ x rest (by decide) ?_
    cases h : Tok.measure? x with
    | none => simp [PointDraft.field, h]
    | some m => exact absurd (Tok.measure?_some h) (unread m)
  · refine fields_one_read (by decide) ?_
    simp [PointDraft.field, Tok.subject?, asFin_val, c]
  · refine fields_one_read (by decide) ?_
    simp [PointDraft.field, Tok.subject?, asFin_val, c]
  · refine fields_none d _ x rest (by decide) ?_
    cases h : Tok.subject? x with
    | none => simp [PointDraft.field, h]
    | some y =>
      obtain h | ⟨p, h⟩ | ⟨i, h⟩ := Tok.subject?_some h
      · exact absurd h n1
      · exact absurd h (n2 p)
      · exact absurd h (n3 i)
  · cases y <;> rfl
  · refine fields_none d _ x rest (by decide) ?_
    cases h : Tok.sense? x with
    | none => simp [PointDraft.field, h]
    | some y =>
      have word := Tok.sense?_some h
      cases y with
      | above => exact absurd word n1
      | below => exact absurd word n2
  · refine fields_none d _ x rest (by decide) ?_
    cases h : Tok.onOff? x with
    | none => simp [PointDraft.field, h]
    | some b => exact (Tok.onOff?_some h).elim (fun e => absurd e n1) fun e => absurd e n2

/-- R132: the numbers, the outputs and the action of ALM SET. -/
theorem almSet_numbers (d : PointDraft) (x : Tok) (rest : List Tok) :
    let set := fun (c : PointCfg) => PointDraft.fields { d with cfg := c } rest
    let c := d.cfg
    (∀ ls, (Tok.items? .Q x).bind (asFins 8) = some ls →
      d.fields (.kw .GPO :: x :: rest) = set { c with gpo := allLines.filter (· ∈ ls) }) ∧
    ((Tok.items? .Q x).bind (asFins 8) = none → d.fields (.kw .GPO :: x :: rest) = none) ∧
    (∀ n, Tok.signed? x = some n →
      d.fields (.kw .THRESHOLD :: x :: rest) = PointDraft.fields { d with threshold := n } rest ∧
      d.fields (.kw .HYST :: x :: rest) = PointDraft.fields { d with hyst := n } rest ∧
      d.fields (.kw .STRIDE :: x :: rest) = PointDraft.fields { d with stride := n } rest ∧
      d.fields (.kw .PHASE :: x :: rest) = PointDraft.fields { d with phase := n } rest ∧
      d.fields (.kw .RAISE :: x :: rest) = PointDraft.fields { d with raise := n } rest ∧
      d.fields (.kw .CLEAR :: x :: rest) = PointDraft.fields { d with clear := n } rest) ∧
    (∀ k ∈ [Kw.THRESHOLD, .HYST, .STRIDE, .PHASE, .RAISE, .CLEAR], Tok.signed? x = none →
      d.fields (.kw k :: x :: rest) = none) ∧
    d.fields (.kw .ACTION :: .kw .NONE :: rest) = set { c with action := .nothing } ∧
    d.fields (.kw .ACTION :: .kw .CHANGEOVER :: rest) = set { c with action := .changeover } ∧
    d.fields (.kw .ACTION :: .kw .FREEZE :: rest) = set { c with action := .freeze } ∧
    (∀ a, Tok.fin? .C 2 x = some a →
      d.fields (.kw .ACTION :: .kw .CAPTURE :: x :: rest) = set { c with action := .capture a }) ∧
    (Tok.fin? .C 2 x = none → d.fields (.kw .ACTION :: .kw .CAPTURE :: x :: rest) = none) ∧
    (x ∉ [Kw.NONE, .CHANGEOVER, .FREEZE, .CAPTURE].map Tok.kw → d.fields (.kw .ACTION :: x :: rest) = none) ∧
    d.fields [.kw .ACTION, .kw .CAPTURE] = none ∧
    (∀ k, d.fields [.kw k] = none) ∧
    (x ∉ [Kw.MEASURE, .SUBJECT, .SENSE, .NOTIFY, .GPO, .THRESHOLD, .HYST, .STRIDE, .PHASE, .RAISE, .CLEAR,
        .ACTION].map Tok.kw → d.fields (x :: rest) = none) := by
  intro set c
  refine ⟨fun ls read => ?_, fun unread => ?_, fun n read => ?_, fun k named unread => ?_, rfl, rfl, rfl, fun a read => ?_,
    fun unread => ?_, fun other => ?_, rfl, fun k => ?_, fun other => ?_⟩
  · refine fields_one_read (by decide) ?_
    simp [PointDraft.field, read, asSet8, c]
  · exact fields_none d _ x rest (by decide) (by simp [PointDraft.field, unread])
  · refine ⟨?_, ?_, ?_, ?_, ?_, ?_⟩ <;> exact fields_one_read (by decide) (by simp [PointDraft.field, read])
  · have apart : ∀ k' ∈ [Kw.THRESHOLD, .HYST, .STRIDE, .PHASE, .RAISE, .CLEAR], k' ≠ .ACTION ∧
        d.field k' x = (Tok.signed? x).bind (fun _ => d.field k' x) := by
      simp [PointDraft.field, unread]
    obtain ⟨other, field⟩ := apart k named
    exact fields_none d k x rest other (by rw [field, unread]; rfl)
  · rw [PointDraft.fields, read]
    rfl
  · rw [PointDraft.fields, unread]
  · simp only [List.map_cons, List.map_nil, List.mem_cons, List.not_mem_nil, or_false, not_or] at other
    obtain ⟨n1, n2, n3, n4⟩ := other
    exact PointDraft.fields.eq_6 d _ x rest (fun _ e => n1 e) (fun _ e => n2 e) (fun _ e => n3 e) (fun _ _ _ e _ => n4 e)
  · exact fields_alone d k
  · cases x with
    | kw k =>
      have unlisted : k ∉ [Kw.MEASURE, .SUBJECT, .SENSE, .NOTIFY, .GPO, .THRESHOLD, .HYST, .STRIDE, .PHASE, .RAISE, .CLEAR,
          .ACTION] := fun yes => other (List.mem_map_of_mem yes)
      have notAction : k ≠ .ACTION := by
        rintro rfl
        exact unlisted (by decide)
      cases rest with
      | nil => exact fields_alone d k
      | cons t rest =>
        cases h : d.field k t with
        | none => exact fields_none d k t rest notAction h
        | some d1 =>
          have listed := field_keyword h
          exact absurd (List.mem_append_left [Kw.ACTION] listed) unlisted
    | _ => rfl

/-- R132: the numbers of ALM SET that are out of range, word by word. -/
theorem almOutside_words (x : Tok) (rest : List Tok) :
    almOutside [] = false ∧
    (∀ k, almOutside [.kw k] = false) ∧
    (almOutside (.kw .SUBJECT :: x :: rest) = true ↔
      (∃ n, x = .name .P n ∧ (n < 0 ∨ 7 < n)) ∨ (∃ n, x = .name .IN n ∧ (n < 0 ∨ 5 < n)) ∨ almOutside rest = true) ∧
    (almOutside (.kw .GPO :: x :: rest) = true ↔
      (∃ ns, Tok.items? .Q x = some ns ∧ ∃ n ∈ ns, n < 0 ∨ 7 < n) ∨ almOutside rest = true) ∧
    (almOutside (.kw .CAPTURE :: x :: rest) = true ↔ beyond .C 2 x ∨ almOutside rest = true) ∧
    (x ∉ [Kw.SUBJECT, .GPO, .CAPTURE].map Tok.kw → almOutside (x :: rest) = almOutside rest) := by
  refine ⟨rfl, fun k => ?_, ?_, ?_, ?_, fun other => ?_⟩
  · exact almOutside.eq_6 _ _ (by simp) (by simp) (by simp)
  · by_cases pgm : ∃ n, x = .name .P n
    · obtain ⟨n, rfl⟩ := pgm
      rw [almOutside.eq_1, Bool.or_eq_true, Option.isNone_iff_eq_none, asFin_eq_none]
      simp only [Tok.name.injEq, true_and, exists_eq_left', reduceCtorEq, false_and, exists_false, false_or]
      exact or_congr_left (by omega)
    · by_cases port : ∃ n, x = .name .IN n
      · obtain ⟨n, rfl⟩ := port
        rw [almOutside.eq_2, Bool.or_eq_true, Option.isNone_iff_eq_none, asFin_eq_none]
        simp only [Tok.name.injEq, true_and, exists_eq_left', reduceCtorEq, false_and, exists_false, false_or]
        exact or_congr_left (by omega)
      · rw [almOutside.eq_3 x rest (fun n e => pgm ⟨n, e⟩) (fun n e => port ⟨n, e⟩), Bool.false_or]
        exact ⟨fun far => .inr (.inr far), fun far => far.elim (fun ⟨n, e, _⟩ => absurd ⟨n, e⟩ pgm) fun far =>
          far.elim (fun ⟨n, e, _⟩ => absurd ⟨n, e⟩ port) id⟩
  · rw [almOutside, Bool.or_eq_true, itemsOutside_iff]
    refine or_congr_left ⟨fun ⟨t, ns, same, items, n, inside, out⟩ => ?_, fun ⟨ns, items, n, inside, out⟩ => ?_⟩
    · cases Option.some.inj same
      exact ⟨ns, items, n, inside, by omega⟩
    · exact ⟨x, ns, rfl, items, n, inside, by omega⟩
  · rw [almOutside, Bool.or_eq_true, outside_iff_beyond]
  · simp only [List.map_cons, List.map_nil, List.mem_cons, List.not_mem_nil, or_false, not_or] at other
    obtain ⟨n1, n2, n3⟩ := other
    exact almOutside.eq_6 x rest (fun _ _ e _ => n1 e) (fun _ _ e _ => n2 e) (fun _ _ e _ => n3 e)

/-! ### The record written -/

theorem pointShown_eq (c : PointCfg) : pointShown c = pointCfgFlds c := by
  have subject : (match c.subject with
      | .nothing => .kw .NONE
      | .pgm p => .name .P p.val
      | .port i => .name .IN i.val : Fld) = c.subject.fld := by
    cases c.subject <;> rfl
  have action : (match c.action with
      | .nothing => [.kw .NONE]
      | .changeover => [.kw .CHANGEOVER]
      | .capture c => [.kw .CAPTURE, .num c.val]
      | .freeze => [.kw .FREEZE] : List Fld) = actionFlds c.action := by
    cases c.action <;> rfl
  unfold pointShown pointCfgFlds boolFld
  rw [← subject, ← action]
  rfl

/-- R132, R134: a sound record. -/
theorem isSound_iff (c : PointCfg) :
    c.isSound = true ↔
      (∃ m, c.measure = some m ∧
        ((m = .ref ∨ m = .watch) ∧ c.subject = .nothing ∨ m = .portlock ∧ (∃ i, c.subject = .port i) ∨
          m ∈ [Measure.silent, .loud, .drift, .clip, .phase, .pgmlock, .short, .gainlim] ∧ ∃ p, c.subject = .pgm p)) ∧
      (c.action = .changeover ∨ c.action = .freeze → ∃ p, c.subject = .pgm p) := by
  unfold PointCfg.isSound
  rw [Bool.and_eq_true]
  have pgm : c.subject.kind = .pgm ↔ ∃ p, c.subject = .pgm p := by
    cases c.subject <;> simp [Subject.kind]
  refine and_congr ?_ ?_
  · cases c.measure with
    | none => simp
    | some m =>
      cases m <;> cases c.subject <;> simp [Measure.kind, Subject.kind]
  · cases c.action <;> simp [pgm]

/-- R132: a record that ALM SET writes. -/
theorem writePoint_eq (n : PointId) (c : PointCfg) (s : State) :
    let y := (s.points[n]).rewrite c
    let written := { s with points := s.points.set n y }
    (¬ s.points[n].state.isUp = true → writePoint n c s = written) ∧
    (s.points[n].state.isUp = true → writePoint n c s =
      { written with gpos := (contribute n s.points[n].cfg.gpo false s).gpos
                     link := (almNotice n .EDITED true written).link }) := by
  intro y written
  refine ⟨fun down => if_neg down, fun up => (if_pos up).trans ?_⟩
  rw [contributePoint_updPoint, almNotice_contributed]
  rfl

theorem clampNote_iff (lo hi x : Int) : (clampNote lo hi x).2 = true ↔ (clampNote lo hi x).1 ≠ x := decide_eq_true_iff

/-- R132, R134: the limits of the threshold of a measure. -/
theorem measureLimits_eq (m : Option Measure) :
    (match m with
      | some .silent | some .loud => some (-12000, 1000)
      | some .drift => some (0, 12000)
      | some .clip => some (0, 65535)
      | some .phase => some (-100, 100)
      | _ => none : Option (Int × Int)) = m.bind Measure.range := by
  cases m with
  | none => rfl
  | some m => cases m <;> rfl

/-- Settles O42. -/
theorem almSetWritesPoint : Obligations.AlmSetWritesPoint := by
  refine ⟨fun d x rest => ?_, fun s tag ready ht => ⟨receive_er ready ht rfl, fun t args => ?_⟩⟩
  · intro set c
    obtain ⟨h1, h2, h3, h4, h5, h6, h7, h8, h9, h10, h11, h12⟩ := almSet_fields d x rest
    obtain ⟨k1, k2, k3, k4, k5, k6, k7, k8, k9, k10, k11, k12, k13⟩ := almSet_numbers d x rest
    exact ⟨h1, h2, h3, h4, h5, h6, h7, h8, h9, h10, h11, h12, k1, k2, k3, k4, k5, k6, k7, k8, k9, k10, k11, k12, k13,
      almOutside_words x rest⟩
  · intro go
    refine ⟨fun out => receive_er ready ht (withArgs_range ?_), fun unread inside => receive_er ready ht (withArgs_unread ?_ ?_),
      fun n t_ inside => ?_⟩
    · exact Bool.or_eq_true_iff.mpr (out.imp_left outside_iff_beyond.mpr)
    · refine Bool.or_eq_false_iff.mpr ⟨?_, inside⟩
      unfold outside
      simp only [List.getElem?_cons_zero, Option.bind_some, unread]
    · simp only [readAlm, Tok.fin?_eq_none_of_unread unread]
    · intro x held
      have within : (outside .A 48 (t :: args)[0]? || almOutside ((t :: args).drop 1)) = false :=
        Bool.or_eq_false_iff.mpr ⟨outside_fin t_, inside⟩
      have reads : readAlm (t :: args) s = match held.fields args with
          | some d => if d.cfg.isSound then some (n, d.write) else none
          | none => none := by
        simp only [readAlm, t_]
        rfl
      refine ⟨fun unread => receive_er ready ht (withArgs_unread within (by rw [reads, unread])), fun d fields => ?_⟩
      rw [fields] at reads
      dsimp only at reads
      intro pgm sound limits S P N M c0 moved
      have isSound : d.cfg.isSound = true ↔ sound := isSound_iff d.cfg
      refine ⟨fun unsound => receive_er ready ht (withArgs_unread within ?_), fun c clamped whole written => ?_⟩
      · rw [reads, if_neg fun yes => unsound (isSound.mp yes)]
      · rw [if_pos (isSound.mpr whole)] at reads
        have writes : d.write = (c, clamped) := by
          have range : limits = d.cfg.measure.bind Measure.range := measureLimits_eq _
          have movedIff : ((clampNote 1 16 d.stride).2 || (clampNote 0 ((clampNote 1 16 d.stride).1 - 1) d.phase).2 ||
              (clampNote 1 50 d.raise).2 || (clampNote 1 50 d.clear).2) = true ↔ moved := by
            simp only [clampNote_iff, Bool.or_eq_true, or_assoc]
            rfl
          unfold PointDraft.write
          dsimp only
          rw [← range]
          obtain ⟨lo, hi, some_, rfl, flag⟩ | ⟨none_, rfl, flag⟩ := written
          · rw [some_]
            refine Prod.ext rfl (Bool.eq_iff_iff.mpr (Iff.trans ?_ flag.symm))
            rw [Bool.or_eq_true, Bool.or_eq_true, movedIff, or_assoc, clampNote_iff, clampNote_iff]
            rfl
          · rw [none_]
            exact Prod.ext rfl (Bool.eq_iff_iff.mpr (movedIff.trans flag.symm))
        rw [writes] at reads
        have answer := withArgs_read (s := s) (g := fun x => okClamped (pointCfgFlds x.2.1) x.2.2 (writePoint x.1 x.2.1 s))
          within reads
        rw [← pointShown_eq] at answer
        obtain ⟨plain, raised⟩ := writePoint_eq n c s
        have up := isUp_iff x.state
        by_cases isUp : x.state.isUp = true
        · rw [raised isUp] at answer
          refine ⟨_, _, receive_okFlags ready ht answer, rfl, rfl, List.getLast?_concat, fun not => absurd (up.mp isUp) not,
            fun _ => ⟨contributionMoved_contribute s _ n x.cfg.gpo false rfl, rfl⟩⟩
        · rw [plain isUp] at answer
          exact ⟨_, _, receive_okFlags ready ht answer, rfl, rfl, List.getLast?_concat, fun _ => ⟨rfl, rfl⟩,
            fun yes => absurd (up.mpr yes) isUp⟩

end Sys2Proof.Machine
end

section
/-! PROOFS, O45. The alarm scan: one visit, the points in order, and the revert check (R55, R137 to R151). -/

namespace Sys2Proof.Machine

/-! ### What a change that is taken keeps of a controller record -/

theorem changeTaken_keeps (here : Bool) (c : Ctl) : ∃ out pos late inflight pending, changeTaken here c =
    { c with out := out, fadePos := pos, begunLate := late, inflight := inflight, pending := pending } := by
  unfold changeTaken
  extract_lets begun first all x
  split
  · split
    · exact ⟨_, _, _, _, _, rfl⟩
    · split <;> exact ⟨_, _, _, _, _, rfl⟩
  · exact ⟨_, _, _, _, _, rfl⟩

/-! ### The action of a point (R147 to R149) -/

/-- R147: a programme that a change to BACKUP cannot reach. -/
def State.unbacked (s : State) (p : ProgId) : Bool :=
  decide (s.pgms[p].ctl.state ≠ .running ∨ ∃ k ∈ s.pgms[p].ctl.lanes, s.lanes[k].backup = none)

/-- R147: a change to BACKUP by the action of point `n`. -/
def Ctl.alarmed (here : Bool) (n : PointId) (c : Ctl) : Ctl :=
  changeTaken here { c with pending := { c.pending with source := some (.backup, .alarm n) } }

/-- R148, R169: a slot that the action of point `n` strikes at house sample `h`. -/
def Slot.struck (h : HouseCount) (n : PointId) (x : Slot) : Slot :=
  if x.state = .armed ∧ .alarm n ∈ x.trigs then
    { x with state := .post, trigAt := some h, trigSrc := some (.alarm n), actualPre := some (min x.pre x.recorded) }
  else { x with ignored := min 65535 (x.ignored + 1) }

/-- R147: the action of a point is a change that is counted as skipped. -/
@[reducible] def State.skipsAction (s : State) (x : Point) : Prop :=
  x.cfg.action = .changeover ∧ ∃ p, x.cfg.subject = .pgm p ∧ s.unbacked p = true

/-- R147: the action of a point is a change of programme `p` that is taken. -/
def State.changes (s : State) (x : Point) (p : ProgId) : Prop :=
  x.cfg.action = .changeover ∧ x.cfg.subject = .pgm p ∧ s.unbacked p = false

/-- What an action leaves alone, and what it moves. -/
structure Acted (n : PointId) (s u : State) : Prop where
  rest : u = { s with points := u.points, slots := u.slots, pgms := u.pgms }
  point : ∀ m : PointId, m ≠ n → u.points[m] = s.points[m]
  own : ∃ k, u.points[n] = { s.points[n] with skips := k } ∧
    (s.skipsAction s.points[n] → k = min 65535 (s.points[n].skips + 1)) ∧
    (¬ s.skipsAction s.points[n] → k = s.points[n].skips)
  slotHit : ∀ c : SlotId, s.points[n].cfg.action = .capture c → u.slots[c] = s.slots[c].struck s.hc n
  slotLeft : ∀ c : SlotId, s.points[n].cfg.action ≠ .capture c → u.slots[c] = s.slots[c]
  pgmHit : ∀ p : ProgId, s.changes s.points[n] p →
    u.pgms[p] = { s.pgms[p] with ctl := s.pgms[p].ctl.alarmed s.boundaryHere n }
  pgmLeft : ∀ p : ProgId, ¬ s.changes s.points[n] p → u.pgms[p] = s.pgms[p]

theorem Acted.nothing (n : PointId) (s : State) (noSkip : ¬ s.skipsAction s.points[n])
    (noSlot : ∀ c, s.points[n].cfg.action ≠ .capture c) (noChange : ∀ p, ¬ s.changes s.points[n] p) : Acted n s s :=
  ⟨rfl, fun _ _ => rfl, ⟨_, rfl, fun yes => absurd yes noSkip, fun _ => rfl⟩, fun c yes => absurd yes (noSlot c), fun _ _ => rfl,
    fun p yes => absurd yes (noChange p), fun _ _ => rfl⟩

/-- R147: a CHANGEOVER action, in terms of whether its programme can be reached. -/
theorem runChangeover_eq (n : PointId) (s : State) (p : ProgId) (subject : s.points[n].cfg.subject = .pgm p) :
    runChangeover n s = if s.unbacked p then skipAction n s else s.updCtl p (Ctl.alarmed s.boundaryHere n) := by
  unfold runChangeover
  rw [subject]
  dsimp only
  have refused := sourceRefused_iff s p .backup
  by_cases running : s.pgms[p].ctl.state = .running
  · rw [if_neg (not_not_intro running)]
    by_cases bare : ∃ k ∈ s.pgms[p].ctl.lanes, s.lanes[k].backup = none
    · rw [show s.unbacked p = true from decide_eq_true (.inr bare), if_pos rfl]
      unfold requestSource
      rw [if_pos (refused.mpr (.inr ⟨rfl, bare⟩))]
      rfl
    · have reach : s.unbacked p = false := decide_eq_false fun h => h.elim (fun no => no running) bare
      have taken : ¬ s.sourceRefused p .backup = true := fun yes =>
        (refused.mp yes).elim (fun h => nomatch running.symm.trans h) fun h => bare h.2
      rw [reach]
      unfold requestSource
      rw [if_neg taken, running]
      simp only [Bool.false_eq_true, if_false, Option.getD_some, Ctl.settle_eq]
      rfl
  · rw [if_pos running, show s.unbacked p = true from decide_eq_true (.inl running), if_pos rfl]

/-- R147 to R149: the action of a point. -/
theorem runAction_acted (n : PointId) (s : State) : Acted n s (runAction n s) := by
  have ran : ∀ a, s.points[n].cfg.action = a → runAction n s = match a with
      | .changeover => runChangeover n s
      | .capture c => trigger c (.alarm n) s
      | .freeze | .nothing => s := by
    rintro a rfl
    rfl
  cases action : s.points[n].cfg.action with
  | nothing | freeze =>
    rw [ran _ action]
    refine .nothing n s (fun h => ?_) (fun c h => ?_) (fun p h => ?_)
    · exact nomatch action.symm.trans h.1
    · exact nomatch action.symm.trans h
    · exact nomatch action.symm.trans h.1
  | capture c =>
    rw [ran _ action]
    have noSkip : ¬ s.skipsAction s.points[n] := fun h => nomatch action.symm.trans h.1
    have hit : ∀ x : Slot, (if x.takes (.alarm n) then x.take s.hc (.alarm n) else
        { x with ignored := countUp Config.count16 x.ignored }) = x.struck s.hc n := by
      intro x
      unfold Slot.takes Slot.struck
      simp only [decide_eq_true_eq]
      rfl
    refine ⟨rfl, fun _ _ => rfl, ⟨_, rfl, fun yes => absurd yes noSkip, fun _ => rfl⟩, fun d same => ?_, fun d other => ?_,
      fun p h => ?_, fun _ _ => rfl⟩
    · cases action.symm.trans same
      exact (getElem_updSlot s c c _).trans ((if_pos rfl).trans (hit _))
    · exact (getElem_updSlot s c d _).trans (if_neg fun e : c = d => other (e ▸ action))
    · exact nomatch action.symm.trans h.1
  | changeover =>
    rw [ran _ action]
    have noSlot : ∀ c, s.points[n].cfg.action ≠ .capture c := fun c h => nomatch action.symm.trans h
    by_cases pgm : ∃ p, s.points[n].cfg.subject = .pgm p
    · obtain ⟨p, subject⟩ := pgm
      dsimp only
      rw [runChangeover_eq n s p subject]
      by_cases bare : s.unbacked p = true
      · rw [if_pos bare]
        have skips : s.skipsAction s.points[n] := ⟨action, p, subject, bare⟩
        refine ⟨rfl, fun m other => ?_, ⟨min 65535 (s.points[n].skips + 1), ?_, fun _ => rfl, fun no => absurd skips no⟩,
          fun c yes => absurd yes (noSlot c), fun _ _ => rfl, fun q h => ?_, fun _ _ => rfl⟩
        · exact (getElem_updPoint s n m _).trans (if_neg other)
        · exact (getElem_updPoint s n n _).trans (if_pos rfl)
        · obtain ⟨-, named, reach⟩ := h
          cases subject.symm.trans named
          exact nomatch bare.symm.trans reach
      · rw [if_neg bare]
        have noSkip : ¬ s.skipsAction s.points[n] := by
          rintro ⟨-, q, named, yes⟩
          cases subject.symm.trans named
          exact bare yes
        refine ⟨rfl, fun _ _ => rfl, ⟨_, rfl, fun yes => absurd yes noSkip, fun _ => rfl⟩, fun c yes => absurd yes (noSlot c),
          fun _ _ => rfl, fun q h => ?_, fun q h => ?_⟩
        · cases subject.symm.trans h.2.1
          unfold State.updCtl
          rw [getElem_updPgm, if_pos rfl]
        · unfold State.updCtl
          rw [getElem_updPgm, if_neg]
          rintro rfl
          exact h ⟨action, subject, Bool.eq_false_iff.mpr bare⟩
    · have same : runChangeover n s = s := by
        unfold runChangeover
        split
        next p subject => exact absurd ⟨p, subject⟩ pgm
        next => rfl
      dsimp only
      rw [same]
      exact .nothing n s (fun h => pgm ⟨_, h.2.choose_spec.1⟩) noSlot fun p h => pgm ⟨p, h.2.1⟩

/-! ### One evaluation (R140 to R143) -/

/-- R141: the run counter of a raising evaluation. -/
def Point.upRun (x : Point) : Nat := if x.state = .raising then x.run + 1 else 1

/-- R143: the run counter of a clearing evaluation. -/
def Point.downRun (x : Point) : Nat := if x.state = .clearing then x.run + 1 else 1

/-- R141, R142: an evaluation of value `v` makes a point ACTIVE. -/
def Point.rises (x : Point) (v : Option MeasVal) : Bool :=
  decide (x.state = .clear ∨ x.state = .raising) && x.cfg.raises v && decide (x.cfg.raise ≤ x.upRun)

/-- R143: an evaluation of value `v` returns a point to CLEAR. -/
def Point.falls (x : Point) (v : Option MeasVal) : Bool :=
  decide (x.state = .active ∨ x.state = .clearing) && x.cfg.clears v && decide (x.cfg.clear ≤ x.downRun)

/-- R141, R143: a point's record behind an evaluation that makes it neither ACTIVE nor CLEAR. -/
def Point.counted (x : Point) (v : Option MeasVal) : Point :=
  match x.state with
  | .clear | .raising => if x.cfg.raises v then { x with state := .raising, run := x.upRun } else { x with state := .clear, run := 0 }
  | .active | .clearing => if x.cfg.clears v then { x with state := .clearing, run := x.downRun }
      else { x with state := .active, run := if x.state = .clearing then 0 else x.run }
  | .off | .forced => x

/-- R141, R143: an evaluation of a point. -/
theorem movePoint_eq (n : PointId) (v : Option MeasVal) (s : State) :
    movePoint n v s = if s.points[n].rises v then enterActive n s
      else if s.points[n].falls v then returnToClear n s
      else s.updPoint n fun x => x.counted v := by
  have watching := movePoint_watching n v s
  have raised := movePoint_raised n v s
  have suspended := movePoint_suspended n v s
  unfold raiseStep at watching
  unfold clearStep at raised
  generalize hx : s.points[n] = x at *
  have written : ∀ f g : Point → Point, f x = g x → s.updPoint n f = s.updPoint n g := by
    intro f g same
    unfold State.updPoint
    rw [hx, same]
  have out : x.state = .off ∨ x.state = .forced → movePoint n v s = if x.rises v then enterActive n s
      else if x.falls v then returnToClear n s else s.updPoint n fun x => x.counted v := by
    intro h
    have stays : s.updPoint n (fun x => x.counted v) = s := by
      refine State.updPoint_eq_self ?_
      rw [hx]
      rcases h with h | h <;> simp only [Point.counted, h]
    have neither : x.rises v = false ∧ x.falls v = false := by
      rcases h with h | h <;> simp [Point.rises, Point.falls, h]
    rw [suspended h, neither.1, neither.2, stays]
    rfl
  have below : x.state = .clear ∨ x.state = .raising → movePoint n v s = if x.rises v then enterActive n s
      else if x.falls v then returnToClear n s else s.updPoint n fun x => x.counted v := by
    intro h
    have noFall : x.falls v = false := by rcases h with h | h <;> simp [Point.falls, h]
    have counted : x.counted v = if x.cfg.raises v then { x with state := .raising, run := x.upRun }
        else { x with state := .clear, run := 0 } := by
      rcases h with h | h <;> simp only [Point.counted, h]
    have rises : x.rises v = (x.cfg.raises v && decide (x.cfg.raise ≤ x.upRun)) := by
      unfold Point.rises
      rw [decide_eq_true h, Bool.true_and]
    rw [watching h, noFall, rises]
    change (if _ then (if _ ≤ x.upRun then _ else setPoint n .raising x.upRun s) else _) = _
    cases meets : x.cfg.raises v with
    | false =>
      exact written (fun y => { y with state := .clear, run := 0 }) (fun y => y.counted v) (by rw [counted, meets]; rfl)
    | true =>
      by_cases enough : x.cfg.raise ≤ x.upRun
      · simp only [enough, if_true, decide_true, Bool.and_true]
      · simp only [enough, if_true, if_false, decide_false, Bool.and_false, Bool.false_eq_true]
        exact written (fun y => { y with state := .raising, run := x.upRun }) (fun y => y.counted v) (by rw [counted, meets]; rfl)
  have above : x.state = .active ∨ x.state = .clearing → movePoint n v s = if x.rises v then enterActive n s
      else if x.falls v then returnToClear n s else s.updPoint n fun x => x.counted v := by
    intro h
    have noRise : x.rises v = false := by rcases h with h | h <;> simp [Point.rises, h]
    have counted : x.counted v = if x.cfg.clears v then { x with state := .clearing, run := x.downRun }
        else { x with state := .active, run := if x.state = .clearing then 0 else x.run } := by
      rcases h with h | h <;> simp only [Point.counted, h]
    have falls : x.falls v = (x.cfg.clears v && decide (x.cfg.clear ≤ x.downRun)) := by
      unfold Point.falls
      rw [decide_eq_true h, Bool.true_and]
    rw [raised h, noRise, falls]
    change (if _ then (if _ ≤ x.downRun then _ else setPoint n .clearing x.downRun s) else _) = _
    cases meets : x.cfg.clears v with
    | false =>
      simp only [Bool.false_eq_true, if_false, Bool.false_and]
      exact written (fun y => { y with state := .active, run := if y.state = .clearing then 0 else y.run }) (fun y => y.counted v) (by rw [counted, meets]; rfl)
    | true =>
      by_cases enough : x.cfg.clear ≤ x.downRun
      · simp only [enough, if_true, decide_true, Bool.and_true, Bool.false_eq_true, if_false]
      · simp only [enough, if_true, if_false, decide_false, Bool.and_false, Bool.false_eq_true]
        exact written (fun y => { y with state := .clearing, run := x.downRun }) (fun y => y.counted v) (by rw [counted, meets]; rfl)
  cases state : x.state with
  | off => exact out (.inl state)
  | forced => exact out (.inr state)
  | clear => exact below (.inl state)
  | raising => exact below (.inr state)
  | active => exact above (.inl state)
  | clearing => exact above (.inr state)

/-! ### One visit (R138, R139) -/

/-- R134 to R136: the record of a point that is evaluated, before it moves. -/
def State.reads (s : State) (x : Point) : Point :=
  { x with lastValue := s.measureOf x, lastScan := some s.scanNo, clipReading := s.nextReading x }

/-- R141 to R143, R147: what an evaluation makes of a point's record. -/
def Point.moved (x : Point) (v : Option MeasVal) (skipped : Bool) : Point :=
  if x.rises v then { x.raiseTo .active with skips := if skipped then min 65535 (x.skips + 1) else x.skips }
  else if x.falls v then { x with state := .clear, run := 0 }
  else x.counted v

/-- R142: the scan numbered in `s` makes point `n` ACTIVE. -/
def State.rising (s : State) (n : PointId) : Bool :=
  s.points[n].isDue s.scanNo && (s.reads s.points[n]).rises (s.measureOf s.points[n])

/-- R143: the scan numbered in `s` returns point `n` to CLEAR. -/
def State.falling (s : State) (n : PointId) : Bool :=
  s.points[n].isDue s.scanNo && (s.reads s.points[n]).falls (s.measureOf s.points[n])

/-- R138 to R143: point `n` behind the scan numbered in `s`. -/
def State.visited (s : State) (n : PointId) : Point :=
  if s.points[n].isDue s.scanNo then
    (s.reads s.points[n]).moved (s.measureOf s.points[n]) (decide (s.skipsAction s.points[n]))
  else s.points[n]

/-- R151: the notice of a scan, from the record of its point. -/
def Point.scanLine (x : Point) (n : PointId) (why st : Kw) (scan : BitVec 32) : Line :=
  .notice .alm
    [.num n.val, .kw why, .kw st, optFld (fun m => .kw (Measure.kw m)) x.cfg.measure, x.cfg.subject.fld,
     optFld measValFld x.lastValue, .num scan.toNat, .num x.activations, .kw (if x.latched then .SET else .CLEAR)]

/-- R142, R143, R151: what the scan says of a point. -/
def State.scanLines (s : State) (n : PointId) : List Line :=
  if (s.visited n).cfg.notify = true ∧ s.rising n = true then [(s.visited n).scanLine n .RAISED .ACTIVE s.scanNo]
  else if (s.visited n).cfg.notify = true ∧ s.falling n = true then [(s.visited n).scanLine n .CLEARED .CLEAR s.scanNo]
  else []

/-- What the evaluation of a point by a value leaves alone, and what it moves. -/
structure Evaluated (n : PointId) (v : Option MeasVal) (s u : State) : Prop where
  rest : u = { s with points := u.points, gpos := u.gpos, slots := u.slots, pgms := u.pgms, link := u.link }
  point : ∀ m : PointId, m ≠ n → u.points[m] = s.points[m]
  own : u.points[n] = s.points[n].moved v (decide (s.skipsAction s.points[n]))
  slot : ∀ c : SlotId, u.slots[c] =
    if s.points[n].rises v && decide (s.points[n].cfg.action = .capture c) then s.slots[c].struck s.hc n else s.slots[c]
  pgm : ∀ p : ProgId, u.pgms[p] =
    if s.points[n].rises v && decide (s.points[n].cfg.action = .changeover ∧ s.points[n].cfg.subject = .pgm p) then
      { s.pgms[p] with
        ctl := if s.unbacked p then s.pgms[p].ctl else s.pgms[p].ctl.alarmed s.boundaryHere n }
    else s.pgms[p]
  gpo : ∀ l : LineId, u.gpos[l].cfg = s.gpos[l].cfg ∧ u.gpos[l].pin = s.gpos[l].pin ∧
    ∀ m : PointId, m ∈ u.gpos[l].contrib ↔
      if m = n ∧ l ∈ s.points[n].cfg.gpo ∧ s.points[n].rises v = true then True
      else if m = n ∧ l ∈ s.points[n].cfg.gpo ∧ s.points[n].falls v = true then False
      else m ∈ s.gpos[l].contrib
  link : u.link = s.link.notices
    (if s.points[n].cfg.notify = true ∧ s.points[n].rises v = true then
      [(s.points[n].moved v (decide (s.skipsAction s.points[n]))).scanLine n .RAISED .ACTIVE s.scanNo]
     else if s.points[n].cfg.notify = true ∧ s.points[n].falls v = true then
      [(s.points[n].moved v (decide (s.skipsAction s.points[n]))).scanLine n .CLEARED .CLEAR s.scanNo]
     else [])

/-- R142: the state in which the action of a point that becomes ACTIVE is run. -/
theorem enterActive_eq (n : PointId) (s : State) : enterActive n s = runAction n
    { s.updPoint n (fun x => x.raiseTo .active) with
      gpos := (contribute n s.points[n].cfg.gpo true s).gpos
      link := if s.points[n].cfg.notify then
          (almNotice n .RAISED false (s.updPoint n fun x => x.raiseTo .active)).link
        else s.link } := by
  unfold enterActive
  rw [updPoint_contributePoint n true s (fun x => x.raiseTo .active) rfl, almNoticeIf_contributed]
  simp only [State.updPoint_self]
  rfl

theorem returnToClear_eq (n : PointId) (s : State) : returnToClear n s =
    { s.updPoint n (fun x => { x with state := .clear, run := 0 }) with
      gpos := (contribute n s.points[n].cfg.gpo false s).gpos
      link := if s.points[n].cfg.notify then
          (almNotice n .CLEARED false (s.updPoint n fun x => { x with state := .clear, run := 0 })).link
        else s.link } := by
  unfold returnToClear
  rw [updPoint_contributePoint n false s (fun x => { x with state := .clear, run := 0 }) rfl, almNoticeIf_contributed]
  simp only [State.updPoint_self]
  rfl

theorem almNotice_written (n : PointId) (why : Kw) (s : State) (f : Point → Point) :
    (almNotice n why false (s.updPoint n f)).link =
      s.link.notices [(f s.points[n]).scanLine n why (f s.points[n]).state.kw s.scanNo] := by
  unfold almNotice
  rw [State.updPoint_self]
  rfl

theorem enterActive_evaluated (n : PointId) (v : Option MeasVal) (s : State) (rises : s.points[n].rises v = true)
    (noFall : s.points[n].falls v = false) : Evaluated n v s (enterActive n s) := by
  rw [enterActive_eq, almNotice_written]
  have moves := contributionMoved_contribute s (contribute n s.points[n].cfg.gpo true s) n s.points[n].cfg.gpo true rfl
  unfold contributionMoved at moves
  generalize (contribute n s.points[n].cfg.gpo true s).gpos = gpos at *
  generalize hl : (if s.points[n].cfg.notify = true then
      s.link.notices [(s.points[n].raiseTo .active).scanLine n .RAISED (s.points[n].raiseTo .active).state.kw s.scanNo]
    else s.link) = link
  have here : (s.updPoint n fun x => x.raiseTo .active).points[n] = s.points[n].raiseTo .active := State.updPoint_self s n _
  have acted := runAction_acted n { s.updPoint n (fun x => x.raiseTo .active) with gpos := gpos, link := link }
  generalize runAction n { s.updPoint n (fun x => x.raiseTo .active) with gpos := gpos, link := link } = u at *
  obtain ⟨rest, point, ⟨k, own, skipped, kept⟩, slotHit, slotLeft, pgmHit, pgmLeft⟩ := acted
  dsimp only at own skipped kept slotHit slotLeft pgmHit pgmLeft point
  rw [here] at own skipped kept slotHit slotLeft pgmHit pgmLeft
  have moved : s.points[n].moved v (decide (s.skipsAction s.points[n])) =
      { s.points[n].raiseTo .active with
        skips := if decide (s.skipsAction s.points[n]) then min 65535 (s.points[n].skips + 1) else s.points[n].skips } := by
    unfold Point.moved
    rw [rises]
    rfl
  refine ⟨?_, fun m other => ?_, ?_, fun c => ?_, fun p => ?_, fun l => ?_, ?_⟩
  · rw [rest]
    rfl
  · exact (point m other).trans ((getElem_updPoint s n m _).trans (if_neg other))
  · rw [own, moved]
    by_cases skips : s.skipsAction s.points[n]
    · rw [skipped skips, decide_eq_true skips]
      rfl
    · rw [kept skips, decide_eq_false skips]
      rfl
  · by_cases hit : s.points[n].cfg.action = .capture c
    · rw [rises, decide_eq_true hit]
      exact slotHit c hit
    · rw [rises, decide_eq_false hit]
      exact slotLeft c hit
  · by_cases hit : s.points[n].cfg.action = .changeover ∧ s.points[n].cfg.subject = .pgm p
    · rw [rises, decide_eq_true hit]
      simp only [Bool.and_self, if_true]
      cases reach : s.unbacked p with
      | true => exact pgmLeft p fun h => nomatch reach.symm.trans h.2.2
      | false => exact pgmHit p ⟨hit.1, hit.2, reach⟩
    · rw [rises, decide_eq_false hit]
      exact pgmLeft p fun h => hit ⟨h.1, h.2.1⟩
  · have gpos_l : u.gpos[l] = gpos[l] := by rw [rest]
    rw [gpos_l]
    obtain ⟨cfg, pin, mem⟩ := moves l
    refine ⟨cfg, pin, fun m => (mem m).trans ?_⟩
    simp only [rises, noFall, Bool.false_eq_true, and_true, and_false, if_false]
  · have link_eq : u.link = link := by rw [rest]
    rw [link_eq, ← hl, moved]
    simp only [rises, noFall, Bool.false_eq_true, and_true, and_false, if_false]
    split <;> rfl

theorem returnToClear_evaluated (n : PointId) (v : Option MeasVal) (s : State) (noRise : s.points[n].rises v = false)
    (falls : s.points[n].falls v = true) : Evaluated n v s (returnToClear n s) := by
  rw [returnToClear_eq, almNotice_written]
  have moves := contributionMoved_contribute s (contribute n s.points[n].cfg.gpo false s) n s.points[n].cfg.gpo false rfl
  unfold contributionMoved at moves
  generalize (contribute n s.points[n].cfg.gpo false s).gpos = gpos at *
  have moved : s.points[n].moved v (decide (s.skipsAction s.points[n])) = { s.points[n] with state := .clear, run := 0 } := by
    unfold Point.moved
    rw [noRise, falls]
    rfl
  refine ⟨rfl, fun m other => ?_, ?_, fun c => ?_, fun p => ?_, fun l => ?_, ?_⟩
  · exact (getElem_updPoint s n m fun x => { x with state := .clear, run := 0 }).trans (if_neg other)
  · exact (State.updPoint_self s n fun x => { x with state := .clear, run := 0 }).trans moved.symm
  · rw [noRise]; rfl
  · rw [noRise]; rfl
  · obtain ⟨cfg, pin, mem⟩ := moves l
    refine ⟨cfg, pin, fun m => (mem m).trans ?_⟩
    simp only [noRise, falls, Bool.false_eq_true, and_true, and_false, if_false]
  · rw [moved]
    simp only [noRise, falls, Bool.false_eq_true, and_true, and_false, if_false]
    split <;> rfl

theorem updPoint_evaluated (n : PointId) (v : Option MeasVal) (s : State) (noRise : s.points[n].rises v = false)
    (noFall : s.points[n].falls v = false) : Evaluated n v s (s.updPoint n fun x => x.counted v) := by
  have own : s.points[n].moved v (decide (s.skipsAction s.points[n])) = s.points[n].counted v := by
    unfold Point.moved
    rw [noRise, noFall]
    rfl
  refine ⟨rfl, fun m other => ?_, ?_, fun c => ?_, fun p => ?_, fun l => ⟨rfl, rfl, fun m => ?_⟩, ?_⟩
  · rw [getElem_updPoint, if_neg other]
  · rw [getElem_updPoint, if_pos rfl, own]
  · rw [noRise]; rfl
  · rw [noRise]; rfl
  · simp only [noRise, noFall, Bool.false_eq_true, and_false, if_false]; rfl
  · simp only [noRise, noFall, Bool.false_eq_true, and_false, if_false]; rfl

theorem Point.rises_falls (x : Point) (v : Option MeasVal) (rises : x.rises v = true) : x.falls v = false := by
  unfold Point.rises at rises
  unfold Point.falls
  simp only [Bool.and_eq_true, decide_eq_true_eq] at rises
  obtain ⟨⟨low, -⟩, -⟩ := rises
  rcases low with h | h <;> simp [h]

theorem movePoint_evaluated (n : PointId) (v : Option MeasVal) (s : State) : Evaluated n v s (movePoint n v s) := by
  rw [movePoint_eq]
  cases rises : s.points[n].rises v with
  | true => exact enterActive_evaluated n v s rises (Point.rises_falls _ v rises)
  | false =>
    cases falls : s.points[n].falls v with
    | true => exact returnToClear_evaluated n v s rises falls
    | false => exact updPoint_evaluated n v s rises falls

end Sys2Proof.Machine
end

section
/-! PROOFS, O45. The scan: the points in order, the revert check, and what stands behind it (R55, R137 to R151). -/

namespace Sys2Proof.Machine

/-! ### A point that the scan visits (R138, R139) -/

/-- R147: point `n` sends programme `p` to BACKUP. -/
def State.sends (s : State) (n : PointId) (p : ProgId) : Bool :=
  s.rising n && decide (s.points[n].cfg.action = .changeover ∧ s.points[n].cfg.subject = .pgm p)

/-- R148: point `n` triggers slot `c`. -/
def State.strikes (s : State) (n : PointId) (c : SlotId) : Bool :=
  s.rising n && decide (s.points[n].cfg.action = .capture c)

/-- R147: what the action of point `n` makes of a controller record of programme `p`. -/
def State.sent (s : State) (p : ProgId) (c : Ctl) (n : PointId) : Ctl :=
  if s.unbacked p then c else c.alarmed s.boundaryHere n

/-- R150: a contribution behind the visit of the points `ns`. -/
def State.contributes (s : State) (ns : List PointId) (l : LineId) (m : PointId) : Prop :=
  if l ∈ s.points[m].cfg.gpo ∧ m ∈ ns ∧ s.rising m = true then True
  else if l ∈ s.points[m].cfg.gpo ∧ m ∈ ns ∧ s.falling m = true then False
  else m ∈ s.gpos[l].contrib

/-- What the visit of the points `ns` makes of a state `s`. -/
structure Scanned (s : State) (ns : List PointId) (u : State) : Prop where
  rest : u = { s with points := u.points, gpos := u.gpos, slots := u.slots, pgms := u.pgms, link := u.link }
  point : ∀ n : PointId, u.points[n] = if n ∈ ns then s.visited n else s.points[n]
  slot : ∀ c : SlotId, u.slots[c] = (ns.filter fun n => s.strikes n c).foldl (fun x n => x.struck s.hc n) s.slots[c]
  pgm : ∀ p : ProgId, u.pgms[p] = { s.pgms[p] with ctl := (ns.filter fun n => s.sends n p).foldl (s.sent p) s.pgms[p].ctl }
  gpo : ∀ l : LineId, u.gpos[l].cfg = s.gpos[l].cfg ∧ u.gpos[l].pin = s.gpos[l].pin ∧
    ∀ m : PointId, m ∈ u.gpos[l].contrib ↔ s.contributes ns l m
  link : u.link = s.link.notices (ns.flatMap s.scanLines)

theorem Scanned.nothing (s : State) : Scanned s [] s :=
  ⟨rfl, fun _ => rfl, fun _ => rfl, fun _ => rfl, fun l => ⟨rfl, rfl, fun m => by simp [State.contributes]⟩, rfl⟩

theorem notices_append (l : Link) (a b : List Line) : l.notices (a ++ b) = (l.notices a).notices b :=
  List.foldl_append

theorem visitPoint_eq (s : State) (n : PointId) :
    visitPoint s n = if s.points[n].isDue s.scanNo then
        movePoint n (s.measureOf s.points[n]) { s with points := s.points.set n (s.reads s.points[n]) }
      else s := rfl

theorem Point.counted_of_low (x : Point) (v : Option MeasVal) (low : x.state = .clear ∨ x.state = .raising) :
    ∃ st run, st ≠ .active ∧ x.counted v = { x with state := st, run := run } := by
  unfold Point.counted
  rcases low with h | h <;> rw [h] <;> dsimp only <;> split
  · exact ⟨.raising, x.upRun, PointState.noConfusion, rfl⟩
  · exact ⟨.clear, 0, PointState.noConfusion, rfl⟩
  · exact ⟨.raising, x.upRun, PointState.noConfusion, rfl⟩
  · exact ⟨.clear, 0, PointState.noConfusion, rfl⟩

theorem Point.counted_of_high (x : Point) (v : Option MeasVal) (high : x.state = .active ∨ x.state = .clearing) :
    ∃ st run, st ≠ .clear ∧ x.counted v = { x with state := st, run := run } := by
  unfold Point.counted
  rcases high with h | h <;> rw [h] <;> dsimp only <;> split
  · exact ⟨.clearing, x.downRun, PointState.noConfusion, rfl⟩
  · exact ⟨.active, _, PointState.noConfusion, rfl⟩
  · exact ⟨.clearing, x.downRun, PointState.noConfusion, rfl⟩
  · exact ⟨.active, _, PointState.noConfusion, rfl⟩

theorem Point.counted_of_out (x : Point) (v : Option MeasVal) (out : x.state = .off ∨ x.state = .forced) :
    x.counted v = x := by
  unfold Point.counted
  rcases out with h | h <;> rw [h]

/-- An evaluation keeps the configuration of a point and what it has read. -/
theorem Point.moved_keeps (x : Point) (v : Option MeasVal) (b : Bool) :
    ∃ st run latched activations skips, x.moved v b =
      { x with state := st, run := run, latched := latched, activations := activations, skips := skips } := by
  unfold Point.moved
  split
  · exact ⟨_, _, _, _, _, rfl⟩
  · split
    · exact ⟨_, _, _, _, _, rfl⟩
    · cases state : x.state with
      | off => exact ⟨_, _, _, _, _, x.counted_of_out v (.inl state)⟩
      | forced => exact ⟨_, _, _, _, _, x.counted_of_out v (.inr state)⟩
      | clear | raising =>
        obtain ⟨st, run, -, same⟩ := x.counted_of_low v (by simp [state])
        exact ⟨st, run, _, _, _, same⟩
      | active | clearing =>
        obtain ⟨st, run, -, same⟩ := x.counted_of_high v (by simp [state])
        exact ⟨st, run, _, _, _, same⟩

theorem State.visited_cfg (s : State) (n : PointId) : (s.visited n).cfg = s.points[n].cfg := by
  unfold State.visited
  split
  · obtain ⟨_, _, _, _, _, same⟩ := (s.reads s.points[n]).moved_keeps (s.measureOf s.points[n]) (decide (s.skipsAction s.points[n]))
    rw [same]
    rfl
  · rfl

/-- The visit of one point. -/
theorem visitPoint_scanned (s : State) (n : PointId) : Scanned s [n] (visitPoint s n) := by
  rw [visitPoint_eq]
  cases due : s.points[n].isDue s.scanNo with
  | false =>
    have noRise : s.rising n = false := by unfold State.rising; rw [due]; rfl
    have noFall : s.falling n = false := by unfold State.falling; rw [due]; rfl
    have same : s.visited n = s.points[n] := by unfold State.visited; rw [due]; rfl
    rw [if_neg Bool.false_ne_true]
    refine ⟨rfl, fun m => ?_, fun c => ?_, fun p => ?_, fun l => ⟨rfl, rfl, fun m => ?_⟩, ?_⟩
    · by_cases e : m = n
      · subst e
        rw [if_pos List.mem_cons_self, same]
      · rw [if_neg fun h => e (List.mem_singleton.mp h)]
    · simp [State.strikes, noRise]
    · simp [State.sends, noRise]
    · unfold State.contributes
      by_cases e : m = n
      · subst e
        simp only [noRise, noFall, Bool.false_eq_true, and_false, if_false]
      · simp only [List.mem_singleton, e, false_and, and_false, if_false]
    · simp [State.scanLines, noRise, noFall, Link.notices]
  | true =>
    rw [if_pos rfl]
    have here : ({ s with points := s.points.set n (s.reads s.points[n]) } : State).points[n] = s.reads s.points[n] :=
      State.updPoint_self s n s.reads
    have others : ∀ m : PointId, m ≠ n →
        ({ s with points := s.points.set n (s.reads s.points[n]) } : State).points[m] = s.points[m] := fun m other =>
      (getElem_updPoint s n m s.reads).trans (if_neg other)
    have moved := movePoint_evaluated n (s.measureOf s.points[n])
      { s with points := s.points.set n (s.reads s.points[n]) }
    generalize movePoint n (s.measureOf s.points[n]) { s with points := s.points.set n (s.reads s.points[n]) } = u at *
    obtain ⟨rest, point, own, slot, pgm, gpo, link⟩ := moved
    rw [here] at own slot pgm gpo link
    have rises : s.rising n = (s.reads s.points[n]).rises (s.measureOf s.points[n]) := by
      unfold State.rising; rw [due]; rfl
    have falls : s.falling n = (s.reads s.points[n]).falls (s.measureOf s.points[n]) := by
      unfold State.falling; rw [due]; rfl
    have visited : s.visited n =
        (s.reads s.points[n]).moved (s.measureOf s.points[n]) (decide (s.skipsAction s.points[n])) := by
      unfold State.visited; rw [due]; rfl
    rw [← rises] at slot pgm gpo link
    rw [← falls] at gpo link
    change u.points[n] = (s.reads s.points[n]).moved (s.measureOf s.points[n]) (decide (s.skipsAction s.points[n])) at own
    change u.link = s.link.notices
      (if s.points[n].cfg.notify = true ∧ s.rising n = true then
        [((s.reads s.points[n]).moved (s.measureOf s.points[n]) (decide (s.skipsAction s.points[n]))).scanLine n .RAISED .ACTIVE s.scanNo]
       else if s.points[n].cfg.notify = true ∧ s.falling n = true then
        [((s.reads s.points[n]).moved (s.measureOf s.points[n]) (decide (s.skipsAction s.points[n]))).scanLine n .CLEARED .CLEAR s.scanNo]
       else []) at link
    rw [← visited] at own link
    have cfg := s.visited_cfg n
    refine ⟨?_, fun m => ?_, fun c => ?_, fun p => ?_, fun l => ?_, ?_⟩
    · rw [rest]
    · by_cases e : m = n
      · subst e
        rw [if_pos List.mem_cons_self, own]
      · rw [if_neg fun h => e (List.mem_singleton.mp h), point m e, others m e]
    · have hit : u.slots[c] = if s.strikes n c then s.slots[c].struck s.hc n else s.slots[c] := slot c
      rw [hit, List.filter_singleton]
      cases s.strikes n c <;> rfl
    · have hit : u.pgms[p] = if s.sends n p then { s.pgms[p] with ctl := s.sent p s.pgms[p].ctl n } else s.pgms[p] := pgm p
      rw [hit, List.filter_singleton]
      cases s.sends n p <;> rfl
    · obtain ⟨cfg, pin, mem⟩ := gpo l
      refine ⟨cfg, pin, fun m => (mem m).trans ?_⟩
      unfold State.contributes
      by_cases e : m = n
      · subst e
        simp only [List.mem_singleton, true_and]
        rfl
      · simp only [List.mem_singleton, e, false_and, and_false, if_false]
    · refine link.trans ?_
      rw [List.flatMap_singleton]
      unfold State.scanLines
      rw [cfg]

/-! ### The points in order (R139) -/

theorem changeTaken_lanes (here : Bool) (c : Ctl) :
    (changeTaken here c).lanes = c.lanes ∧ (changeTaken here c).state = c.state := by
  obtain ⟨_, _, _, _, _, same⟩ := changeTaken_keeps here c
  rw [same]
  exact ⟨rfl, rfl⟩

theorem State.foldl_sent (s : State) (p : ProgId) (ns : List PointId) (c : Ctl) :
    (ns.foldl (s.sent p) c).lanes = c.lanes ∧ (ns.foldl (s.sent p) c).state = c.state := by
  induction ns generalizing c with
  | nil => exact ⟨rfl, rfl⟩
  | cons n ns ih =>
    have one : (s.sent p c n).lanes = c.lanes ∧ (s.sent p c n).state = c.state := by
      unfold State.sent
      split
      · exact ⟨rfl, rfl⟩
      · exact changeTaken_lanes _ _
    exact ⟨(ih _).1.trans one.1, (ih _).2.trans one.2⟩

/-- What a scan reads of a state: a point's evaluation is a matter of these alone. -/
structure ReadsAlike (s t : State) : Prop where
  hc : t.hc = s.hc
  scanNo : t.scanNo = s.scanNo
  here : t.boundaryHere = s.boundaryHere
  ref : t.ref = s.ref
  ports : t.ports = s.ports
  lanes : t.lanes = s.lanes
  presets : t.presets = s.presets
  reports : t.reports = s.reports
  watch : t.watch = s.watch
  held : ∀ p : ProgId, t.pgms[p].ctl.lanes = s.pgms[p].ctl.lanes ∧ t.pgms[p].ctl.state = s.pgms[p].ctl.state ∧
    t.pgms[p].dly = s.pgms[p].dly

section
variable {s t : State} (alike : ReadsAlike s t)
include alike

theorem ReadsAlike.unbacked (p : ProgId) : t.unbacked p = s.unbacked p := by
  obtain ⟨lanes, state, -⟩ := alike.held p
  unfold State.unbacked
  rw [lanes, state, alike.lanes]

theorem ReadsAlike.measureOf (x : Point) : t.measureOf x = s.measureOf x := by
  have report : ∀ m p r reading, t.reportMeasure m p r reading = s.reportMeasure m p r reading := by
    intro m p r reading
    obtain ⟨lanes, -, dly⟩ := alike.held p
    unfold State.reportMeasure State.atGainLimit
    rw [alike.presets, alike.lanes, lanes, dly]
  unfold State.measureOf
  simp only [alike.ports, alike.ref, alike.watch, alike.reports, report]

theorem ReadsAlike.nextReading (x : Point) : t.nextReading x = s.nextReading x := by
  unfold State.nextReading State.reportOf
  rw [alike.reports]

theorem ReadsAlike.reads (x : Point) : t.reads x = s.reads x := by
  unfold State.reads
  rw [alike.measureOf, alike.nextReading, alike.scanNo]

theorem ReadsAlike.skipsAction (x : Point) : t.skipsAction x ↔ s.skipsAction x := by
  unfold State.skipsAction
  simp only [alike.unbacked]

variable {n : PointId} (point : t.points[n] = s.points[n])
include point

theorem ReadsAlike.rising : t.rising n = s.rising n := by
  unfold State.rising
  rw [point, alike.reads, alike.measureOf, alike.scanNo]

theorem ReadsAlike.falling : t.falling n = s.falling n := by
  unfold State.falling
  rw [point, alike.reads, alike.measureOf, alike.scanNo]

theorem ReadsAlike.visited : t.visited n = s.visited n := by
  unfold State.visited
  rw [point, alike.reads, alike.measureOf, alike.scanNo, decide_eq_decide.mpr (alike.skipsAction _)]

theorem ReadsAlike.scanLines : t.scanLines n = s.scanLines n := by
  unfold State.scanLines
  rw [alike.visited point, alike.rising point, alike.falling point, alike.scanNo]

end

theorem Scanned.alike {s t : State} {ns : List PointId} (scanned : Scanned s ns t) : ReadsAlike s t := by
  obtain ⟨rest, -, -, pgm, -, -⟩ := scanned
  have held : ∀ p : ProgId, t.pgms[p].ctl.lanes = s.pgms[p].ctl.lanes ∧ t.pgms[p].ctl.state = s.pgms[p].ctl.state ∧
      t.pgms[p].dly = s.pgms[p].dly := by
    intro p
    rw [pgm p]
    exact ⟨(s.foldl_sent p _ _).1, (s.foldl_sent p _ _).2, rfl⟩
  exact ⟨by rw [rest], by rw [rest], by rw [rest], by rw [rest], by rw [rest], by rw [rest], by rw [rest], by rw [rest],
    by rw [rest], held⟩

/-- The visit of a further point. -/
theorem Scanned.append {s t u : State} {ns : List PointId} {n : PointId} (scanned : Scanned s ns t) (fresh : n ∉ ns)
    (visit : Scanned t [n] u) : Scanned s (ns ++ [n]) u := by
  have alike := scanned.alike
  obtain ⟨rest, point, slot, pgm, gpo, link⟩ := scanned
  obtain ⟨rest', point', slot', pgm', gpo', link'⟩ := visit
  have own : t.points[n] = s.points[n] := (point n).trans (if_neg fresh)
  have rising := alike.rising own
  have falling := alike.falling own
  have sends : ∀ p, t.sends n p = s.sends n p := fun p => by unfold State.sends; rw [rising, own]
  have strikes : ∀ c, t.strikes n c = s.strikes n c := fun c => by unfold State.strikes; rw [rising, own]
  have sent : ∀ p, t.sent p = s.sent p := by
    intro p
    unfold State.sent
    rw [alike.unbacked, alike.here]
  refine ⟨?_, fun m => ?_, fun c => ?_, fun p => ?_, fun l => ?_, ?_⟩
  · rw [rest', rest]
  · rw [point' m]
    by_cases e : m = n
    · subst e
      rw [if_pos List.mem_cons_self, if_pos (List.mem_append_right ns List.mem_cons_self), alike.visited own]
    · rw [if_neg fun h => e (List.mem_singleton.mp h), point m]
      simp only [List.mem_append, List.mem_singleton, e, or_false]
  · rw [slot' c, slot c, List.filter_append, List.foldl_append, List.filter_singleton, List.filter_singleton, strikes,
      alike.hc]
  · rw [pgm' p, pgm p, List.filter_append, List.foldl_append, List.filter_singleton, List.filter_singleton, sends, sent]
  · obtain ⟨cfg, pin, mem⟩ := gpo l
    obtain ⟨cfg', pin', mem'⟩ := gpo' l
    refine ⟨cfg'.trans cfg, pin'.trans pin, fun m => (mem' m).trans ?_⟩
    unfold State.contributes at mem ⊢
    by_cases e : m = n
    · subst e
      rw [own, rising, falling, mem m]
      simp only [fresh, List.mem_append, List.mem_singleton, true_and, false_and, and_false, if_false, or_true]
    · simp only [List.mem_append, List.mem_singleton, e, false_and, and_false, if_false, or_false]
      exact mem m
  · rw [link', link, List.flatMap_append, notices_append, List.flatMap_singleton, List.flatMap_singleton,
      alike.scanLines own]

/-- The visit of points in order, each once. -/
theorem foldl_visitPoint (s : State) (ns : List PointId) (once : ns.Nodup) : Scanned s ns (ns.foldl visitPoint s) := by
  induction ns using List.reverseRecOn with
  | nil => exact .nothing s
  | append_singleton ns n ih =>
    rw [List.foldl_append]
    obtain ⟨before, -, apart⟩ := List.nodup_append.mp once
    exact (ih before).append (fun h => apart n h n List.mem_cons_self rfl) (visitPoint_scanned _ n)

/-! ### The revert check (R55) -/

/-- R55 for one programme. -/
theorem revertCheck_eq (s : State) (p : ProgId) : revertCheck s p =
    s.updCtl p fun c => revertTaken s.boundaryHere (c.lanes.all s.mainLocked) c := by
  unfold revertCheck
  dsimp only
  have written : ∀ f : Ctl → Ctl, f s.pgms[p].ctl =
      revertTaken s.boundaryHere (s.pgms[p].ctl.lanes.all s.mainLocked) s.pgms[p].ctl →
      s.updCtl p f = s.updCtl p fun c => revertTaken s.boundaryHere (c.lanes.all s.mainLocked) c :=
    fun f same => State.updCtl_congr same
  have none_iff : ∀ x : Change, x.hasSource = false ↔ x.source = none := fun x => by
    unfold Change.hasSource
    exact Option.isSome_eq_false_iff.trans Option.isNone_iff_eq_none
  cases revert : s.pgms[p].ctl.revert with
  | none =>
    have hold : s.pgms[p].ctl.revertHold = none := by
      unfold Ctl.revertHold
      rw [revert, ite_self]
    rw [hold]
    refine written _ ?_
    unfold revertTaken
    rw [revert]
  | some hold =>
    have held : s.pgms[p].ctl.revertHold =
        if s.pgms[p].ctl.state = .running ∧ s.pgms[p].ctl.active = .backup ∧ s.pgms[p].ctl.pending.source = none ∧
          (s.pgms[p].ctl.inflight.getD Change.empty).source = none then some hold else none := by
      unfold Ctl.revertHold
      simp only [none_iff, revert]
    have taken : revertTaken s.boundaryHere (s.pgms[p].ctl.lanes.all s.mainLocked) s.pgms[p].ctl =
        if (s.pgms[p].ctl.state = .running ∧ s.pgms[p].ctl.active = .backup ∧ s.pgms[p].ctl.pending.source = none ∧
          (s.pgms[p].ctl.inflight.getD Change.empty).source = none) ∧ s.pgms[p].ctl.lanes.all s.mainLocked = true then
          if s.pgms[p].ctl.revertCount + 1 < hold then
            { s.pgms[p].ctl with revertCount := s.pgms[p].ctl.revertCount + 1 }
          else changeTaken s.boundaryHere
            { s.pgms[p].ctl with
              revertCount := 0, pending := { s.pgms[p].ctl.pending with source := some (.main, .revert) } }
        else { s.pgms[p].ctl with revertCount := 0 } := by
      unfold revertTaken
      split
      next h auto =>
        cases revert.symm.trans auto
        simp only [and_assoc]
      next manual => exact nomatch revert.symm.trans manual
    by_cases counts : s.pgms[p].ctl.state = .running ∧ s.pgms[p].ctl.active = .backup ∧
        s.pgms[p].ctl.pending.source = none ∧ (s.pgms[p].ctl.inflight.getD Change.empty).source = none
    · rw [held, if_pos counts]
      dsimp only
      by_cases locked : s.pgms[p].ctl.lanes.all s.mainLocked = true
      · rw [if_pos locked]
        rw [if_pos ⟨counts, locked⟩] at taken
        by_cases reached : hold ≤ s.pgms[p].ctl.revertCount + 1
        · rw [if_pos reached]
          rw [if_neg (Nat.not_lt.mpr reached)] at taken
          have running := counts.1
          have own : (s.updCtl p fun c => { c with revertCount := 0 }).pgms[p].ctl =
              { s.pgms[p].ctl with revertCount := 0 } := by
            unfold State.updCtl
            rw [getElem_updPgm, if_pos rfl]
          have allowed : ¬ (s.updCtl p fun c => { c with revertCount := 0 }).sourceRefused p .main = true := by
            rw [sourceRefused_iff, own]
            rintro (no | ⟨no, -⟩)
            · exact nomatch running.symm.trans no
            · exact nomatch no
          have request : requestSource p .main .revert (s.updCtl p fun c => { c with revertCount := 0 }) =
              some ((s.updCtl p fun c => { c with revertCount := 0 }).updCtl p fun c =>
                { c with pending := { c.pending with source := some (.main, .revert) } }.settle s.boundaryHere) := by
            unfold requestSource
            rw [if_neg allowed, own, running]
            rfl
          rw [request, Option.getD_some]
          unfold State.updCtl
          rw [State.updPgm_updPgm]
          refine written (fun c => ({ c with
            revertCount := 0, pending := { c.pending with source := some (.main, .revert) } } : Ctl).settle s.boundaryHere) ?_
          rw [Ctl.settle_eq, taken]
        · rw [if_neg reached]
          rw [if_pos (Nat.lt_of_not_le reached)] at taken
          exact written (fun c => { c with revertCount := c.revertCount + 1 }) taken.symm
      · rw [if_neg locked]
        rw [if_neg fun h => locked h.2] at taken
        exact written (fun c => { c with revertCount := 0 }) taken.symm
    · rw [held, if_neg counts]
      rw [if_neg fun h => counts h.1] at taken
      exact written (fun c => { c with revertCount := 0 }) taken.symm

/-- R55: the revert check of every programme. -/
theorem foldl_revertCheck (s : State) :
    let u := allProgs.foldl revertCheck s
    u = { s with pgms := u.pgms } ∧
    ∀ p : ProgId, u.pgms[p] = { s.pgms[p] with
      ctl := revertTaken s.boundaryHere (s.pgms[p].ctl.lanes.all s.mainLocked) s.pgms[p].ctl } := by
  have kept : ∀ t : State, ∀ p, t = { s with pgms := t.pgms } →
      revertCheck t p = { s with pgms := (revertCheck t p).pgms } := by
    intro t p h
    rw [revertCheck_eq]
    generalize (fun c => revertTaken t.boundaryHere (c.lanes.all t.mainLocked) c) = f
    conv_lhs => rw [h]
    rfl
  have fold := foldl_allProgs (fun t => t = { s with pgms := t.pgms }) revertCheck
    (fun _ g => { g with ctl := revertTaken s.boundaryHere (g.ctl.lanes.all s.mainLocked) g.ctl })
    (fun t p h => by
      rw [revertCheck_eq]
      unfold State.updCtl
      rw [getElem_updPgm, if_pos rfl]
      have here : t.boundaryHere = s.boundaryHere := by rw [h]
      have locked : t.mainLocked = s.mainLocked := by
        funext k
        unfold State.mainLocked
        rw [h]
      rw [here, locked])
    (fun t p q h other => by
      rw [revertCheck_eq]
      unfold State.updCtl
      rw [getElem_updPgm, if_neg other])
    kept s rfl
  exact ⟨foldl_keeps (fun t => t = { s with pgms := t.pgms }) _ (fun t p h => kept t p h) allProgs s rfl, fold⟩

/-! ### What a point shows of its visit -/

theorem isDue_iff (x : Point) (scan : BitVec 32) :
    x.isDue scan = true ↔ x.state ≠ .off ∧ x.state ≠ .forced ∧ scan.toNat % x.cfg.stride = x.cfg.phase := by
  unfold Point.isDue
  cases x.state <;> simp

theorem State.visited_of_due {s : State} {n : PointId} (due : s.points[n].isDue s.scanNo = true) : s.visited n =
    (s.reads s.points[n]).moved (s.measureOf s.points[n]) (decide (s.skipsAction s.points[n])) := by
  unfold State.visited
  rw [if_pos due]

theorem State.visited_of_rest {s : State} {n : PointId} (due : s.points[n].isDue s.scanNo = false) :
    s.visited n = s.points[n] := by
  unfold State.visited
  rw [due]
  rfl

/-- A point whose evaluation makes it neither ACTIVE nor CLEAR keeps its skip count. -/
theorem Point.counted_skips (x : Point) (v : Option MeasVal) : (x.counted v).skips = x.skips := by
  unfold Point.counted
  cases x.state <;> dsimp only <;> split <;> rfl

theorem Point.low_of_rises {x : Point} {v : Option MeasVal} (rises : x.rises v = true) :
    x.state = .clear ∨ x.state = .raising := by
  unfold Point.rises at rises
  simp only [Bool.and_eq_true, decide_eq_true_eq] at rises
  exact rises.1.1

theorem Point.high_of_falls {x : Point} {v : Option MeasVal} (falls : x.falls v = true) :
    x.state = .active ∨ x.state = .clearing := by
  unfold Point.falls at falls
  simp only [Bool.and_eq_true, decide_eq_true_eq] at falls
  exact falls.1.1

theorem Point.moved_of_rises {x : Point} {v : Option MeasVal} (b : Bool) (rises : x.rises v = true) :
    x.moved v b = { x.raiseTo .active with skips := if b then min 65535 (x.skips + 1) else x.skips } := if_pos rises

theorem Point.moved_of_falls {x : Point} {v : Option MeasVal} (b : Bool) (falls : x.falls v = true) :
    x.moved v b = { x with state := .clear, run := 0 } := by
  have noRise : ¬ x.rises v = true := fun rises => nomatch (x.rises_falls v rises).symm.trans falls
  exact (if_neg noRise).trans (if_pos falls)

theorem Point.moved_of_neither {x : Point} {v : Option MeasVal} (b : Bool) (noRise : x.rises v = false)
    (noFall : x.falls v = false) : x.moved v b = x.counted v := by
  unfold Point.moved
  rw [noRise, noFall]
  rfl

/-- R142: a point rises where its evaluation takes it to ACTIVE from CLEAR or RAISING. -/
theorem Point.rises_eq (x : Point) (v : Option MeasVal) (b : Bool) :
    decide ((x.state = .clear ∨ x.state = .raising) ∧ (x.moved v b).state = .active) = x.rises v := by
  cases rises : x.rises v with
  | true =>
    rw [Point.moved_of_rises b rises]
    exact decide_eq_true ⟨Point.low_of_rises rises, rfl⟩
  | false =>
    refine decide_eq_false fun ⟨low, active⟩ => ?_
    have noFall : x.falls v = false := by
      rcases low with h | h <;> simp [Point.falls, h]
    obtain ⟨st, run, other, same⟩ := x.counted_of_low v low
    rw [Point.moved_of_neither b rises noFall, same] at active
    exact other active

/-- R143: a point falls where its evaluation takes it to CLEAR from ACTIVE or CLEARING. -/
theorem Point.falls_eq (x : Point) (v : Option MeasVal) (b : Bool) :
    decide ((x.state = .active ∨ x.state = .clearing) ∧ (x.moved v b).state = .clear) = x.falls v := by
  cases falls : x.falls v with
  | true =>
    rw [Point.moved_of_falls b falls]
    exact decide_eq_true ⟨Point.high_of_falls falls, rfl⟩
  | false =>
    refine decide_eq_false fun ⟨high, clear⟩ => ?_
    have noRise : x.rises v = false := by
      rcases high with h | h <;> simp [Point.rises, h]
    obtain ⟨st, run, other, same⟩ := x.counted_of_high v high
    rw [Point.moved_of_neither b noRise falls, same] at clear
    exact other clear

theorem State.rising_eq (s : State) (n : PointId) :
    decide ((s.points[n].state = .clear ∨ s.points[n].state = .raising) ∧ (s.visited n).state = .active) = s.rising n := by
  unfold State.rising
  cases due : s.points[n].isDue s.scanNo with
  | true =>
    rw [State.visited_of_due due]
    exact Point.rises_eq (s.reads s.points[n]) _ _
  | false =>
    rw [State.visited_of_rest due]
    refine decide_eq_false fun ⟨low, active⟩ => ?_
    rcases low with h | h <;> exact nomatch h.symm.trans active

theorem State.falling_eq (s : State) (n : PointId) :
    decide ((s.points[n].state = .active ∨ s.points[n].state = .clearing) ∧ (s.visited n).state = .clear) = s.falling n := by
  unfold State.falling
  cases due : s.points[n].isDue s.scanNo with
  | true =>
    rw [State.visited_of_due due]
    exact Point.falls_eq (s.reads s.points[n]) _ _
  | false =>
    rw [State.visited_of_rest due]
    refine decide_eq_false fun ⟨high, clear⟩ => ?_
    rcases high with h | h <;> exact nomatch h.symm.trans clear

/-- R147: the skip count behind a visit. -/
theorem State.visited_skips (s : State) (n : PointId) : (s.visited n).skips =
    if s.rising n = true ∧ s.skipsAction s.points[n] then min 65535 (s.points[n].skips + 1) else s.points[n].skips := by
  unfold State.rising
  cases due : s.points[n].isDue s.scanNo with
  | true =>
    rw [State.visited_of_due due]
    generalize hx : s.reads s.points[n] = x
    have skips : x.skips = s.points[n].skips := by rw [← hx]; rfl
    generalize s.measureOf s.points[n] = v
    rw [Bool.true_and, ← skips]
    cases rises : x.rises v with
    | true =>
      rw [Point.moved_of_rises _ rises]
      simp only [decide_eq_true_eq, true_and]
    | false =>
      rw [if_neg fun h => nomatch h.1]
      cases falls : x.falls v with
      | true => rw [Point.moved_of_falls _ falls]
      | false => rw [Point.moved_of_neither _ rises falls, Point.counted_skips]
  | false =>
    rw [State.visited_of_rest due, if_neg]
    exact fun h => nomatch h.1

/-- R138 to R143: what a point that is evaluated reads, and how it moves by it. -/
theorem State.visited_reads {s : State} {n : PointId} (due : s.points[n].isDue s.scanNo = true) :
    (s.visited n).lastValue = s.measureOf s.points[n] ∧ (s.visited n).clipReading = s.nextReading s.points[n] ∧
      (s.visited n).lastScan = some s.scanNo := by
  obtain ⟨_, _, _, _, _, same⟩ :=
    (s.reads s.points[n]).moved_keeps (s.measureOf s.points[n]) (decide (s.skipsAction s.points[n]))
  rw [State.visited_of_due due, same]
  exact ⟨rfl, rfl, rfl⟩

/-! ### The measures (R134 to R136) -/

theorem measureOf_none {s : State} {x : Point} (m : x.cfg.measure = none) : s.measureOf x = none := by
  unfold State.measureOf
  rw [m]

theorem measureOf_portlock {s : State} {x : Point} (m : x.cfg.measure = some .portlock) :
    (∀ i, x.cfg.subject = .port i → s.measureOf x = some (.truth (s.ports[i].state ≠ .locked))) ∧
      ((∀ i, x.cfg.subject ≠ .port i) → s.measureOf x = none) := by
  unfold State.measureOf
  rw [m]
  cases subject : x.cfg.subject with
  | port i => exact ⟨fun j same => by cases same; rfl, fun no => absurd rfl (no i)⟩
  | pgm p =>
    refine ⟨fun j same => (nomatch same), fun _ => ?_⟩
    dsimp only
    split <;> rfl
  | nothing => exact ⟨fun j same => (nomatch same), fun _ => rfl⟩

theorem measureOf_ref {s : State} {x : Point} (m : x.cfg.measure = some .ref) :
    s.measureOf x = some (.truth (s.ref.state = .lost ∨ s.ref.state = .free)) := by
  unfold State.measureOf
  rw [m]

theorem measureOf_watch {s : State} {x : Point} (m : x.cfg.measure = some .watch) :
    s.measureOf x = some (.truth s.watch.latched) := by
  unfold State.measureOf
  rw [m]

/-- R134: the measure of a programme is that of its report. -/
theorem measureOf_report {s : State} {x : Point} {m : Measure} (measure : x.cfg.measure = some m)
    (noPort : m ≠ .portlock) (noRef : m ≠ .ref) (noWatch : m ≠ .watch) :
    s.measureOf x = match x.cfg.subject with
      | .pgm p => match s.reports[p] with
        | some r => s.reportMeasure m p r x.clipReading
        | none => none
      | _ => none := by
  unfold State.measureOf
  rw [measure]
  cases m with
  | portlock => exact absurd rfl noPort
  | ref => exact absurd rfl noRef
  | watch => exact absurd rfl noWatch
  | silent | loud | drift | clip | phase | pgmlock | short | gainlim => cases x.cfg.subject <;> rfl

/-- The measures of a programme, one by one. -/
theorem reportMeasure_each (s : State) (p : ProgId) (r : Report) (reading : Option Nat) :
    let preset := s.presets[r.preset]
    s.reportMeasure .silent p r reading = r.lm.map .num ∧
    s.reportMeasure .loud p r reading = r.ls.map .num ∧
    s.reportMeasure .drift p r reading = r.li.map (fun l => .num (l - preset.target).natAbs) ∧
    s.reportMeasure .clip p r reading =
      reading.map (fun c => .num (if r.clip < c then r.clip else r.clip - c : Nat)) ∧
    s.reportMeasure .phase p r reading = (match r.corr with
      | .value c => some (.num c)
      | .undefined | .absent => none) ∧
    s.reportMeasure .pgmlock p r reading = some (.truth (∃ k ∈ s.pgms[p].ctl.lanes, s.lanes[k].valid = false)) ∧
    s.reportMeasure .short p r reading = some (.truth (s.pgms[p].dly.short = true ∨ s.pgms[p].dly.floor = true)) ∧
    s.reportMeasure .gainlim p r reading = some (.truth (r.g = -preset.cut ∨ r.g = preset.boost)) := by
  intro preset
  refine ⟨rfl, rfl, rfl, rfl, ?_, ?_, ?_, rfl⟩
  · unfold State.reportMeasure
    cases r.corr <;> rfl
  · refine congrArg (fun b => some (MeasVal.truth b)) (Bool.eq_iff_iff.mpr ?_)
    simp
  · refine congrArg (fun b => some (MeasVal.truth b)) (Bool.eq_iff_iff.mpr ?_)
    simp

theorem nextReading_eq (s : State) (x : Point) : s.nextReading x =
    if x.cfg.measure = some .clip then
      some (match x.cfg.subject with
        | .pgm p => (s.reports[p].map Report.clip).getD 0
        | _ => 0)
    else x.clipReading := by
  unfold State.nextReading
  by_cases clip : x.cfg.measure = some .clip
  · rw [clip, if_pos rfl]
    dsimp only
    unfold State.reportOf
    cases x.cfg.subject with
    | pgm p =>
      dsimp only
      cases s.reports[p] <;> rfl
    | port i => rfl
    | nothing => rfl
  · rw [if_neg clip]
    split
    · next same => exact absurd same clip
    · rfl

/-! ### The scan (R137) -/

/-- R137: the state whose points the scan visits. -/
def State.scans (s : State) : State := { s with scanNo := s.scanNo + 1, scanDue := false }

theorem alarmScan_eq (s : State) (due : s.scanDue = true) : ∃ u v, allPoints.foldl visitPoint s.scans = u ∧
    allProgs.foldl revertCheck u = v ∧ alarmScan s = { v with reports := Vector.replicate 8 none } :=
  ⟨_, _, rfl, rfl, if_pos due⟩

theorem alarmScan_due (s : State) (due : s.scanDue = true) : ∃ u, Scanned s.scans allPoints u ∧
    alarmScan s = { u with
      pgms := (allProgs.foldl revertCheck u).pgms, reports := Vector.replicate 8 none } ∧
    ∀ p : ProgId, (allProgs.foldl revertCheck u).pgms[p] = { u.pgms[p] with
      ctl := revertTaken s.boundaryHere (u.pgms[p].ctl.lanes.all s.mainLocked) u.pgms[p].ctl } := by
  have scanned := foldl_visitPoint s.scans allPoints allPoints_nodup
  obtain ⟨u, v, points, programmes, answer⟩ := alarmScan_eq s due
  rw [points] at scanned
  obtain ⟨frame, pgm⟩ := foldl_revertCheck u
  rw [programmes] at frame pgm
  have here : u.boundaryHere = s.boundaryHere := scanned.alike.here
  have locked : u.mainLocked = s.mainLocked := by
    funext k
    unfold State.mainLocked
    rw [scanned.alike.lanes, scanned.alike.ports]
    rfl
  rw [here, locked] at pgm
  refine ⟨u, scanned, ?_, fun p => ?_⟩
  · rw [answer, programmes]
    conv_lhs => rw [frame]
  · rw [programmes]
    exact pgm p

/-- Settles O45. -/
theorem alarmScanVisitsDuePoints : Obligations.AlarmScanVisitsDuePoints := by
  intro s powered
  refine ⟨fun idle => ?_, fun due => ?_⟩
  · have same : alarmScan s = s := by
      unfold alarmScan
      rw [idle]
      rfl
    exact (event_powered _ s powered).trans (congrArg _ same)
  obtain ⟨u, scanned, scan, reverted⟩ := alarmScan_due s due
  refine ⟨alarmScan s, event_powered _ s powered, ?_⟩
  generalize allProgs.foldl revertCheck u = v at *
  rw [scan]
  obtain ⟨rest, point, slot, pgm, gpo, link⟩ := scanned
  have visited : ∀ n : PointId, u.points[n] = s.scans.visited n := fun n => (point n).trans (if_pos (mem_allPoints n))
  have rises : ∀ n : PointId, decide ((s.points[n].state = .clear ∨ s.points[n].state = .raising) ∧
      u.points[n].state = .active) = s.scans.rising n := fun n => by
    rw [visited]
    exact s.scans.rising_eq n
  have falls : ∀ n : PointId, decide ((s.points[n].state = .active ∨ s.points[n].state = .clearing) ∧
      u.points[n].state = .clear) = s.scans.falling n := fun n => by
    rw [visited]
    exact s.scans.falling_eq n
  have number : u.scanNo = s.scanNo + 1 := by rw [rest]; rfl
  refine ⟨number, by rw [rest]; rfl, fun p => by simp, ?_⟩
  intro rise unbacked
  have rise_eq : rise = s.scans.rising := funext rises
  have unbacked_eq : unbacked = s.unbacked := rfl
  clear_value rise unbacked
  subst rise_eq unbacked_eq
  refine ⟨fun n => ?_, fun c => ?_, fun p => ?_, fun n => ?_, ?_, ?_⟩
  · intro x isDue
    have due_iff : s.scans.points[n].isDue s.scans.scanNo = true ↔ isDue := by
      rw [isDue_iff]
      simp only [isDue, number]
      rfl
    refine ⟨fun no => ?_, fun yes => ?_, ?_⟩
    · exact (visited n).trans (State.visited_of_rest (Bool.eq_false_iff.mpr fun yes => no (due_iff.mp yes)))
    · obtain ⟨-, -, scan⟩ := State.visited_reads (due_iff.mpr yes)
      change u.points[n].lastScan = some u.scanNo ∧ u.points[n].cfg = _
      rw [visited, number]
      exact ⟨scan, s.scans.visited_cfg n⟩
    · change u.points[n].skips = _
      rw [visited]
      exact s.scans.visited_skips n
  · exact slot c
  · refine (reverted p).trans ?_
    rw [pgm p]
    rfl
  · intro x y takes on notForced phase
    have yes : s.scans.points[n].isDue s.scans.scanNo = true := (isDue_iff _ _).mpr
      ⟨on, notForced, (congrArg (fun k : BitVec 32 => k.toNat % x.cfg.stride) number).symm.trans phase⟩
    obtain ⟨value, reading, scan⟩ := State.visited_reads yes
    have y_eq : y = s.scans.visited n := visited n
    rw [← y_eq] at value reading scan
    replace value : y.lastValue = s.measureOf x := value
    replace reading : y.clipReading = s.nextReading x := reading
    have moved : y = (s.scans.reads x).moved (s.measureOf x) (decide (s.skipsAction x)) :=
      y_eq.trans (State.visited_of_due yes)
    clear_value y
    refine ⟨fun m => value.trans (measureOf_none m), fun m => ?_, fun m => value.trans (measureOf_ref m),
      fun m => value.trans (measureOf_watch m), fun noPort noRef noWatch => ⟨fun bare => ?_, fun p r subject report => ?_⟩,
      reading.trans (nextReading_eq s x), ?_⟩
    · rw [value]
      exact measureOf_portlock m
    · rw [value]
      cases m : x.cfg.measure with
      | none => exact measureOf_none m
      | some k =>
        rw [measureOf_report m (fun e => noPort (m.trans (congrArg some e))) (fun e => noRef (m.trans (congrArg some e)))
          fun e => noWatch (m.trans (congrArg some e))]
        split
        next p subject => rw [bare p subject]
        next => rfl
    · have each : ∀ k, x.cfg.measure = some k → y.lastValue = s.reportMeasure k p r x.clipReading := by
        intro k m
        rw [value, measureOf_report m (fun e => noPort (m.trans (congrArg some e)))
          (fun e => noRef (m.trans (congrArg some e))) fun e => noWatch (m.trans (congrArg some e)), subject]
        dsimp only
        rw [report]
      obtain ⟨silent, loud, drift, clip, phase, pgmlock, short, gainlim⟩ := reportMeasure_each s p r x.clipReading
      exact ⟨fun m => (each _ m).trans silent, fun m => (each _ m).trans loud, fun m => (each _ m).trans drift,
        fun m => (each _ m).trans clip, fun m => (each _ m).trans phase, fun m => (each _ m).trans pgmlock,
        fun m => (each _ m).trans short, fun m => (each _ m).trans gainlim⟩
    · have own := (movePoint_evaluated n (s.measureOf x) (s.updPoint n fun _ => s.scans.reads x)).own
      rw [State.updPoint_self] at own
      rw [value, reading]
      refine moved.trans (own.symm.trans ?_)
      have scanned : s.scans.reads x = { x with
          lastValue := s.measureOf x, lastScan := some u.scanNo, clipReading := s.nextReading x } := by
        rw [number]
        rfl
      rw [scanned]
      rfl
  · intro fall
    have fall_eq : fall = s.scans.falling := funext falls
    clear_value fall
    subst fall_eq
    refine ⟨fun l => ?_, ?_⟩
    · obtain ⟨cfg, pin, mem⟩ := gpo l
      refine ⟨cfg, pin, fun n => (mem n).trans ?_⟩
      unfold State.contributes
      simp only [mem_allPoints, true_and]
      rfl
    · refine link.trans (congrArg (fun lines => s.link.notices lines) (congrArg (fun f => allPoints.flatMap f) (funext fun n => ?_)))
      unfold State.scanLines Point.scanLine
      change _ = (if u.points[n].cfg.notify = true ∧ _ then _ else _)
      rw [visited]
      have scan : s.scans.scanNo = u.scanNo := number.symm
      rw [scan]
  · rw [rest]
    rfl

end Sys2Proof.Machine
end

section
/-! PROOFS, O48. Line functions, triggers and the watcher (R156, R159 to R161, R169). -/

namespace Sys2Proof.Machine

/-! ### What is handed to the programmes of a set (R160) -/

/-- R160: an action on the record of each defined programme of a set. -/
theorem onDefined_eq {ps : List ProgId} {f : ProgId → State → State} {s : State} (G : Pgm → Pgm) (once : ps.Nodup)
    (acts : ∀ t p, t.presets = s.presets → t.pgms[p].ctl.state ≠ .undefined → f p t = t.updPgm p G) :
    let u := onDefined ps f s
    u = { s with pgms := u.pgms } ∧
      ∀ p : ProgId, u.pgms[p] = if p ∈ ps ∧ s.pgms[p].ctl.state ≠ .undefined then G s.pgms[p] else s.pgms[p] := by
  let Same := fun t : State => t = { s with pgms := t.pgms }
  have own : ∀ t p, Same t → (if t.pgms[p].ctl.state = .undefined then t else f p t).pgms[p] =
      if t.pgms[p].ctl.state = .undefined then t.pgms[p] else G t.pgms[p] := by
    intro t p same
    split
    · rfl
    next defined => rw [acts t p (by rw [same]) defined, getElem_updPgm, if_pos rfl]
  have other : ∀ t p q, Same t → p ≠ q →
      (if t.pgms[p].ctl.state = .undefined then t else f p t).pgms[q] = t.pgms[q] := by
    intro t p q same apart
    split
    · rfl
    next defined => rw [acts t p (by rw [same]) defined, getElem_updPgm, if_neg apart]
  have keep : ∀ t p, Same t → Same (if t.pgms[p].ctl.state = .undefined then t else f p t) := by
    intro t p same
    split
    · exact same
    next defined =>
      rw [acts t p (by rw [same]) defined]
      change _ = { s with pgms := (t.updPgm p G).pgms }
      conv_lhs => rw [same]
      rfl
  refine ⟨foldl_keeps Same _ (fun t p same => keep t p same) ps s rfl, fun p => ?_⟩
  refine (foldl_pgms Same _ (fun _ g => if g.ctl.state = .undefined then g else G g) own other keep ps once s rfl p).trans ?_
  by_cases named : p ∈ ps
  · simp only [named, if_true, true_and, ne_eq, ite_not]
  · simp only [named, if_false, false_and]

/-- An action that does nothing the second time, on the record of each programme of a set. -/
theorem foldl_updPgm_again (G : Pgm → Pgm) (again : ∀ g, G (G g) = G g) (ps : List ProgId) (s : State) :
    let u := ps.foldl (fun s p => s.updPgm p G) s
    u = { s with pgms := u.pgms } ∧ ∀ p : ProgId, u.pgms[p] = if p ∈ ps then G s.pgms[p] else s.pgms[p] := by
  induction ps generalizing s with
  | nil => exact ⟨rfl, fun p => rfl⟩
  | cons q ps ih =>
    obtain ⟨frame, pgm⟩ := ih (s.updPgm q G)
    refine ⟨frame, fun p => (pgm p).trans ?_⟩
    rw [getElem_updPgm]
    by_cases e : q = p
    · subst e
      rw [if_pos rfl, again, ite_self, if_pos List.mem_cons_self]
    · simp only [if_neg e, List.mem_cons, Ne.symm e, false_or]

/-- R96: the integration reset of a programme's record. -/
def Pgm.integrated (g : Pgm) : Pgm :=
  if g.ctl.state = .running then { g with mtr := g.mtr.integrationReset } else g

/-- R96, R160: an integration reset of each programme of a set. -/
theorem onDefined_integrationReset (ps : List ProgId) (s : State) :
    onDefined ps integrationReset s = ps.foldl (fun s p => s.updPgm p Pgm.integrated) s := by
  have one : ∀ (t : State) (p : ProgId), (if t.pgms[p].ctl.state = .undefined then t else integrationReset p t) =
      t.updPgm p Pgm.integrated := by
    intro t p
    unfold integrationReset
    by_cases running : t.pgms[p].ctl.state = .running
    · rw [if_neg (by rw [running]; exact PgmState.noConfusion), if_pos running]
      exact State.updPgm_congr (f := fun g => { g with mtr := g.mtr.integrationReset }) (if_pos running).symm
    · have same : t.updPgm p Pgm.integrated = t := by
        unfold State.updPgm Pgm.integrated
        rw [if_neg running]
        refine congrArg (fun x => ({ t with pgms := x } : State)) ?_
        exact Vector.set_getElem_self p.isLt
      rw [if_neg running, same, ite_self]
  unfold onDefined
  simp only [one]

/-- R107: a push, at room and at depth 4. -/
theorem pushOn_eq (p : ProgId) (n : PresetId) (s : State) :
    pushOn p n s = s.updCor p fun _ => presetTaken s.pgms[p].ctl s.presets[n] (s.pgms[p].cor.push n) := by
  refine presetChange_updCor p (fun c => c.push n) s n ?_
  unfold Correction.push
  split
  · exact Correction.top_snoc _ _ n rfl
  · exact Correction.top_snoc _ _ n rfl

/-! ### The watcher (R161) -/

theorem fires_iff (w : Watch) (levels : Levels) (changed : List LineId) : w.fires levels changed = true ↔
    if w.cfg.mode = .event then ∃ k ∈ changed, k ∉ w.cfg.mask else w.equal = false ∧ w.cfg.agrees levels = true := by
  unfold Watch.fires
  cases w.cfg.mode with
  | event => simp
  | matching => simp [and_comm]

theorem trigger_slots (c : SlotId) (src : TrigSource) (s : State) (d : SlotId) :
    (trigger c src s).slots[d] = if c = d then (trigger d src s).slots[d] else s.slots[d] := by
  by_cases e : c = d
  · rw [if_pos e, e]
  · exact (getElem_updSlot s c d _).trans (by rw [if_neg e, if_neg e])

theorem trigger_own (c : SlotId) (src : TrigSource) {s t : State} (hc : t.hc = s.hc) (slot : t.slots[c] = s.slots[c]) :
    (trigger c src t).slots[c] = (trigger c src s).slots[c] := by
  unfold trigger
  rw [getElem_updSlot, getElem_updSlot, if_pos rfl, if_pos rfl, slot, hc]

/-- R161: a trigger that reaches slots one after the other. -/
theorem foldl_trigger (src : TrigSource) (cs : List SlotId) (once : cs.Nodup) (s : State) :
    let u := cs.foldl (fun s c => trigger c src s) s
    u = { s with slots := u.slots } ∧
      ∀ c : SlotId, u.slots[c] = if c ∈ cs then (trigger c src s).slots[c] else s.slots[c] := by
  induction cs generalizing s with
  | nil => exact ⟨rfl, fun c => rfl⟩
  | cons d cs ih =>
    obtain ⟨fresh, once⟩ := List.nodup_cons.mp once
    obtain ⟨frame, slot⟩ := ih once (trigger d src s)
    refine ⟨frame, fun c => (slot c).trans ?_⟩
    by_cases e : d = c
    · subst e
      rw [if_neg fresh, if_pos List.mem_cons_self]
    · have left : (trigger d src s).slots[c] = s.slots[c] := (trigger_slots d src s c).trans (if_neg e)
      rw [trigger_own (s := s) (t := trigger d src s) c src rfl left, left]
      simp only [List.mem_cons, Ne.symm e, false_or]

/-! ### Line functions (R160) -/

theorem trigger_takes (c : SlotId) (src : TrigSource) (s : State) :
    trigger c src s = s.updSlot c fun x =>
      if x.state = .armed ∧ src ∈ x.trigs then
        { x with state := .post, trigAt := some s.hc, trigSrc := some src, actualPre := some (min x.pre x.recorded) }
      else { x with ignored := min 65535 (x.ignored + 1) } := by
  unfold trigger Slot.takes
  simp only [decide_eq_true_eq]
  rfl

theorem State.updSlot_congr {s : State} {c : SlotId} {f g : Slot → Slot} (h : f s.slots[c] = g s.slots[c]) :
    s.updSlot c f = s.updSlot c g := by
  unfold State.updSlot
  rw [h]

theorem runFunction_idle (s : State) (l : LineId) (up : Bool) (h : HouseCount)
    (idle : s.gpis[l].cfg.func = .nothing ∨ (∃ ps, s.gpis[l].cfg.func = .hold ps) ∨
      up = false ∧ ((∃ ps, s.gpis[l].cfg.func = .reset ps) ∨ (∃ d, s.gpis[l].cfg.func = .capture d) ∨
        s.gpis[l].rewritten = true ∧ ∃ ps n, s.gpis[l].cfg.func = .brk ps n)) :
    runFunction { line := l, level := up, stamp := h } s = s := by
  rcases idle with func | ⟨ps, func⟩ | ⟨rfl, ⟨ps, func⟩ | ⟨d, func⟩ | ⟨mark, ps, n, func⟩⟩
  · simp only [runFunction, func]
  · simp only [runFunction, func]
  · simp only [runFunction, func]
  · simp only [runFunction, func]
  · simp only [runFunction, func, mark, if_true]

/-- R107, R159: what a release of BREAK makes of a programme. -/
def Pgm.released (presets : Vector Preset 16) (g : Pgm) : Pgm :=
  { g with cor :=
      if 2 ≤ g.cor.stack.length then
        presetTaken g.ctl presets[g.cor.stack.dropLast.getLastD 0] { g.cor with stack := g.cor.stack.dropLast }
      else { g.cor with underflow := min 65535 (g.cor.underflow + 1) } }

theorem popOrCount_eq (p : ProgId) (s : State) : (popOrCount p s).1 = s.updPgm p (Pgm.released s.presets) := by
  unfold popOrCount
  split
  next deep =>
    refine (popOn_eq p s).trans (State.updPgm_congr ?_)
    unfold Pgm.released
    rw [if_pos deep]
  next shallow =>
    refine State.updPgm_congr (f := fun g => { g with cor := { g.cor with underflow := countUp Config.count16 g.cor.underflow } }) ?_
    unfold Pgm.released
    rw [if_neg shallow]
    rfl

/-- Settles O48. -/
theorem changesActAndTrigger : Obligations.ChangesActAndTrigger := by
  intro s l up h c src changed go f x fired equal w
  have own : f = s.gpis[l].cfg.func := rfl
  have watched : ∀ b : Bool, s.watch.fires s.gpiLevels changed = b → w =
      if b then allSlots.foldl (fun s c => trigger c .watch s)
        { s with watch := { s.watch with equal := equal, latched := true,
                                         word := if s.watch.latched then s.watch.word else some s.gpiLevels } }
      else { s with watch := { s.watch with equal := equal } } := by
    rintro _ rfl
    simp only [w, evaluateWatch, equal]
    cases mode : s.watch.cfg.mode with
    | event => rfl
    | matching => rfl
  refine ⟨runFunction_idle s l up h, fun ps n func released plain once => ?_, fun ps n func asserted once => ?_,
    fun ps func asserted => ?_, fun d func asserted => ?_, fun hit => ?_, fun miss => ?_, fun quiet => ?_, fun fires => ?_⟩
  · have ran : go = onDefined ps (fun p s => (popOrCount p s).1) s := by
      subst released
      simp only [go, runFunction, ← own, func, plain, Bool.false_eq_true, if_false]
    rw [ran]
    exact onDefined_eq (Pgm.released s.presets) once fun t p same _ => by rw [popOrCount_eq, same]
  · have ran : go = onDefined ps (fun p s => pushOn p n s) s := by
      subst asserted
      simp only [go, runFunction, ← own, func]
    rw [ran]
    exact onDefined_eq (fun g => { g with cor := presetTaken g.ctl s.presets[n] (g.cor.push n) }) once fun t p same _ => by
      rw [pushOn_eq, same]
      exact State.updPgm_congr rfl
  · have ran : go = onDefined ps integrationReset s := by
      subst asserted
      simp only [go, runFunction, ← own, func]
    rw [ran, onDefined_integrationReset]
    have again : ∀ g : Pgm, g.integrated.integrated = g.integrated := by
      intro g
      unfold Pgm.integrated
      split
      · rfl
      · rfl
    obtain ⟨frame, pgm⟩ := foldl_updPgm_again Pgm.integrated again ps s
    refine ⟨frame, fun p => (pgm p).trans ?_⟩
    unfold Pgm.integrated
    by_cases named : p ∈ ps
    · simp only [named, if_true, true_and]
      rfl
    · simp only [named, if_false, false_and]
  · subst asserted
    simp only [go, runFunction, ← own, func]
  · rw [trigger_takes]
    exact State.updSlot_congr (if_pos hit)
  · rw [trigger_takes]
    exact State.updSlot_congr (if_neg miss)
  · exact watched false (Bool.eq_false_iff.mpr fun yes => quiet ((fires_iff _ _ _).mp yes))
  · have latched := watched true ((fires_iff _ _ _).mpr fires)
    rw [if_pos rfl] at latched
    obtain ⟨frame, slots⟩ := foldl_trigger .watch allSlots allSlots_nodup
      { s with watch := { s.watch with equal := equal, latched := true,
                                       word := if s.watch.latched then s.watch.word else some s.gpiLevels } }
    generalize allSlots.foldl (fun s c => trigger c .watch s) _ = u at *
    rw [latched]
    refine ⟨by rw [frame], by rw [frame], fun c => (slots c).trans ((if_pos (mem_allSlots c)).trans ?_)⟩
    exact trigger_own c .watch rfl rfl

end Sys2Proof.Machine
end

section
/-! PROOFS, O49. The settings of contact lines, of the watcher and of the outputs (R158, R159, R162 to R164). -/

namespace Sys2Proof.Machine

/-! ### GPI SET (R159) -/

/-- R159: GPI SET of words that can be read and name nothing out of range. -/
theorem reqGpiSet_read {s : State} {t k : Tok} {rest : List Tok} {l : LineId} {c : GpiCfg} {clamped : Bool}
    (line : Tok.fin? .G 8 t = some l) (inside : gpiOutside (k :: rest) = false)
    (read : readGpi (s.gpis[l].cfg, false) (k :: rest) = some (c, clamped)) :
    reqGpiSet (t :: k :: rest) s =
      let g := s.gpis[l].write c (decide (.kw .FUNCTION ∈ k :: rest))
      okClamped (gpiRecordFlds g) clamped { s with gpis := s.gpis.set l g } := by
  have words : readGpiSet (t :: k :: rest) s = some (l, c, clamped) := by
    unfold readGpiSet
    simp only [line, read, Option.map_some]
  have notKey : t ≠ .kw .FUNCTION := by
    obtain ⟨x, number, -⟩ := Tok.fin?_index line
    exact index_not_keyword number .FUNCTION
  have named : decide (Tok.kw .FUNCTION ∈ t :: k :: rest) = decide (Tok.kw .FUNCTION ∈ k :: rest) := by
    refine decide_eq_decide.mpr ?_
    rw [List.mem_cons]
    exact or_iff_right notKey.symm
  have within : (outside .G 8 (t :: k :: rest)[0]? || gpiOutside ((t :: k :: rest).drop 1)) = false := by
    change (outside .G 8 (some t) || gpiOutside (k :: rest)) = false
    rw [outside_fin line, inside]
    rfl
  unfold reqGpiSet
  rw [withArgs_read within words, named]
  dsimp only
  have own : (s.updGpi l fun g => g.write c (decide (Tok.kw .FUNCTION ∈ k :: rest))).gpis[l] =
      s.gpis[l].write c (decide (Tok.kw .FUNCTION ∈ k :: rest)) := by
    simp [State.updGpi]
  rw [own]
  rfl

theorem gpiOutside_refused {s : State} {t : Tok} {rest : List Tok} (out : gpiOutside rest = true) :
    reqGpiSet (t :: rest) s = refuse .range s := by
  refine withArgs_range ?_
  change (outside .G 8 (some t) || gpiOutside rest) = true
  rw [out, Bool.or_true]

theorem reqGpiSet_unread {s : State} {t : Tok} {rest : List Tok} {l : LineId} (line : Tok.fin? .G 8 t = some l)
    (inside : gpiOutside rest = false) (unread : rest = [] ∨ readGpi (s.gpis[l].cfg, false) rest = none) :
    reqGpiSet (t :: rest) s = refuse .synErr s := by
  refine withArgs_unread ?_ ?_
  · change (outside .G 8 (some t) || gpiOutside rest) = false
    rw [outside_fin line, inside]
    rfl
  · unfold readGpiSet
    cases rest with
    | nil => rfl
    | cons k rest =>
      have no : readGpi (s.gpis[l].cfg, false) (k :: rest) = none := unread.resolve_left (List.cons_ne_nil k rest)
      simp only [line, no, Option.map_none]

/-- R159: the settings, keyword by keyword. -/
theorem readGpi_keywords (t : Tok) (rest : List Tok) (c : GpiCfg) (b : Bool) :
    (∀ y, Tok.polarity? t = some y → readGpi (c, b) (.kw .POLARITY :: t :: rest) = readGpi ({ c with polarity := y }, b) rest) ∧
    (∀ n, Tok.int? t = some n → readGpi (c, b) (.kw .DEBOUNCE :: t :: rest) =
      readGpi ({ c with debounce := (max 2 (min n 64)).toNat }, b || decide (n < 2 ∨ 64 < n)) rest) ∧
    readGpi (c, b) (.kw .FUNCTION :: .kw .NONE :: rest) = readGpi ({ c with func := .nothing }, b) rest ∧
    (∀ ps u n, progSet t = some ps → Tok.fin? .PS 16 u = some n →
      readGpi (c, b) (.kw .FUNCTION :: .kw .HOLD :: t :: rest) = readGpi ({ c with func := .hold ps }, b) rest ∧
      readGpi (c, b) (.kw .FUNCTION :: .kw .RESET :: t :: rest) = readGpi ({ c with func := .reset ps }, b) rest ∧
      readGpi (c, b) (.kw .FUNCTION :: .kw .BREAK :: t :: u :: rest) = readGpi ({ c with func := .brk ps n }, b) rest) ∧
    ∀ d, Tok.fin? .C 2 t = some d →
      readGpi (c, b) (.kw .FUNCTION :: .kw .CAPTURE :: t :: rest) = readGpi ({ c with func := .capture d }, b) rest := by
  refine ⟨fun y read => ?_, fun n read => ?_, ?_, fun ps u n set number => ⟨?_, ?_, ?_⟩, fun d slot => ?_⟩
  · rw [readGpi, read]
  · have note : (clampNote 2 64 n).2 = decide (n < 2 ∨ 64 < n) := decide_eq_decide.mpr (by unfold clampInt; omega)
    rw [readGpi, read]
    simp only [note]
    rfl
  · rw [readGpi]
  · rw [readGpi, set]
  · rw [readGpi, set]
  · rw [readGpi, set, number]
  · rw [readGpi, slot]

/-! ### WATCH SET (R162) -/

theorem items_mode (m : WatchMode) : Tok.items? .G (.kw m.kw) = none := by cases m <;> rfl

theorem items_not_digits {k : NameKind} {t : Tok} {ns : List Int} (read : Tok.items? k t = some ns) (w : Levels) : t ≠ .digits w := by
  rintro rfl
  exact nomatch read

theorem items_not_mode {t : Tok} {ns : List Int} (read : Tok.items? .G t = some ns) (m : WatchMode) : t ≠ .kw m.kw := by
  rintro rfl
  exact nomatch (items_mode m).symm.trans read

theorem itemsOutside_items {k : NameKind} {n : Nat} {t : Tok} {ls : List (Fin n)}
    (read : (Tok.items? k t).bind (asFins n) = some ls) : itemsOutside k n (some t) = false := by
  obtain ⟨ns, items, inside⟩ := Option.bind_eq_some_iff.mp read
  unfold itemsOutside
  simp only [Option.bind_some, items, inside, Option.isNone_some]

theorem itemsOutside_unread {k : NameKind} {n : Nat} {t : Tok} (read : Tok.items? k t = none) :
    itemsOutside k n (some t) = false := by
  unfold itemsOutside
  simp only [Option.bind_some, read]

theorem itemsOutside_beyond {k : NameKind} {t : Tok} {ns : List Int} (read : Tok.items? k t = some ns)
    (out : ∃ x ∈ ns, x < 0 ∨ 7 < x) : itemsOutside k 8 (some t) = true := by
  obtain ⟨x, mem, far⟩ := out
  exact itemsOutside_iff.mpr ⟨t, ns, rfl, read, x, mem, by omega⟩

/-- R162: the words behind the mode begin with a mask, with a compare word, or are none. -/
theorem behindMode_items {t : Tok} {rest : List Tok} (read : (Tok.items? .G t).isSome = true) :
    behindMode (t :: rest) = t :: rest := by
  unfold behindMode
  split
  next no => exact nomatch no
  next w _ same =>
    obtain ⟨rfl, rfl⟩ := List.cons.inj same
    rfl
  next same =>
    obtain ⟨rfl, rfl⟩ := List.cons.inj same
    exact if_pos read

theorem behindMode_other {t : Tok} {rest : List Tok} (read : Tok.items? .G t = none) (plain : ∀ w, t ≠ .digits w) :
    behindMode (t :: rest) = rest := by
  unfold behindMode
  split
  next no => exact nomatch no
  next w _ same => exact absurd (List.cons.inj same).1 (plain w)
  next same =>
    obtain ⟨rfl, rfl⟩ := List.cons.inj same
    rw [read]
    rfl

/-- R162: the compare word, where one is named. -/
theorem readWatch_word (c : WatchCfg) (w : Option Levels) :
    readWatch c (w.toList.map Tok.digits) = some { c with compare := w.getD c.compare } := by
  cases w <;> rfl

theorem readWatch_mask (c : WatchCfg) (t : Tok) (ls : List LineId) (w : Option Levels)
    (read : (Tok.items? .G t).bind (asFins 8) = some ls) :
    readWatch c (t :: w.toList.map Tok.digits) =
      some { c with mask := allLines.filter (· ∈ ls), compare := w.getD c.compare } := by
  obtain ⟨ns, items, -⟩ := Option.bind_eq_some_iff.mp read
  have notEvent : t ≠ .kw .EVENT := items_not_mode items .event
  have notMatch : t ≠ .kw .MATCH := items_not_mode items .matching
  unfold readWatch
  split
  next same => exact absurd (List.cons.inj same).1 notEvent
  next same => exact absurd (List.cons.inj same).1 notMatch
  next => cases w <;> simp only [read, Option.toList, List.map_nil, List.map_cons] <;> rfl

theorem readWatch_mode (c : WatchCfg) (m : WatchMode) (rest : List Tok) (plain : ∀ n : WatchMode, rest.head? ≠ some (.kw n.kw)) :
    readWatch c (.kw m.kw :: rest) = readWatch { c with mode := m } rest := by
  have through : ∀ d : WatchCfg, readWatch d rest =
      (let k : WatchCfg × List Tok := match rest with
        | t :: rest =>
          match (Tok.items? .G t).bind (asFins 8) with
          | some l => ({ d with mask := asSet8 l }, rest)
          | none => (d, t :: rest)
        | [] => (d, [])
      match k.2 with
      | [] => some k.1
      | [.digits w] => some { k.1 with compare := w }
      | _ => none) := by
    intro d
    unfold readWatch
    split
    next rest' same => exact absurd rfl (plain .event)
    next rest' same => exact absurd rfl (plain .matching)
    next =>
      cases rest with
      | nil => rfl
      | cons t rest => rfl
  rw [through]
  cases m <;> cases rest <;> rfl

/-- R162: WATCH SET of words in the order mode, mask, compare word. -/
theorem reqWatchSet_words (s : State) (m : Option WatchMode) (mask : Option Tok) (ls : List LineId) (w : Option Levels)
    (read : ∀ t ∈ mask, (Tok.items? .G t).bind (asFins 8) = some ls) :
    let c : WatchCfg := { mode := m.getD s.watch.cfg.mode,
                          mask := if mask.isSome then allLines.filter (· ∈ ls) else s.watch.cfg.mask,
                          compare := w.getD s.watch.cfg.compare }
    reqWatchSet ((m.toList.map fun m => Tok.kw m.kw) ++ mask.toList ++ w.toList.map Tok.digits) s =
      okReply [] { s with watch := { s.watch with cfg := c, equal := c.agrees s.gpiLevels } } := by
  intro c
  have words : readWatch s.watch.cfg ((m.toList.map fun m => Tok.kw m.kw) ++ mask.toList ++ w.toList.map Tok.digits) =
      some c := by
    have behind : ∀ d : WatchCfg, readWatch d (mask.toList ++ w.toList.map Tok.digits) =
        some { d with mask := if mask.isSome then allLines.filter (· ∈ ls) else d.mask, compare := w.getD d.compare } := by
      intro d
      cases mask with
      | none => exact readWatch_word d w
      | some t => exact readWatch_mask d t ls w (read t rfl)
    cases m with
    | none => exact behind s.watch.cfg
    | some m =>
      refine (readWatch_mode s.watch.cfg m (mask.toList ++ w.toList.map Tok.digits) fun n => ?_).trans (behind _)
      cases mask with
      | none => cases w <;> simp
      | some t =>
        obtain ⟨ns, items, -⟩ := Option.bind_eq_some_iff.mp (read t rfl)
        exact fun same => items_not_mode items n (Option.some.inj same)
  have inside : itemsOutside .G 8
      (behindMode ((m.toList.map fun m => Tok.kw m.kw) ++ mask.toList ++ w.toList.map Tok.digits))[0]? = false := by
    have behind : itemsOutside .G 8 (mask.toList ++ w.toList.map Tok.digits)[0]? = false := by
      cases mask with
      | none => cases w <;> rfl
      | some t => exact itemsOutside_items (read t rfl)
    cases m with
    | some m =>
      have skip : behindMode (((some m).toList.map fun m => Tok.kw m.kw) ++ mask.toList ++ w.toList.map Tok.digits) =
          mask.toList ++ w.toList.map Tok.digits :=
        behindMode_other (items_mode m) fun w no => nomatch no
      rw [skip]
      exact behind
    | none =>
      have same : behindMode (mask.toList ++ w.toList.map Tok.digits) = mask.toList ++ w.toList.map Tok.digits := by
        cases mask with
        | none => cases w <;> rfl
        | some t =>
          obtain ⟨ns, items, -⟩ := Option.bind_eq_some_iff.mp (read t rfl)
          exact behindMode_items (by rw [items]; rfl)
      change itemsOutside .G 8 (behindMode (mask.toList ++ w.toList.map Tok.digits))[0]? = false
      rw [same]
      exact behind
  exact withArgs_read inside words

/-! ### GPO HOLD (R164) -/

theorem Gpo.setHeld_eq (g : Gpo) (b : Bool) :
    let level := g.cfg.manual || decide (g.contrib ≠ [])
    g.setHeld b = { g with
      cfg := { g.cfg with held := b }
      pin := if g.cfg.held = true ∧ ¬ b = true then (if g.cfg.polarity = .high then level else !level) else g.pin } := by
  intro level
  unfold Gpo.setHeld
  dsimp only
  by_cases leaves : g.cfg.held = true ∧ ¬ b = true
  · rw [if_pos leaves, if_pos leaves, Gpo.next_eq]
    have free : b = false := Bool.eq_false_iff.mpr leaves.2
    rw [free]
    rfl
  · rw [if_neg leaves, if_neg leaves]

/-- R164: a new hold mask, line by line. -/
theorem foldl_setHeld (mask ls : List LineId) (once : ls.Nodup) (s : State) :
    let u := ls.foldl (fun s l => s.updGpo l fun g => g.setHeld (decide (l ∈ mask))) s
    u = { s with gpos := u.gpos } ∧
      ∀ l : LineId, u.gpos[l] = if l ∈ ls then s.gpos[l].setHeld (decide (l ∈ mask)) else s.gpos[l] := by
  induction ls generalizing s with
  | nil => exact ⟨rfl, fun l => rfl⟩
  | cons j ls ih =>
    obtain ⟨fresh, once⟩ := List.nodup_cons.mp once
    obtain ⟨frame, gpo⟩ := ih once (s.updGpo j fun g => g.setHeld (decide (j ∈ mask)))
    refine ⟨frame, fun l => (gpo l).trans ?_⟩
    rw [getElem_updGpo]
    by_cases e : j = l
    · subst e
      rw [if_pos rfl, if_neg fresh, if_pos List.mem_cons_self]
    · simp only [if_neg e, List.mem_cons, Ne.symm e, false_or]

theorem reqGpoHold_mask {s : State} {t : Tok} {mask : List LineId} (read : (Tok.items? .Q t).bind (asFins 8) = some mask) :
    ∃ u : State, reqGpoHold [t] s = okReply [] u ∧ u = { s with gpos := u.gpos } ∧
      ∀ l : LineId, u.gpos[l] = s.gpos[l].setHeld (decide (l ∈ mask)) := by
  obtain ⟨ns, items, inside⟩ := Option.bind_eq_some_iff.mp read
  obtain ⟨frame, gpo⟩ := foldl_setHeld mask allLines allLines_nodup s
  refine ⟨_, ?_, frame, fun l => (gpo l).trans (if_pos (mem_allLines l))⟩
  simp only [reqGpoHold, items, inside]

/-- R164: an output line out of range is refused with RANGE, whatever stands behind it. -/
theorem gpoLine_range {s : State} {t : Tok} {n : Int} (rest : List Tok) (number : Tok.index? .Q t = some n)
    (far : n < 0 ∨ ((8 : Nat) : Int) ≤ n) :
    reqGpoSet (t :: rest) s = refuse .range s ∧ reqGpoPolarity (t :: rest) s = refuse .range s := by
  have out : misshapen (outside .Q 8 (some t)) s = refuse .range s := by
    unfold misshapen
    rw [outside_range number far]
    rfl
  rcases rest with _ | ⟨x, _ | ⟨y, rest⟩⟩
  · exact ⟨out, out⟩
  · exact ⟨withIndex_range number far, withIndex_range number far⟩
  · exact ⟨out, out⟩

/-- R159: the numbers among the settings of GPI SET. -/
theorem gpiOutside_set {k : Kw} (set : k ∈ [Kw.HOLD, .RESET, .BREAK]) {t : Tok} {ns : List Int} (rest : List Tok)
    (items : Tok.items? .P t = some ns) (out : ∃ x ∈ ns, x < 0 ∨ 7 < x) :
    gpiOutside (.kw .FUNCTION :: .kw k :: t :: rest) = true := by
  have beyond := itemsOutside_beyond items out
  simp only [List.mem_cons, List.not_mem_nil, or_false] at set
  rcases set with rfl | rfl | rfl <;> simp only [gpiOutside, beyond, Bool.true_or]

theorem gpiOutside_preset {t u : Tok} {n : Int} (rest : List Tok) (number : Tok.index? .PS u = some n)
    (far : n < 0 ∨ ((16 : Nat) : Int) ≤ n) : gpiOutside (.kw .FUNCTION :: .kw .BREAK :: t :: u :: rest) = true := by
  have beyond : outside .PS 16 (u :: rest)[0]? = true := outside_range number far
  simp only [gpiOutside, beyond, Bool.or_true, Bool.true_or]

theorem gpiOutside_slot {t : Tok} {n : Int} (rest : List Tok) (number : Tok.index? .C t = some n)
    (far : n < 0 ∨ ((2 : Nat) : Int) ≤ n) : gpiOutside (.kw .FUNCTION :: .kw .CAPTURE :: t :: rest) = true := by
  have beyond : outside .C 2 (some t) = true := outside_range number far
  simp only [gpiOutside, beyond, Bool.true_or]

theorem reqWatchSet_range {s : State} {args behind : List Tok} {t : Tok} {ns : List Int} (words : behindMode args = t :: behind)
    (items : Tok.items? .G t = some ns) (out : ∃ x ∈ ns, x < 0 ∨ 7 < x) : reqWatchSet args s = refuse .range s := by
  refine withArgs_range ?_
  rw [words]
  exact itemsOutside_beyond items out

/-- R162: a word that is neither a mask nor a compare word, behind the mode or instead of it. -/
theorem reqWatchSet_word {s : State} {t : Tok} (items : Tok.items? .G t = none) (plain : ∀ w, t ≠ .digits w) :
    ((∀ m : WatchMode, t ≠ .kw m.kw) → reqWatchSet [t] s = refuse .synErr s) ∧
      ∀ m : WatchMode, reqWatchSet [.kw m.kw, t] s = refuse .synErr s := by
  have none_left : ∀ c : WatchCfg, (match [t] with
      | [] => some c
      | [.digits w] => some { c with compare := w }
      | _ => none) = none := by
    intro c
    split
    next no => exact nomatch no
    next w same => exact absurd (List.cons.inj same).1 (plain w)
    next => rfl
  refine ⟨fun noMode => withArgs_unread ?_ ?_, fun m => withArgs_unread ?_ ?_⟩
  · rw [behindMode_other items plain]
    rfl
  · unfold readWatch
    split
    next same => exact absurd (List.cons.inj same).1 (noMode .event)
    next same => exact absurd (List.cons.inj same).1 (noMode .matching)
    next =>
      simp only [items, Option.bind_none]
      exact none_left _
  · rw [behindMode_other (items_mode m) fun w no => nomatch no]
    exact itemsOutside_unread items
  · cases m with
    | event =>
      simp only [WatchMode.kw, readWatch, items, Option.bind_none]
      exact none_left _
    | matching =>
      simp only [WatchMode.kw, readWatch, items, Option.bind_none]
      exact none_left _

/-- Settles O49. -/
theorem contactSettingsAreWritten : Obligations.ContactSettingsAreWritten := by
  intro s tag ready ht
  refine ⟨fun t k rest l c clamped line inside read => ?gpiSet, readGpi_keywords, fun empty => ?popNone,
    fun e rest queue => ?popOne, fun m mask ls w read => ?watchSet, fun t y l line => ⟨fun b bit => ?_, fun z pol => ?_,
      fun unread => ?_, fun unread => ?_⟩, fun t rest n far => ⟨fun number => ⟨?_, ?_⟩, fun number => ?_⟩,
    fun t rest l line => ⟨fun out => ?_, fun inside unread => ?_⟩, fun t u rest ns n => ?_, fun t mask read => ?_⟩
  case gpiSet =>
    have func : gpiFuncFlds c.func = match c.func with
        | .nothing => [.kw .NONE]
        | .hold ps => [.kw .HOLD, finsFld ps]
        | .brk ps n => [.kw .BREAK, finsFld ps, .num n.val]
        | .reset ps => [.kw .RESET, finsFld ps]
        | .capture x => [.kw .CAPTURE, .num x.val] := by
      cases c.func <;> rfl
    intro settings fields level breaks
    have shown : gpiRecordFlds (s.gpis[l].write c (decide (.kw .FUNCTION ∈ k :: rest))) = settings ++ fields ++ level := by
      change ([.kw c.polarity.kw, natFld c.debounce] ++ gpiFuncFlds c.func) ++ _ = _
      rw [func]
      rfl
    have noted : flagIf clamped .clamped = if clamped then [RFlag.clamped] else [] := by cases clamped <;> rfl
    rw [← shown, ← noted]
    exact receive_okFlags ready ht (reqGpiSet_read line inside read)
  case popNone =>
    refine receive_ok (f := reqGpiPop []) ready ht ?_
    simp only [reqGpiPop, gpiFifoFlds, empty]
    rfl
  case popOne =>
    refine receive_ok (f := reqGpiPop []) ready ht ?_
    have flag : (s.gpiOverflow && !rest.isEmpty) = if rest = [] then false else s.gpiOverflow := by
      cases rest <;> simp
    simp only [reqGpiPop, gpiFifoFlds, queue, flag]
    rfl
  case watchSet => exact receive_ok ready ht (reqWatchSet_words s m mask ls w read)
  · refine receive_ok (f := reqGpoSet [t, y]) ready ht ((withIndex_fin line).trans ?_)
    rw [bit]
    rfl
  · refine receive_ok (f := reqGpoPolarity [t, y]) ready ht ((withIndex_fin line).trans ?_)
    rw [pol]
  · refine receive_er (f := reqGpoSet [t, y]) ready ht ((withIndex_fin line).trans ?_)
    rw [unread]
  · refine receive_er (f := reqGpoPolarity [t, y]) ready ht ((withIndex_fin line).trans ?_)
    rw [unread]
  · exact receive_er ready ht (gpoLine_range rest number (by omega)).1
  · exact receive_er ready ht (gpoLine_range rest number (by omega)).2
  · refine receive_er (f := reqGpiSet (t :: rest)) ready ht (withArgs_range ?_)
    change (outside .G 8 (some t) || gpiOutside rest) = true
    rw [outside_range number (by omega)]
    rfl
  · exact receive_er ready ht (gpiOutside_refused out)
  · exact receive_er ready ht (reqGpiSet_unread line inside unread)
  · refine ⟨fun items out k set => gpiOutside_set set rest items out, fun number far => gpiOutside_preset rest number (by omega),
      fun number far => gpiOutside_slot rest number (by omega), fun items => ?_, fun items out => ?_,
      fun items out => ⟨?_, fun unread plain => ?_⟩, fun items plain => ⟨fun noMode => ?_, fun m => ?_⟩, fun w => ?_⟩
    · refine receive_er (f := reqGpoHold [t]) ready ht ?_
      simp only [reqGpoHold, items]
    · refine receive_er (f := reqGpoHold [t]) ready ht ?_
      obtain ⟨x, mem, far⟩ := out
      simp only [reqGpoHold, items, asFins_eq_none.mpr ⟨x, mem, (by omega : x < 0 ∨ ((8 : Nat) : Int) ≤ x)⟩]
    · exact receive_er ready ht (reqWatchSet_range (behindMode_items (by rw [items]; rfl)) items out)
    · exact receive_er ready ht (reqWatchSet_range (behindMode_other unread plain) items out)
    · exact receive_er ready ht ((reqWatchSet_word items plain).1 noMode)
    · exact receive_er ready ht ((reqWatchSet_word items plain).2 m)
    · exact receive_er (f := reqWatchSet [.digits w, t]) ready ht rfl
  · obtain ⟨u, answer, frame, gpo⟩ := reqGpoHold_mask (s := s) read
    refine ⟨u, receive_ok ready ht answer, frame, fun l => (gpo l).trans ?_⟩
    rw [Gpo.setHeld_eq]
    simp only [decide_eq_true_eq]

end Sys2Proof.Machine
end

section
/-! PROOFS, O47. A sample instant: debounce, the event FIFO and the delivery of the changes (R154 to R157, R165). -/

namespace Sys2Proof.Machine

/-! ### What a delivered change leaves alone (R156, R160, R161) -/

theorem onDefined_frame (ps : List ProgId) (f : ProgId → State → State) (writes : ∀ p t, ∃ g, f p t = t.updPgm p g) (s : State) :
    onDefined ps f s = { s with pgms := (onDefined ps f s).pgms } := by
  refine foldl_keeps (fun t => t = { s with pgms := t.pgms }) _ (fun t p same => ?_) ps s rfl
  split
  · exact same
  · obtain ⟨g, wrote⟩ := writes p t
    rw [wrote]
    conv_lhs => rw [same]
    rfl

theorem integrationReset_eq (p : ProgId) (s : State) : integrationReset p s = s.updPgm p Pgm.integrated := by
  unfold integrationReset
  by_cases running : s.pgms[p].ctl.state = .running
  · rw [if_pos running]
    exact State.updPgm_congr (f := fun g => { g with mtr := g.mtr.integrationReset }) (if_pos running).symm
  · rw [if_neg running]
    unfold State.updPgm Pgm.integrated
    rw [if_neg running]
    exact congrArg (fun x => ({ s with pgms := x } : State)) (Vector.set_getElem_self p.isLt).symm

theorem runFunction_frame (c : GpiChange) (s : State) :
    runFunction c s = { s with pgms := (runFunction c s).pgms, slots := (runFunction c s).slots } := by
  have programmes : ∀ u : State, u = { s with pgms := u.pgms } → u = { s with pgms := u.pgms, slots := u.slots } := by
    intro u same
    have slots : u.slots = s.slots := by rw [same]
    rw [slots]
    exact same
  unfold runFunction
  split
  · exact programmes _ (onDefined_frame _ _ (fun p t => ⟨_, pushOn_eq p _ t⟩) s)
  · split
    · rfl
    · exact programmes _ (onDefined_frame _ _ (fun p t => ⟨_, popOrCount_eq p t⟩) s)
  · exact programmes _ (onDefined_frame _ _ (fun p t => ⟨_, integrationReset_eq p t⟩) s)
  · rfl
  · rfl

theorem probeMarker_frame (l : LineId) (t : HouseCount) (s : State) :
    let u := probeMarker l t s
    u = { s with pgms := u.pgms, owners := u.owners, probe := u.probe, link := u.link } := by
  have ended : ∀ p : Probe, probeOutcome { s with probe := p } = { s with
      pgms := (probeOutcome { s with probe := p }).pgms, owners := (probeOutcome { s with probe := p }).owners,
      probe := (probeOutcome { s with probe := p }).probe, link := (probeOutcome { s with probe := p }).link } := fun p =>
    (probeOutcome_frame { s with probe := p }).1
  intro u
  simp only [u]
  unfold probeMarker
  dsimp only
  split
  · split
    · exact ended _
    · split
      · exact ended _
      · rfl
  · rfl

theorem evaluateWatch_frame (changed : List LineId) (s : State) :
    let u := evaluateWatch changed s
    u = { s with slots := u.slots, watch := u.watch } := by
  obtain ⟨-, -, -, -, -, -, -, quiet, fires⟩ := changesActAndTrigger s 0 false 0 0 .watch changed
  by_cases fired : (if s.watch.cfg.mode = .event then ∃ k ∈ changed, k ∉ s.watch.cfg.mask
      else s.watch.equal = false ∧ s.watch.cfg.agrees s.gpiLevels = true)
  · exact (fires fired).1
  · intro u
    have same := quiet fired
    simp only [u]
    rw [same]

/-! ### The event FIFO (R157) -/

/-- R156: a record of the event FIFO, as the change that is delivered. -/
def GpiEvent.change (e : GpiEvent) : GpiChange := { line := e.line, level := e.level, stamp := e.stamp }

/-- R157: a record joins the event FIFO, or is lost. -/
def State.recordsEvent (s : State) (e : GpiEvent) : State :=
  if s.gpiFifo.length < 32 then { s with gpiFifo := s.gpiFifo ++ [e] } else { s with gpiOverflow := true }

/-- R156: one change, delivered. -/
def State.delivers (s : State) (e : GpiEvent) : State :=
  let v := runFunction e.change (s.recordsEvent e)
  if e.level then probeMarker e.line e.stamp v else v

theorem deliver_change (s : State) (e : GpiEvent) : deliver s e.change = s.delivers e := rfl

/-- R156, R157: what a delivered change leaves, and what it makes of the event FIFO. -/
structure Delivered (s : State) (es : List GpiEvent) (u : State) : Prop where
  rest : u = { s with gpiFifo := u.gpiFifo, gpiOverflow := u.gpiOverflow, pgms := u.pgms, owners := u.owners,
                      probe := u.probe, slots := u.slots, link := u.link }
  fifo : s.gpiFifo.length ≤ 32 → u.gpiFifo = (s.gpiFifo ++ es).take 32
  overflow : s.gpiFifo.length ≤ 32 → u.gpiOverflow = (s.gpiOverflow || decide (32 < s.gpiFifo.length + es.length))

theorem delivers_frame (s : State) (e : GpiEvent) :
    s.delivers e = { s.recordsEvent e with
      pgms := (s.delivers e).pgms, owners := (s.delivers e).owners, probe := (s.delivers e).probe,
      slots := (s.delivers e).slots, link := (s.delivers e).link } := by
  unfold State.delivers
  dsimp only
  have ran := runFunction_frame e.change (s.recordsEvent e)
  generalize runFunction e.change (s.recordsEvent e) = v at *
  split
  · have marked := probeMarker_frame e.line e.stamp v
    dsimp only at marked
    generalize probeMarker e.line e.stamp v = w at *
    have slots : w.slots = v.slots := by rw [marked]
    rw [slots]
    conv_lhs => rw [marked, ran]
  · conv_lhs => rw [ran]
    have owners : v.owners = (s.recordsEvent e).owners := by rw [ran]
    have probe : v.probe = (s.recordsEvent e).probe := by rw [ran]
    have link : v.link = (s.recordsEvent e).link := by rw [ran]
    rw [owners, probe, link]

theorem delivers_delivered (s : State) (e : GpiEvent) : Delivered s [e] (s.delivers e) := by
  have frame := delivers_frame s e
  generalize s.delivers e = u at *
  have fifo : u.gpiFifo = (s.recordsEvent e).gpiFifo := by rw [frame]
  have overflow : u.gpiOverflow = (s.recordsEvent e).gpiOverflow := by rw [frame]
  have rest : u = { s with
      gpiFifo := u.gpiFifo, gpiOverflow := u.gpiOverflow, pgms := u.pgms, owners := u.owners, probe := u.probe,
      slots := u.slots, link := u.link } := by
    rw [fifo, overflow]
    conv_lhs => rw [frame]
    unfold State.recordsEvent
    split <;> rfl
  refine ⟨rest, fun bound => ?_, fun bound => ?_⟩
  · rw [fifo]
    unfold State.recordsEvent
    by_cases room : s.gpiFifo.length < 32
    · rw [if_pos room, List.take_of_length_le (by simp; omega)]
    · rw [if_neg room, List.take_append_of_le_length (by omega), List.take_of_length_le bound]
  · rw [overflow]
    unfold State.recordsEvent
    by_cases room : s.gpiFifo.length < 32
    · rw [if_pos room, decide_eq_false (by simp; omega), Bool.or_false]
    · rw [if_neg room, decide_eq_true (by simp; omega), Bool.or_true]

theorem Delivered.append {s t u : State} {es : List GpiEvent} {e : GpiEvent} (before : Delivered s es t)
    (last : Delivered t [e] u) : Delivered s (es ++ [e]) u := by
  obtain ⟨rest, fifo, overflow⟩ := before
  obtain ⟨rest', fifo', overflow'⟩ := last
  have bound (h : s.gpiFifo.length ≤ 32) : t.gpiFifo.length ≤ 32 := by
    rw [fifo h, List.length_take]
    exact Nat.min_le_left _ _
  refine ⟨?_, fun h => ?_, fun h => ?_⟩
  · conv_lhs => rw [rest', rest]
  · rw [fifo' (bound h), fifo h, ← List.append_assoc]
    generalize s.gpiFifo ++ es = l
    have left : 32 - min 32 l.length = 32 - l.length := by omega
    rw [List.take_append, List.take_append, List.take_take, List.length_take, Nat.min_self, left]
  · rw [overflow' (bound h), overflow h, fifo h, Bool.or_assoc, ← Bool.decide_or]
    refine congrArg (s.gpiOverflow || ·) (decide_eq_decide.mpr ?_)
    simp only [List.length_take, List.length_append, List.length_cons, List.length_nil]
    omega

theorem foldl_delivers (s : State) (es : List GpiEvent) : Delivered s es (es.foldl State.delivers s) := by
  induction es using List.reverseRecOn with
  | nil =>
    refine ⟨rfl, fun h => ?_, fun h => ?_⟩
    · rw [List.append_nil, List.take_of_length_le h]
      rfl
    · rw [List.length_nil, Nat.add_zero, decide_eq_false (Nat.not_lt.mpr h), Bool.or_false]
      rfl
  | append_singleton es e ih =>
    rw [List.foldl_append]
    exact ih.append (delivers_delivered _ e)

/-! ### Debounce (R154, R155) -/

theorem sampled_eq (c : GpiCfg) (high : Bool) : c.sampled high = if c.polarity = .low then !high else high := by
  unfold GpiCfg.sampled
  cases c.polarity <;> rfl

/-- R155: when a run of differing samples began. -/
def Gpi.begun (g : Gpi) (h : HouseCount) : HouseCount := if g.run = 0 then h else g.runStart.getD h

/-- R155: a sample completes the debounce of a line. -/
def Gpi.turns (g : Gpi) (sampled : Bool) : Bool := decide (sampled ≠ g.level ∧ g.cfg.debounce ≤ g.run + 1)

theorem Gpi.step_same {g : Gpi} {h : HouseCount} {sampled : Bool} (same : ¬ sampled ≠ g.level) :
    g.step h sampled = ({ g with run := 0, runStart := none }, none) := if_pos (not_not.mp same)

theorem Gpi.step_turns {g : Gpi} {h : HouseCount} {sampled : Bool} (turns : g.turns sampled = true) :
    g.step h sampled = ({ g with level := sampled, run := 0, runStart := none, rewritten := g.rewritten && !sampled },
      some (g.begun h)) := by
  obtain ⟨differs, enough⟩ := of_decide_eq_true turns
  exact (if_neg differs).trans (if_pos enough)

theorem Gpi.step_runs {g : Gpi} {h : HouseCount} {sampled : Bool} (differs : sampled ≠ g.level)
    (stays : g.turns sampled = false) : g.step h sampled = ({ g with run := g.run + 1, runStart := some (g.begun h) }, none) := by
  have few : ¬ g.cfg.debounce ≤ g.run + 1 := fun enough => of_decide_eq_false stays ⟨differs, enough⟩
  exact (if_neg differs).trans (if_neg few)

theorem Gpi.step_stamp (g : Gpi) (h : HouseCount) (sampled : Bool) :
    (g.step h sampled).2 = if g.turns sampled then some (g.begun h) else none := by
  cases turns : g.turns sampled with
  | true => rw [Gpi.step_turns turns]; rfl
  | false =>
    by_cases differs : sampled ≠ g.level
    · rw [Gpi.step_runs differs turns]; rfl
    · rw [Gpi.step_same differs]; rfl

/-- R156: the records of an instant, in line order. -/
def State.instantRecords (s : State) (sampled : LineId → Bool) : List GpiEvent :=
  (allLines.filter fun l => s.gpis[l].turns (sampled l)).map fun l =>
    { line := l, level := sampled l, stamp := s.gpis[l].begun s.hc }

theorem gpiChanges_eq (s : State) (levels : Levels) :
    s.gpiChanges levels =
      (s.instantRecords fun l => s.gpis[l].cfg.sampled (levels.getLsbD l.val)).map GpiEvent.change := by
  unfold State.gpiChanges State.instantRecords
  rw [List.map_map, ← List.filterMap_eq_filter, List.map_filterMap]
  refine List.filterMap_congr fun l _ => ?_
  unfold State.gpiStep
  rw [Gpi.step_stamp]
  cases turns : s.gpis[l].turns (s.gpis[l].cfg.sampled (levels.getLsbD l.val)) with
  | false => simp only [Option.guard, turns, Bool.false_eq_true, if_false, Option.map_none]
  | true =>
    rw [Gpi.step_turns turns]
    simp only [Option.guard, turns, if_true, Option.map_some]
    rfl

theorem getElem_updGpi (s : State) (k l : LineId) (f : Gpi → Gpi) :
    (s.updGpi k f).gpis[l] = if k = l then f s.gpis[l] else s.gpis[l] := by
  by_cases h : k = l
  · subst h; simp [State.updGpi]
  · have : (k : Nat) ≠ l := fun e => h (Fin.ext e)
    simp [State.updGpi, Vector.getElem_set_ne, this, h]

/-- What a write of each line's record makes of the records. -/
theorem foldl_updGpi (f : LineId → Gpi → Gpi) (ls : List LineId) (once : ls.Nodup) (s : State) :
    let u := ls.foldl (fun s l => s.updGpi l (f l)) s
    u = { s with gpis := u.gpis } ∧ ∀ l : LineId, u.gpis[l] = if l ∈ ls then f l s.gpis[l] else s.gpis[l] := by
  induction ls generalizing s with
  | nil => exact ⟨rfl, fun l => rfl⟩
  | cons j ls ih =>
    obtain ⟨fresh, once⟩ := List.nodup_cons.mp once
    obtain ⟨frame, gpi⟩ := ih once (s.updGpi j (f j))
    refine ⟨frame, fun l => (gpi l).trans ?_⟩
    rw [getElem_updGpi]
    by_cases e : j = l
    · subst e
      rw [if_pos rfl, if_neg fresh, if_pos List.mem_cons_self]
    · simp only [if_neg e, List.mem_cons, Ne.symm e, false_or]

/-- R165: the first instant after a reset. -/
theorem firstInstant_eq (levels : Levels) (s : State) : ∃ gpis : Vector Gpi 8,
    (∀ l : LineId, gpis[l] = { s.gpis[l] with
      level := s.gpis[l].cfg.sampled (levels.getLsbD l.val), run := 0, runStart := none
      rewritten := s.gpis[l].rewritten && s.gpis[l].level }) ∧
    firstInstant levels s = formMatch { s with gpiFirst := false, gpis := gpis } := by
  have fold := foldl_updGpi (fun l g => { g with
    level := g.cfg.sampled (levels.getLsbD l.val), run := 0, runStart := none, rewritten := g.rewritten && g.level })
    allLines allLines_nodup { s with gpiFirst := false }
  obtain ⟨frame, gpi⟩ := fold
  have answer : ∀ u, allLines.foldl (fun s l => s.updGpi l fun g => { g with
      level := g.cfg.sampled (levels.getLsbD l.val), run := 0, runStart := none, rewritten := g.rewritten && g.level })
      { s with gpiFirst := false } = u → firstInstant levels s = formMatch u := by
    rintro u rfl
    rfl
  refine ⟨_, fun l => (gpi l).trans (if_pos (mem_allLines l)), (answer _ rfl).trans (congrArg formMatch frame)⟩

/-- R155, R156: a later instant. -/
theorem laterInstant_eq (levels : Levels) (s : State) (records : List GpiEvent)
    (changed : (s.instantRecords fun l => s.gpis[l].cfg.sampled (levels.getLsbD l.val)) = records) :
    ∃ gpis : Vector Gpi 8,
    (∀ l : LineId, gpis[l] = (s.gpis[l].step s.hc (s.gpis[l].cfg.sampled (levels.getLsbD l.val))).1) ∧
    laterInstant levels s = if records = [] then { s with gpis := gpis }
      else evaluateWatch (records.map GpiEvent.line) (records.foldl State.delivers { s with gpis := gpis }) := by
  obtain ⟨frame, gpi⟩ := foldl_updGpi (fun l _ => (s.gpiStep levels l).1) allLines allLines_nodup s
  have answer : ∀ u, allLines.foldl (fun s1 l => s1.updGpi l fun _ => (s.gpiStep levels l).1) s = u →
      laterInstant levels s =
        if (s.gpiChanges levels).isEmpty then (s.gpiChanges levels).foldl deliver u
        else evaluateWatch ((s.gpiChanges levels).map fun c => c.line) ((s.gpiChanges levels).foldl deliver u) := by
    rintro u rfl
    rfl
  replace answer := answer _ rfl
  generalize allLines.foldl (fun s1 l => s1.updGpi l fun _ => (s.gpiStep levels l).1) s = u at *
  refine ⟨u.gpis, fun l => (gpi l).trans (if_pos (mem_allLines l)), ?_⟩
  rw [answer, gpiChanges_eq, changed, ← frame]
  have folded : (records.map GpiEvent.change).foldl deliver u = records.foldl State.delivers u := List.foldl_map
  rw [folded, List.map_map]
  cases records with
  | nil => rfl
  | cons e es => rfl

/-- R154, R156, R157, R165: an instant that is due. -/
theorem gpiSampleInstant_due (levels : Levels) (s : State) (due : s.gpiDue = true) :
    gpiSampleInstant levels s =
      if s.gpiFirst then firstInstant levels { s with gpiDue := false, pins := { s.pins with gpi := levels } }
      else laterInstant levels { s with gpiDue := false, pins := { s.pins with gpi := levels } } := by
  unfold gpiSampleInstant
  rw [if_pos due]

/-- Settles O47. -/
theorem gpiInstantDebounces : Obligations.GpiInstantDebounces := by
  intro s levels powered sampled differs begun changes records
  have sampled_is : (fun l : LineId => s.gpis[l].cfg.sampled (levels.getLsbD l.val)) = sampled :=
    funext fun l => sampled_eq _ _
  have records_is : s.instantRecords sampled = records := rfl
  refine ⟨fun idle => ?_, fun due first => ?_, fun due later => ?_⟩
  · have same : gpiSampleInstant levels s = s := by
      unfold gpiSampleInstant
      rw [idle]
      rfl
    exact (event_powered _ s powered).trans (congrArg _ same)
  · refine ⟨_, (event_powered _ s powered).trans (congrArg _ ((gpiSampleInstant_due levels s due).trans (if_pos first))), ?_⟩
    obtain ⟨gpis, gpi, answer⟩ := firstInstant_eq levels { s with gpiDue := false, pins := { s.pins with gpi := levels } }
    rw [answer]
    refine ⟨fun l => (gpi l).trans ?_, rfl⟩
    rw [sampled_eq]
  · refine ⟨_, (event_powered _ s powered).trans (congrArg _ ((gpiSampleInstant_due levels s due).trans
      (if_neg (by rw [later]; exact Bool.false_ne_true)))), ?_⟩
    have now : ({ s with gpiDue := false, pins := { s.pins with gpi := levels } } : State).instantRecords
        (fun l => s.gpis[l].cfg.sampled (levels.getLsbD l.val)) = records := by
      rw [sampled_is]
      rfl
    obtain ⟨gpis, gpi, answer⟩ :=
      laterInstant_eq levels { s with gpiDue := false, pins := { s.pins with gpi := levels } } records now
    change ∀ l : LineId, gpis[l] = (s.gpis[l].step s.hc (s.gpis[l].cfg.sampled (levels.getLsbD l.val))).1 at gpi
    rw [answer]
    have line : ∀ l : LineId,
        (¬ differs l → gpis[l] = { s.gpis[l] with run := 0, runStart := none }) ∧
        (changes l = true → gpis[l] = { s.gpis[l] with
          level := sampled l, run := 0, runStart := none, rewritten := s.gpis[l].rewritten && !sampled l }) ∧
        (differs l → changes l = false →
          gpis[l] = { s.gpis[l] with run := s.gpis[l].run + 1, runStart := some (begun l) }) := by
      intro l
      have sampled_l : s.gpis[l].cfg.sampled (levels.getLsbD l.val) = sampled l := sampled_eq _ _
      rw [gpi l, sampled_l]
      exact ⟨fun same => congrArg Prod.fst (Gpi.step_same same), fun turns => congrArg Prod.fst (Gpi.step_turns turns),
        fun moved stays => congrArg Prod.fst (Gpi.step_runs moved stays)⟩
    clear_value records
    by_cases quiet : records = []
    · rw [if_pos quiet]
      subst quiet
      refine ⟨line, fun bound => ⟨?_, ?_⟩, fun _ => rfl, fun no => absurd rfl no, rfl⟩
      · rw [List.append_nil, List.take_of_length_le bound]
      · rw [List.length_nil, Nat.add_zero]
        exact (or_iff_left (Nat.not_lt.mpr bound)).symm
    · rw [if_neg quiet]
      obtain ⟨rest, fifo, overflow⟩ := foldl_delivers
        { s with gpiDue := false, pins := { s.pins with gpi := levels }, gpis := gpis } records
      generalize hu : records.foldl State.delivers
        { s with gpiDue := false, pins := { s.pins with gpi := levels }, gpis := gpis } = u at *
      have watched := evaluateWatch_frame (records.map GpiEvent.line) u
      dsimp only at watched
      generalize hw : evaluateWatch (records.map GpiEvent.line) u = w at *
      have w_gpis : w.gpis = gpis := by rw [watched, rest]
      have w_fifo : w.gpiFifo = u.gpiFifo := by rw [watched]
      have w_overflow : w.gpiOverflow = u.gpiOverflow := by rw [watched]
      rw [w_gpis]
      refine ⟨line, fun bound => ⟨w_fifo.trans (fifo bound), ?_⟩, fun no => absurd no quiet, fun _ => ?_, ?_⟩
      · rw [w_overflow, overflow bound, Bool.or_eq_true, decide_eq_true_eq]
      · rw [← hw, ← hu]
        rfl
      · conv_lhs => rw [watched, rest]
        have owners : w.owners = u.owners := by rw [watched]
        have pgms : w.pgms = u.pgms := by rw [watched]
        have probe : w.probe = u.probe := by rw [watched]
        have link : w.link = u.link := by rw [watched]
        rw [w_fifo, w_overflow, owners, pgms, probe, link]

end Sys2Proof.Machine
end

section
/-! PROOFS, O50. CAP ARM (R167). -/

namespace Sys2Proof.Machine

/-! ### The words of a trigger set -/

/-- R167: a source whose number lies out of range. -/
def sourceBeyond (k x : Tok) : Prop := k = .kw .ALARM ∧ beyond .A 48 x ∨ k = .kw .GPI ∧ beyond .G 8 x

/-- R167: how the words of a trigger set are searched: a word that is no source with a number is passed over alone. -/
theorem trigsOutside_other {t : Tok} (rest : List Tok) (noAlarm : t ≠ .kw .ALARM) (noGpi : t ≠ .kw .GPI) :
    trigsOutside (t :: rest) = trigsOutside rest := by
  rw [trigsOutside]
  · rintro u rest rfl
    exact absurd rfl noAlarm
  · rintro u rest rfl
    exact absurd rfl noGpi

theorem sourceBeyond_outside {k x : Tok} (out : sourceBeyond k x) (rest : List Tok) : trigsOutside (k :: x :: rest) = true := by
  rcases out with ⟨rfl, out⟩ | ⟨rfl, out⟩
  · rw [trigsOutside, outside_iff_beyond.mpr out, Bool.true_or]
  · rw [trigsOutside, outside_iff_beyond.mpr out, Bool.true_or]

/-- R167: a number out of range is found wherever its source is not itself read as a number. -/
theorem trigsOutside_of_source {k x : Tok} (after : List Tok) (out : sourceBeyond k x) : ∀ before : List Tok,
    before.getLast? ≠ some (.kw .ALARM) → before.getLast? ≠ some (.kw .GPI) →
    trigsOutside (before ++ k :: x :: after) = true
  | [], _, _ => sourceBeyond_outside out after
  | [b], noAlarm, noGpi => by
    have plainAlarm : b ≠ .kw .ALARM := fun e => noAlarm (congrArg some e)
    have plainGpi : b ≠ .kw .GPI := fun e => noGpi (congrArg some e)
    exact (trigsOutside_other _ plainAlarm plainGpi).trans (sourceBeyond_outside out after)
  | b :: b' :: before, noAlarm, noGpi => by
    rw [List.getLast?_cons_cons] at noAlarm noGpi
    have next := trigsOutside_of_source after out (b' :: before) noAlarm noGpi
    have skip (hb : before.getLast? ≠ some (.kw .ALARM) ∧ before.getLast? ≠ some (.kw .GPI)) :=
      trigsOutside_of_source after out before hb.1 hb.2
    have last : before.getLast? ≠ some (.kw .ALARM) ∧ before.getLast? ≠ some (.kw .GPI) := by
      cases before with
      | nil => exact ⟨fun no => (nomatch no), fun no => (nomatch no)⟩
      | cons c before =>
        rw [List.getLast?_cons_cons] at noAlarm noGpi
        exact ⟨noAlarm, noGpi⟩
    by_cases alarm : b = .kw .ALARM
    · subst alarm
      change trigsOutside (.kw .ALARM :: b' :: (before ++ k :: x :: after)) = true
      rw [trigsOutside, skip last, Bool.or_true]
    · by_cases gpi : b = .kw .GPI
      · subst gpi
        change trigsOutside (.kw .GPI :: b' :: (before ++ k :: x :: after)) = true
        rw [trigsOutside, skip last, Bool.or_true]
      · exact (trigsOutside_other _ alarm gpi).trans next

theorem source_of_trigsOutside (words : List Tok) (out : trigsOutside words = true) :
    ∃ before k x after, words = before ++ k :: x :: after ∧ sourceBeyond k x := by
  induction words using trigsOutside.induct with
  | case1 t rest ih =>
    rw [trigsOutside, Bool.or_eq_true] at out
    rcases out with here | later
    · exact ⟨[], _, _, rest, rfl, .inl ⟨rfl, outside_iff_beyond.mp here⟩⟩
    · obtain ⟨before, k, x, after, rfl, far⟩ := ih later
      exact ⟨.kw .ALARM :: t :: before, k, x, after, rfl, far⟩
  | case2 t rest ih =>
    rw [trigsOutside, Bool.or_eq_true] at out
    rcases out with here | later
    · exact ⟨[], _, _, rest, rfl, .inr ⟨rfl, outside_iff_beyond.mp here⟩⟩
    · obtain ⟨before, k, x, after, rfl, far⟩ := ih later
      exact ⟨.kw .GPI :: t :: before, k, x, after, rfl, far⟩
  | case3 t rest noAlarm noGpi ih =>
    rw [trigsOutside] at out
    · obtain ⟨before, k, x, after, rfl, far⟩ := ih out
      exact ⟨t :: before, k, x, after, rfl, far⟩
    · exact noAlarm
    · exact noGpi
  | case4 => exact nomatch out

theorem read_first {o : Option TrigSource} {words : List Tok} {trigs : List TrigSource}
    (read : (readTrigs words).map (o :: ·) = some (trigs.map some)) :
    (∃ z, o = some z) ∧ ∃ others : List TrigSource, readTrigs words = some (others.map some) := by
  obtain ⟨l, more, same⟩ := Option.map_eq_some_iff.mp read
  cases trigs with
  | nil => exact nomatch same
  | cons z others =>
    obtain ⟨first, rfl⟩ := List.cons.inj same
    exact ⟨⟨z, first⟩, others, more⟩

/-- R167: the sources of a set that can be read and lie in their ranges. -/
theorem trigsOutside_of_read (words : List Tok) (trigs : List TrigSource) (read : readTrigs words = some (trigs.map some)) :
    trigsOutside words = false := by
  induction words using readTrigs.induct generalizing trigs with
  | case1 => rfl
  | case2 rest ih =>
    rw [readTrigs] at read
    obtain ⟨-, trigs, more⟩ := read_first read
    rw [trigsOutside_other rest (t := .kw .WATCH) (fun no => nomatch Tok.kw.inj no) (fun no => nomatch Tok.kw.inj no)]
    exact ih trigs more
  | case3 rest ih =>
    rw [readTrigs] at read
    obtain ⟨-, trigs, more⟩ := read_first read
    rw [trigsOutside_other rest (t := .kw .REQUEST) (fun no => nomatch Tok.kw.inj no) (fun no => nomatch Tok.kw.inj no)]
    exact ih trigs more
  | case4 t rest n number ih | case6 t rest n number ih =>
    rw [readTrigs, number] at read
    obtain ⟨⟨z, first⟩, trigs, more⟩ := read_first read
    obtain ⟨i, inside, -⟩ := Option.map_eq_some_iff.mp first
    rw [trigsOutside, outside_fin (Option.bind_eq_some_iff.mpr ⟨n, number, inside⟩), Bool.false_or]
    exact ih trigs more
  | case5 t rest number | case7 t rest number =>
    rw [readTrigs, number] at read
    exact nomatch read
  | case8 words empty watch request alarm gpi =>
    rw [readTrigs] at read
    · exact nomatch read
    all_goals assumption

/-- R167: a set keeps each source once. -/
theorem distinctTrigs_mem (l : List TrigSource) : (∀ z, z ∈ distinctTrigs l ↔ z ∈ l) ∧ (distinctTrigs l).Nodup := by
  induction l using List.reverseRecOn with
  | nil => exact ⟨fun z => Iff.rfl, List.nodup_nil⟩
  | append_singleton l x ih =>
    obtain ⟨mem, once⟩ := ih
    have last : distinctTrigs (l ++ [x]) = if x ∈ distinctTrigs l then distinctTrigs l else distinctTrigs l ++ [x] :=
      List.foldl_append
    rw [last]
    split
    next old =>
      refine ⟨fun z => ?_, once⟩
      rw [mem, List.mem_append, List.mem_singleton]
      exact ⟨.inl, fun h => h.elim id fun e => e ▸ (mem x).mp old⟩
    next new =>
      refine ⟨fun z => ?_, ?_⟩
      · rw [List.mem_append, List.mem_append, mem]
      · exact List.nodup_append.mpr ⟨once, List.nodup_singleton x, fun a ha b hb e => new ((List.mem_singleton.mp hb) ▸ e ▸ ha)⟩

/-! ### CAP ARM -/

theorem mapM_id_some {α : Type} (l : List α) : (l.map some).mapM id = some l := by
  induction l with
  | nil => rfl
  | cons x l ih => rw [List.map_cons, List.mapM_cons, ih]; rfl

/-- R167: the words CAP ARM reads. -/
theorem readCapture_some {args : List Tok} {x : CaptureSettings} (read : readCapture args = some x) :
    ∃ t y pr po md words, args = t :: y :: pr :: po :: md :: words ∧ words ≠ [] ∧ Tok.fin? .C 2 t ≠ none ∧
      Tok.fin? .P 8 y ≠ none ∧ Tok.int? pr ≠ none ∧ Tok.int? po ≠ none ∧ Tok.slotMode? md ≠ none ∧ readTrigs words ≠ none := by
  unfold readCapture at read
  split at read
  next t y pr po md w words =>
    split at read
    next slot pgm pre post mode trigs =>
      refine ⟨t, y, pr, po, md, w :: words, rfl, List.cons_ne_nil _ _, ?_, ?_, ?_, ?_, ?_, fun no => ?_⟩
      · rw [slot]; exact Option.some_ne_none _
      · rw [pgm]; exact Option.some_ne_none _
      · rw [pre]; exact Option.some_ne_none _
      · rw [post]; exact Option.some_ne_none _
      · rw [mode]; exact Option.some_ne_none _
      · rw [no] at trigs
        exact nomatch trigs
    next => exact nomatch read
  next => exact nomatch read

theorem waitingList_nonempty (s : State) : s.waitingList ≠ [] ↔ ∃ q : ProgId, s.pgms[q].dly.short = true := by
  unfold State.waitingList
  rw [ne_eq, List.filter_eq_nil_iff, not_forall]
  simp only [mem_allProgs, true_imp_iff, not_not]

/-- Settles O50. -/
theorem captureArms : Obligations.CaptureArms := by
  intro s tag ready ht
  refine ⟨?words, ?arm⟩
  case words =>
    intro beyondSource head
    have head_iff : ∀ args : List Tok, (outside .C 2 args[0]? || outside .P 8 args[1]?) = true ↔ head args := fun args => by
      rw [Bool.or_eq_true, outside_iff, outside_iff]
    refine wordsRefused_of ready ht (f := reqCapArm) (fun _ => rfl) (fun args unread => ?_) fun args out => ?_
    · obtain ⟨inside, sources, unreadable⟩ := unread
      refine withArgs_unread (Bool.eq_false_iff.mpr fun yes => ?_) ?_
      · rcases (Bool.or_eq_true _ _).mp yes with yes | yes
        · exact inside ((head_iff args).mp yes)
        · obtain ⟨before, k, x, after, words, out⟩ := source_of_trigsOutside _ yes
          exact sources before k x after words out
      · cases read : readCapture args with
        | none => rfl
        | some x =>
          obtain ⟨t, y, pr, po, md, words, shape, some_, slot, pgm, pre, post, mode, trigs⟩ := readCapture_some read
          rcases unreadable t y pr po md words shape some_ with no | no | no | no | no | no
          · exact absurd (Tok.fin?_eq_none_of_unread no) slot
          · exact absurd (Tok.fin?_eq_none_of_unread no) pgm
          · exact absurd no pre
          · exact absurd no post
          · exact absurd no mode
          · exact absurd no trigs
    · refine withArgs_range ?_
      rw [Bool.or_eq_true]
      rcases out with out | ⟨before, k, x, after, words, noAlarm, noGpi, out⟩
      · exact .inl ((head_iff args).mpr out)
      · rw [words]
        exact .inr (trigsOutside_of_source after out before noAlarm noGpi)
  case arm =>
    intro t y pr po md words c p pre post m trigs slot pgm first second mode some_ read go a b k each busy full
    obtain ⟨w, words, rfl⟩ := List.exists_cons_of_ne_nil some_
    have inside : (outside .C 2 (some t) || outside .P 8 (some y) || trigsOutside (w :: words)) = false := by
      rw [outside_fin slot, outside_fin pgm, trigsOutside_of_read _ trigs read]
      rfl
    have settings : readCapture (t :: y :: pr :: po :: md :: w :: words) =
        some { slot := c, pgm := p, pre := pre, post := post, mode := m, trigs := distinctTrigs trigs } := by
      simp only [readCapture, slot, pgm, first, second, mode, read, Option.bind_some, mapM_id_some]
    have each_eq : ceilDiv (a + b) Config.pageWords = each := rfl
    have answer : reqCapArm (t :: y :: pr :: po :: md :: w :: words) s =
        if busy then refuse .state s
        else if s.freePages < each * k ∨ s.waitingList ≠ [] then refuse .full s
        else
          let s1 := (s.updSlot c fun _ => armedSlot
            { slot := c, pgm := p, pre := pre, post := post, mode := m, trigs := distinctTrigs trigs } k s.hc).setOwners
              (attachPages (.slot c) (each * k) s.owners)
          okClamped [natFld a, natFld b, natFld each, natFld s1.freePages]
            (decide ((a : Int) ≠ pre ∨ (b : Int) ≠ post)) s1 := withArgs_read inside settings
    refine ⟨fun yes => receive_er ready ht (answer.trans (if_pos yes)), fun no short => ?_, fun no room => ?_⟩
    · refine receive_er ready ht (answer.trans ((if_neg no).trans (if_pos ?_)))
      rw [waitingList_nonempty]
      exact short
    · rw [if_neg no, if_neg (by rw [waitingList_nonempty]; exact room)] at answer
      refine ⟨_, receive_okFlags ready ht answer, ?_⟩
      have enough : each * k ≤ s.owners.count .free := by
        have free : ¬ s.freePages < each * k := fun few => room (.inl few)
        exact Nat.le_of_not_lt free
      generalize hr : armedSlot { slot := c, pgm := p, pre := pre, post := post, mode := m, trigs := distinctTrigs trigs } k s.hc = r
      have own : (s.updSlot c fun _ => r).slots[c] = r := (getElem_updSlot s c c _).trans (if_pos rfl)
      obtain ⟨mem, once⟩ := distinctTrigs_mem trigs
      have kept : r.trigs = distinctTrigs trigs := by rw [← hr]; rfl
      refine ⟨?_, fun z => ?_, ?_, fun d other => ?_, ?_, ?_, ?_⟩
      · refine own.trans ?_
        change r = { r with
          state := .armed, pgm := some p, lanes := k, pre := a, post := b, mode := m
          trigs := (s.updSlot c fun _ => r).slots[c].trigs, armAt := some s.hc, recorded := 0, trigAt := none
          trigSrc := none, actualPre := none, ignored := 0, cursors := List.replicate k 0, rings := List.replicate k [] }
        rw [own, ← hr]
        rfl
      · change z ∈ (s.updSlot c fun _ => r).slots[c].trigs ↔ _
        rw [own, kept]
        exact mem z
      · change (s.updSlot c fun _ => r).slots[c].trigs.Nodup
        rw [own, kept]
        exact once
      · exact (getElem_updSlot s c d fun _ => r).trans (if_neg (Ne.symm other))
      · refine (attachPages_count (.slot c) (.slot c) (each * k) s.owners PageOwner.noConfusion).trans ?_
        rw [if_pos rfl, Nat.min_eq_left enough]
        rfl
      · have count := attachPages_count (.slot c) .free (each * k) s.owners PageOwner.noConfusion
        rw [if_neg PageOwner.noConfusion, if_pos rfl, Nat.min_eq_left enough] at count
        change (attachPages (.slot c) (each * k) s.owners).count .free + each * k = s.owners.count .free
        rw [count]
        exact Nat.sub_add_cancel enough
      · rw [flagIf_decide]
        rfl

end Sys2Proof.Machine
end

section
/-! PROOFS, O51. The course of a capture (R169 to R174). -/

namespace Sys2Proof.Machine

/-! ### Words of the requests -/

theorem capRequest_refused {s : State} {tag : Nat} (ready : Ready s) (ht : tag ≤ 9999) :
    oneNumberRefused s tag .C 2 (fun args => exec (.capTrig tag args) s) ∧
    oneNumberRefused s tag .C 2 (fun args => exec (.capRelease tag args) s) ∧
    oneNumberRefused s tag .C 2 (fun args => exec (.capFree tag args) s) := by
  refine ⟨oneNumberRefused_of ready ht (f := reqCapTrig) (fun _ => rfl) _ (fun t => rfl) (fun args other => ?_),
    oneNumberRefused_of ready ht (f := reqCapRelease) (fun _ => rfl) _ (fun t => rfl) (fun args other => ?_),
    oneNumberRefused_of ready ht (f := reqCapFree) (fun _ => rfl) _ (fun t => rfl) (fun args other => ?_)⟩
  · unfold reqCapTrig
    split
    next t => exact absurd rfl (other t)
    next => rfl
  · unfold reqCapRelease
    split
    next t => exact absurd rfl (other t)
    next => rfl
  · unfold reqCapFree
    split
    next t => exact absurd rfl (other t)
    next => rfl

theorem reqCapRead_short {s : State} {t y n : Tok} {j want : Int} (lane : Tok.int? y = some j) (count : Tok.int? n = some want) :
    reqCapRead [t, y, n] s = withSlot t s fun c => readSlot c j none want s := by
  simp only [reqCapRead, lane, count]

theorem reqCapRead_long {s : State} {t y o n : Tok} {j i want : Int} (lane : Tok.int? y = some j) (from_ : Tok.int? o = some i)
    (count : Tok.int? n = some want) :
    reqCapRead [t, y, o, n] s = withSlot t s fun c => readSlot c j (some i) want s := by
  simp only [reqCapRead, lane, from_, count]

/-- R172: the words CAP READ reads. -/
def capReadable (args : List Tok) (t : Tok) : Prop :=
  (Tok.index? .C t).isSome ∧ ∃ y n, (Tok.int? y).isSome ∧ (Tok.int? n).isSome ∧
    (args = [t, y, n] ∨ ∃ o, (Tok.int? o).isSome ∧ args = [t, y, o, n])

/-- R172: CAP READ of words that can be read is a read of the slot they name. -/
theorem reqCapRead_readable {args : List Tok} {t : Tok} (s : State) (readable : capReadable args t) :
    ∃ g, reqCapRead args s = withSlot t s g := by
  obtain ⟨-, y, n, lane, count, rfl | ⟨o, from_, rfl⟩⟩ := readable
  · obtain ⟨j, lane⟩ := Option.isSome_iff_exists.mp lane
    obtain ⟨want, count⟩ := Option.isSome_iff_exists.mp count
    exact ⟨_, reqCapRead_short lane count⟩
  · obtain ⟨j, lane⟩ := Option.isSome_iff_exists.mp lane
    obtain ⟨i, from_⟩ := Option.isSome_iff_exists.mp from_
    obtain ⟨want, count⟩ := Option.isSome_iff_exists.mp count
    exact ⟨_, reqCapRead_long lane from_ count⟩

theorem reqCapRead_unread {args : List Tok} (s : State) (unread : ∀ t, ¬ capReadable args t) :
    reqCapRead args s = refuse .synErr s := by
  unfold reqCapRead
  split
  next t y n =>
    split
    next j want lane count =>
      refine withIndex_none (Option.not_isSome_iff_eq_none.mp fun named => unread t ⟨named, y, n, ?_, ?_, .inl rfl⟩)
      · rw [lane]; rfl
      · rw [count]; rfl
    next => rfl
  next t y o n =>
    split
    next j i want lane from_ count =>
      refine withIndex_none (Option.not_isSome_iff_eq_none.mp fun named => unread t ⟨named, y, n, ?_, ?_, .inr ⟨o, ?_, rfl⟩⟩)
      · rw [lane]; rfl
      · rw [count]; rfl
      · rw [from_]; rfl
    next => rfl
  next => rfl

/-! ### The words of a capture (R172) -/

theorem filter_range_before (start len n : Nat) :
    (List.range n).filter (fun i => decide (start + i < len)) = List.range (min n (len - start)) := by
  induction n with
  | zero => simp
  | succ n ih =>
    rw [List.range_succ, List.filter_append, ih]
    by_cases before : start + n < len
    · simp only [List.filter_cons, List.filter_nil, before, decide_true, if_true]
      rw [Nat.min_eq_left (by omega), Nat.min_eq_left (by omega), List.range_succ]
    · simp only [List.filter_cons, List.filter_nil, before, decide_false, Bool.false_eq_true, if_false, List.append_nil]
      rw [Nat.min_eq_right (by omega), Nat.min_eq_right (by omega)]

/-- R172: the words of a lane are those of its ring from the start of the capture. -/
theorem captureWords_eq {x : Slot} {j : Nat} {ring : List Sample} (lane : x.rings[j]? = some ring)
    (whole : x.actualPre.getD 0 + x.post ≤ ring.length) (start count : Nat) :
    x.words j start count = (((ring.take (x.actualPre.getD 0 + x.post)).reverse).drop start).take count := by
  unfold Slot.words
  have ring_eq : x.rings.getD j [] = ring := by rw [List.getD_eq_getElem?_getD, lane]; rfl
  rw [ring_eq]
  dsimp only
  generalize x.actualPre.getD 0 + x.post = len at *
  rw [filter_range_before]
  refine List.ext_getElem ?_ fun i h k => ?_
  · simp only [List.length_map, List.length_range, List.length_take, List.length_drop, List.length_reverse]
    omega
  · have near : start + i < len := by
      simp only [List.length_map, List.length_range] at h
      omega
    simp only [List.getElem_map, List.getElem_range, List.getElem_take, List.getElem_drop, List.getElem_reverse,
      List.length_take]
    rw [List.getD_eq_getElem _ _ (by omega)]
    congr 1
    omega

/-- R172: a read is refused by its numbers, and then by the state of the slot. -/
theorem readSlot_judged {s : State} {c : SlotId} {lane : Int} {offset : Option Int} {count : Int} :
    readSlot c lane offset count s =
      if lane < 0 ∨ ((if s.slots[c].pgm = none then 8 else s.slots[c].lanes : Nat) : Int) ≤ lane ∨ offset.getD 0 < 0 then
        refuse .range s
      else if s.slots[c].state ≠ .held then refuse .state s else readSlot c lane offset count s := by
  by_cases lost : lane < 0 ∨ ((if s.slots[c].pgm = none then 8 else s.slots[c].lanes : Nat) : Int) ≤ lane ∨ offset.getD 0 < 0
  · rw [if_pos lost]
    unfold readSlot
    simp only [Option.isNone_iff_eq_none]
    exact if_pos lost
  · rw [if_neg lost]
    by_cases other : s.slots[c].state ≠ .held
    · rw [if_pos other]
      unfold readSlot
      simp only [Option.isNone_iff_eq_none]
      exact (if_neg lost).trans (if_pos other)
    · rw [if_neg other]

/-- R172: a read of a lane of a HELD capture. -/
theorem readSlot_held {s : State} {c : SlotId} {j : Nat} {offset : Option Nat} {want : Int} {ring : List Sample}
    (held : s.slots[c].state = .held) (used : s.slots[c].pgm ≠ none) (inside : j < s.slots[c].lanes)
    (lane : s.slots[c].rings[j]? = some ring)
    (whole : s.slots[c].actualPre.getD 0 + s.slots[c].post ≤ ring.length) :
    let len := s.slots[c].actualPre.getD 0 + s.slots[c].post
    let count := (max 1 (min want 24)).toNat
    let start := offset.getD (s.slots[c].cursors.getD j 0)
    let words := (((ring.take len).reverse).drop start).take count
    readSlot c (j : Int) (offset.map Int.ofNat) want s =
      (.ok ([.num c.val, .num j, .num start] ++ words.map Fld.hex ++ (if len ≤ start + words.length then [.kw .END] else []))
        (if (count : Int) ≠ want then [.clamped] else []),
       s.updSlot c fun x => { x with cursors := x.cursors.set j (start + words.length) }) := by
  intro len count start words
  have some_ : s.slots[c].pgm.isNone = false := by
    cases pgm : s.slots[c].pgm with
    | none => exact absurd pgm used
    | some p => rfl
  have first : (offset.map Int.ofNat).getD 0 = (offset.getD 0 : Nat) := by cases offset <;> rfl
  have from_ : ((offset.map Int.ofNat).map Int.toNat).getD (s.slots[c].cursors.getD j 0) = start := by
    cases offset <;> rfl
  have clamped : (clampNote 1 24 want).1.toNat = count := rfl
  have note : (clampNote 1 24 want).2 = decide ((count : Int) ≠ want) := by
    refine decide_eq_decide.mpr ?_
    unfold clampInt
    omega
  have read : s.slots[c].words j start count = words := captureWords_eq lane whole start count
  unfold readSlot
  dsimp only
  rw [some_, if_neg, if_neg (not_not_intro held), Int.toNat_natCast, from_, clamped, note, read, okClamped, flagIf_decide]
  · simp only [decide_eq_true_eq]
    rfl
  · rw [first]
    simp only [Bool.false_eq_true, if_false]
    omega

/-! ### Slots that are given back (R173, R174) -/

/-- R173, R174: a slot that enters FREE at a request. -/
theorem freeSlot_freed {s : State} (c : SlotId) (tag : Nat) (head : List Fld) :
    let x := s.slots[c]
    let freed := { x with state := SlotState.free, cursors := x.cursors.map fun _ => 0, rings := [] }
    let u := (freeSlot c s).okTo tag (head ++ [.num (freeSlot c s).freePages])
    u.slots = s.slots.set c freed ∧ u.slotPages c = 0 ∧
      u.link.fifo.getLast? = some (.reply (some tag) (.ok (head ++ [.num u.freePages]) [])) ∧
      (∀ q : ProgId, u.pgms[q].ctl = s.pgms[q].ctl ∧ u.pgms[q].mtr = s.pgms[q].mtr ∧
        u.pgms[q].cor = s.pgms[q].cor ∧ u.pgms[q].dly.dApp = s.pgms[q].dly.dApp) ∧
      u = { s with pgms := u.pgms, owners := u.owners, slots := u.slots, link := u.link } := by
  obtain ⟨moves, slots, count⟩ := freeSlot_moves c s
  generalize freeSlot c s = v at *
  intro x freed u
  refine ⟨?_, ?_, ?_, fun q => ?_, ?_⟩
  · refine Vector.ext fun i h => ?_
    refine (slots ⟨i, h⟩).trans ?_
    have set := Vector.getElem_set (xs := s.slots) (x := freed) c.isLt h
    refine Eq.trans ?_ set.symm
    by_cases same : c = ⟨i, h⟩
    · subst same
      rw [if_pos rfl, if_pos rfl]
      rfl
    · rw [if_neg same, if_neg fun e => same (Fin.ext e)]
      rfl
  · exact (count (.slot c) ⟨PageOwner.noConfusion, fun p pos no => (nomatch no)⟩).trans (if_pos rfl)
  · exact List.getLast?_concat
  · have own := moves.pgm q
    refine ⟨?_, ?_, ?_, (moves.served q).dApp⟩
    · change v.pgms[q].ctl = _
      rw [own]
    · change v.pgms[q].mtr = _
      rw [own]
    · change v.pgms[q].cor = _
      rw [own]
  · have rest := moves.rest
    change { v with link := _ } = _
    conv_lhs => rw [rest]
    rfl

/-! ### Triggers and the end of a capture (R169, R171) -/

theorem trigger_request {s : State} {c : SlotId} :
    let x := s.slots[c]
    let t := trigger c .request s
    (x.state = .armed ∧ .request ∈ x.trigs → x.takes .request = true ∧ t.slots[c].state = .post) ∧
    (¬ (x.state = .armed ∧ .request ∈ x.trigs) → x.takes .request = false ∧ t.slots[c].state = x.state) := by
  intro x t
  have own : t.slots[c] = if x.takes .request then x.take s.hc .request else
      { x with ignored := countUp Config.count16 x.ignored } := (getElem_updSlot s c c _).trans (if_pos rfl)
  rw [own]
  refine ⟨fun hit => ?_, fun miss => ?_⟩
  · have takes : x.takes .request = true := decide_eq_true hit
    rw [takes]
    exact ⟨rfl, rfl⟩
  · have takes : x.takes .request = false := decide_eq_false miss
    rw [takes]
    exact ⟨rfl, rfl⟩

theorem captureComplete_whole {s : State} {c : SlotId} {h : HouseCount} (post : s.slots[c].state = .post)
    (at_ : s.slots[c].trigAt = some h) : captureComplete c s =
      if s.slots[c].post ≤ (s.hc - h).toNat then
        capNotice c .HELD (s.updSlot c fun x => { x with state := .held, cursors := x.cursors.map fun _ => 0 })
      else s := by
  have cond : (s.slots[c].state = .post ∧ s.slots[c].post ≤ samplesFrom (s.slots[c].trigAt.getD s.hc) s.hc) ↔
      s.slots[c].post ≤ (s.hc - h).toNat := by
    rw [at_]
    exact and_iff_right post
  exact if_congr cond rfl rfl

theorem captureComplete_other {s : State} {c : SlotId} (other : s.slots[c].state ≠ .post) : captureComplete c s = s :=
  if_neg fun h => other h.1

/-- R173: CAP RELEASE. -/
theorem reqCapRelease_one {s : State} {t : Tok} {c : SlotId} (named : Tok.fin? .C 2 t = some c) :
    reqCapRelease [t] s =
      if s.slots[c].state ≠ .held then refuse .state s
      else
        let s1 := match s.slots[c].mode with
          | .single => freeSlot c s
          | .repeating => s.updSlot c fun x => x.rearm s.hc
        okReply [.kw s1.slots[c].state.kw, natFld s1.freePages] s1 := withIndex_fin named

theorem reqCapFree_one {s : State} {t : Tok} {c : SlotId} (named : Tok.fin? .C 2 t = some c) :
    reqCapFree [t] s =
      let s1 := if s.slots[c].state = .free then s else freeSlot c s
      okReply [natFld (s.slotPages c), natFld s1.freePages] s1 := withIndex_fin named

/-- Settles O51. -/
theorem captureRunsItsCourse : Obligations.CaptureRunsItsCourse := by
  intro s tag ready ht
  obtain ⟨trig, release, free⟩ := capRequest_refused (s := s) ready ht
  refine ⟨trig, release, free, ?readWords, fun t c named => ?_⟩
  case readWords =>
    refine wordsRefused_of ready ht (f := reqCapRead) (fun _ => rfl) (fun args unread => reqCapRead_unread s unread)
      fun args out => ?_
    obtain ⟨t, readable, far⟩ := out
    obtain ⟨g, answer⟩ := reqCapRead_readable s readable
    obtain ⟨x, number, range⟩ := far
    exact answer.trans (withIndex_range number range)
  intro x len freed frees
  have powered := ready.1
  have short := fun {y n : Tok} {j want : Int} (lane : Tok.int? y = some j) (count : Tok.int? n = some want) =>
    (reqCapRead_short (s := s) (t := t) lane count).trans (withIndex_fin named)
  have long := fun {y o n : Tok} {j i want : Int} (lane : Tok.int? y = some j) (from_ : Tok.int? o = some i)
      (count : Tok.int? n = some want) => (reqCapRead_long (s := s) (t := t) lane from_ count).trans (withIndex_fin named)
  refine ⟨fun armed listed => ?_, fun miss => ?_, fun h post at_ => ⟨fun whole => ?_, fun early => ?_⟩, fun other => ?_,
    fun y o n j i want lane from_ count => ?_, fun y o n j i want ring held used lane count from_ inside lane_ whole => ?_,
    fun other => ?_, fun held single => ?_, fun held again => ?_, fun isFree => ?_, fun used => ?_⟩
  · obtain ⟨takes, state⟩ := (trigger_request (s := s) (c := c)).1 ⟨armed, listed⟩
    refine receive_ok (f := reqCapTrig [t]) ready ht ((withIndex_fin named).trans ?_)
    rw [takes]
    dsimp only
    rw [state]
    rfl
  · obtain ⟨takes, state⟩ := (trigger_request (s := s) (c := c)).2 miss
    refine receive_ok (f := reqCapTrig [t]) ready ht ((withIndex_fin named).trans ?_)
    rw [takes]
    dsimp only
    rw [state]
    rfl
  · exact (event_powered _ s powered).trans (congrArg _ ((captureComplete_whole post at_).trans (if_pos whole)))
  · exact (event_powered _ s powered).trans (congrArg _ ((captureComplete_whole post at_).trans (if_neg (Nat.not_le.mpr early))))
  · exact (event_powered _ s powered).trans (congrArg _ (captureComplete_other other))
  · have judged : ∀ offset, readSlot c j offset want s =
        if j < 0 ∨ ((if x.pgm = none then 8 else x.lanes : Nat) : Int) ≤ j ∨ offset.getD 0 < 0 then refuse .range s
        else if x.state ≠ .held then refuse .state s else readSlot c j offset want s := fun offset => readSlot_judged
    refine ⟨fun lost => ?_, fun lost => ?_, fun inside other => ⟨?_, fun forward => ?_⟩⟩
    · refine receive_er ready ht ((short lane count).trans ((judged none).trans (if_pos ?_)))
      exact lost.elim .inl fun beyond => .inr (.inl beyond)
    · refine receive_er ready ht ((long lane from_ count).trans ((judged (some i)).trans (if_pos ?_)))
      exact lost.elim (fun lost => lost.elim .inl fun beyond => .inr (.inl beyond)) fun back => .inr (.inr back)
    · refine receive_er ready ht ((short lane count).trans ((judged none).trans ((if_neg ?_).trans (if_pos other))))
      exact fun lost => inside (lost.elim .inl fun h => h.elim .inr fun no => absurd no (Int.lt_irrefl 0))
    · refine receive_er ready ht ((long lane from_ count).trans ((judged (some i)).trans ((if_neg ?_).trans (if_pos other))))
      exact fun lost => inside (lost.elim .inl fun h => h.elim .inr fun no => absurd no (Int.not_lt.mpr forward))
  · intro number read
    exact ⟨receive_okFlags ready ht ((long lane from_ count).trans (readSlot_held (offset := some i) held used inside lane_ whole)),
      receive_okFlags ready ht ((short lane count).trans (readSlot_held (offset := none) held used inside lane_ whole))⟩
  · exact receive_er ready ht ((reqCapRelease_one named).trans (if_pos other))
  · have answer := (reqCapRelease_one (s := s) named).trans (if_neg (not_not_intro held))
    rw [show s.slots[c].mode = .single from single] at answer
    dsimp only at answer
    have state : (freeSlot c s).slots[c].state = .free := by
      rw [(freeSlot_moves c s).2.1 c, if_pos rfl]
      rfl
    rw [state] at answer
    have left := freeSlot_freed (s := s) c tag [.kw .FREE]
    generalize freeSlot c s = v at *
    exact ⟨_, receive_ok ready ht answer, left⟩
  · have answer := (reqCapRelease_one (s := s) named).trans (if_neg (not_not_intro held))
    rw [show s.slots[c].mode = .repeating from again] at answer
    dsimp only at answer
    have state : (s.updSlot c fun x => x.rearm s.hc).slots[c].state = .armed := by
      rw [getElem_updSlot, if_pos rfl]
      rfl
    rw [state] at answer
    exact receive_ok ready ht answer
  · have answer := reqCapFree_one (s := s) named
    rw [if_pos isFree] at answer
    exact receive_ok ready ht answer
  · have answer := reqCapFree_one (s := s) named
    rw [if_neg used] at answer
    have left := freeSlot_freed (s := s) c tag [.num (s.slotPages c)]
    generalize freeSlot c s = v at *
    exact ⟨_, receive_ok ready ht answer, left⟩

end Sys2Proof.Machine
end

section
/-! PROOFS, O52. The take queue: TAK ADD and TAK CANCEL (R176 to R178). -/

namespace Sys2Proof.Machine

/-! ### The queue -/

theorem insertTake_eq (fc : FrameCount) (e : TakeEntry) (l : List TakeEntry) :
    insertTake fc e l = l.takeWhile (fun x => decide (ahead fc x.due ≤ ahead fc e.due)) ++
      e :: l.dropWhile (fun x => decide (ahead fc x.due ≤ ahead fc e.due)) := by
  induction l with
  | nil => rfl
  | cons x l ih =>
    unfold insertTake
    by_cases near : ahead fc x.due ≤ ahead fc e.due
    · rw [if_pos near, ih]
      simp only [List.takeWhile_cons, List.dropWhile_cons, near, decide_true, if_true, List.cons_append]
    · rw [if_neg near]
      simp only [List.takeWhile_cons, List.dropWhile_cons, near, decide_false, Bool.false_eq_true, if_false, List.nil_append]

/-- R178: the id of an entry is the first from the next id on that no queued entry holds. -/
theorem freeId_first (takes : List TakeEntry) (next : BitVec 16) (room : takes.length < 32) : ∃ j : Nat,
    freeId takes next = next + BitVec.ofNat 16 j ∧ (∀ x ∈ takes, x.id ≠ next + BitVec.ofNat 16 j) ∧
      ∀ i < j, ∃ x ∈ takes, x.id = next + BitVec.ofNat 16 i := by
  obtain ⟨k, lt, free⟩ := exists_free_id takes next (Nat.le_of_lt room)
  cases found : (List.range 33).find? fun j => !idInUse takes (next + BitVec.ofNat 16 j) with
  | none => simpa [free] using List.find?_eq_none.mp found k (List.mem_range.mpr lt)
  | some j =>
    have is : freeId takes next = next + BitVec.ofNat 16 j := by
      unfold freeId
      rw [found]
    obtain ⟨unused, -, before⟩ := List.find?_range_eq_some.mp found
    refine ⟨j, is, fun x mem same => ?_, fun i near => ?_⟩
    · have used := (idInUse_iff takes (next + BitVec.ofNat 16 j)).mpr (List.mem_map.mpr ⟨x, mem, same⟩)
      rw [used] at unused
      exact nomatch unused
    · have used : idInUse takes (next + BitVec.ofNat 16 i) = true := by simpa using before i near
      exact List.mem_map.mp ((idInUse_iff takes _).mp used)

/-! ### TAK ADD (R177) -/

/-- R177: TAK ADD of words that can be read and name nothing out of range. -/
theorem reqTakAdd_read {s : State} {d : Tok} {words : List Tok} {f : DueForm} {a : TakeAction} (due : Tok.due? d = some f)
    (action : readAction words = some a) (inside : takOutside words = false) :
    reqTakAdd (d :: words) s =
      if 32 ≤ s.takes.length then refuse .full s
      else
        let e := makeEntry s (f.resolve s.fc).1 a
        (.ok [bvFld e.id, bvFld e.due] (flagIf (f.resolve s.fc).2 .clamped ++ flagIf e.late .late), addTake e s) := by
  have read : readTake (d :: words) = some (f, a) := by
    unfold readTake
    simp only [due, action]
  change withArgs (takOutside words) (readTake (d :: words)) s _ = _
  rw [withArgs_read inside read]
  rfl

theorem tail_of_first {words : List Tok} {n : Tok} (first : words[0]? = some n) : ∃ more, words = n :: more := by
  cases words with
  | nil => exact nomatch first
  | cons w more => exact ⟨more, congrArg (· :: more) (Option.some.inj first)⟩

/-- R177: where a number among the words of an action is out of range. -/
theorem takOutside_iff (args : List Tok) : takOutside (args.drop 1) = true ↔
    ∃ d k t rest, args = d :: .kw k :: t :: rest ∧
      (k ∈ [Kw.VIDEO, .TRIM, .RECALL, .PUSH, .POP, .RESET, .SOURCE, .MODE] ∧ beyond .P 8 t ∨
        k ∈ [Kw.RECALL, .PUSH] ∧ (∃ n more, rest = n :: more ∧ beyond .PS 16 n) ∨
        k = .GPO ∧ beyond .Q 8 t) := by
  constructor
  · intro out
    obtain ⟨d, words, rfl⟩ : ∃ d words, args = d :: words := by
      cases args with
      | nil => exact nomatch out
      | cons d words => exact ⟨d, words, rfl⟩
    change takOutside words = true at out
    unfold takOutside at out
    split at out
    next t rest => exact ⟨d, .GPO, t, rest, rfl, .inr (.inr ⟨rfl, outside_iff_beyond.mp out⟩)⟩
    next t rest =>
      rcases (Bool.or_eq_true _ _).mp out with out | out
      · exact ⟨d, .RECALL, t, rest, rfl, .inl ⟨by decide, outside_iff_beyond.mp out⟩⟩
      · obtain ⟨n, first, far⟩ := outside_iff.mp out
        obtain ⟨more, rfl⟩ := tail_of_first first
        exact ⟨d, .RECALL, t, _, rfl, .inr (.inl ⟨by decide, n, more, rfl, far⟩)⟩
    next t rest =>
      rcases (Bool.or_eq_true _ _).mp out with out | out
      · exact ⟨d, .PUSH, t, rest, rfl, .inl ⟨by decide, outside_iff_beyond.mp out⟩⟩
      · obtain ⟨n, first, far⟩ := outside_iff.mp out
        obtain ⟨more, rfl⟩ := tail_of_first first
        exact ⟨d, .PUSH, t, _, rfl, .inr (.inl ⟨by decide, n, more, rfl, far⟩)⟩
    next k t rest _ _ _ =>
      obtain ⟨listed, out⟩ := (Bool.and_eq_true _ _).mp out
      refine ⟨d, k, t, rest, rfl, .inl ⟨?_, outside_iff_beyond.mp out⟩⟩
      simp only [decide_eq_true_eq, List.mem_cons, List.not_mem_nil, or_false] at listed ⊢
      tauto
    next => exact nomatch out
  · rintro ⟨d, k, t, rest, rfl, ⟨listed, far⟩ | ⟨listed, n, more, rfl, far⟩ | ⟨rfl, far⟩⟩
    · have out := outside_iff_beyond.mpr far
      simp only [List.mem_cons, List.not_mem_nil, or_false] at listed
      rcases listed with rfl | rfl | rfl | rfl | rfl | rfl | rfl | rfl <;> simp [takOutside, out]
    · have out : outside .PS 16 (n :: more)[0]? = true := outside_iff_beyond.mpr far
      simp only [List.mem_cons, List.not_mem_nil, or_false] at listed
      rcases listed with rfl | rfl
      · exact (congrArg (outside .P 8 (some t) || ·) out).trans (Bool.or_true _)
      · exact (congrArg (outside .P 8 (some t) || ·) out).trans (Bool.or_true _)
    · exact outside_iff_beyond.mpr far

/-- R177: an action that can be read names nothing out of range. -/
theorem takOutside_of_read {words : List Tok} {a : TakeAction} (action : readAction words = some a) :
    takOutside words = false := by
  have one : ∀ (k : Kw) (t : Tok) (rest : List Tok) (i : ProgId), k ∈ [Kw.VIDEO, .TRIM, .POP, .RESET, .SOURCE, .MODE] →
      Tok.fin? .P 8 t = some i → takOutside (.kw k :: t :: rest) = false := by
    intro k t rest i listed named
    have inside := outside_fin named
    simp only [List.mem_cons, List.not_mem_nil, or_false] at listed
    rcases listed with rfl | rfl | rfl | rfl | rfl | rfl <;> simp [takOutside, inside]
  have preset : ∀ (k : Kw) (t n : Tok) (i : ProgId) (x : PresetId), k ∈ [Kw.RECALL, .PUSH] →
      Tok.fin? .P 8 t = some i → Tok.fin? .PS 16 n = some x → takOutside [.kw k, t, n] = false := by
    intro k t n i x listed named number
    have inside := outside_fin named
    have known : outside .PS 16 [n][0]? = false := outside_fin number
    have both : (outside .P 8 (some t) || outside .PS 16 [n][0]?) = false := by rw [inside, known]; rfl
    simp only [List.mem_cons, List.not_mem_nil, or_false] at listed
    rcases listed with rfl | rfl
    · exact both
    · exact both
  unfold readAction at action
  split at action
  next p v =>
    split at action
    next i x named _ => exact one _ _ _ i (by decide) named
    next => exact nomatch action
  next p v =>
    split at action
    next i x named _ => exact one _ _ _ i (by decide) named
    next => exact nomatch action
  next p n =>
    split at action
    next i x named number => exact preset _ _ _ i x (by decide) named number
    next => exact nomatch action
  next p n =>
    split at action
    next i x named number => exact preset _ _ _ i x (by decide) named number
    next => exact nomatch action
  next p =>
    obtain ⟨i, named, -⟩ := Option.map_eq_some_iff.mp action
    exact one _ _ _ i (by decide) named
  next p =>
    obtain ⟨i, named, -⟩ := Option.map_eq_some_iff.mp action
    exact one _ _ _ i (by decide) named
  next p x =>
    split at action
    next i z named _ => exact one _ _ _ i (by decide) named
    next => exact nomatch action
  next p x =>
    split at action
    next i z named _ => exact one _ _ _ i (by decide) named
    next => exact nomatch action
  next l b =>
    split at action
    next i z named _ => exact outside_fin named
    next => exact nomatch action
  next => exact nomatch action

/-! ### TAK CANCEL (R178) -/

theorem withId_read {t : Tok} {s : State} {f : TakeEntry → Answer} {n : Int} (read : Tok.int? t = some n) :
    withId t s f = if n < 0 ∨ 65535 < n then refuse .range s
      else match s.takes.find? fun e => decide ((e.id.toNat : Int) = n) with
        | none => refuse .nosuch s
        | some e => f e := by
  simp only [withId, read] <;> rfl

theorem withId_unread {t : Tok} {s : State} {f : TakeEntry → Answer} (read : Tok.int? t = none) :
    withId t s f = refuse .synErr s := by
  unfold withId
  rw [read]

/-- R178: the entry with an id, and the queue without it. -/
theorem takes_find {takes before after : List TakeEntry} {e : TakeEntry} (queue : takes = before ++ e :: after)
    (apart : ∀ x ∈ before ++ after, x.id ≠ e.id) :
    (takes.find? fun x => decide ((x.id.toNat : Int) = (e.id.toNat : Int))) = some e ∧
      (takes.filter fun x => decide (x.id ≠ e.id)) = before ++ after := by
  subst queue
  have kept : ∀ l : List TakeEntry, (∀ x ∈ l, x.id ≠ e.id) → l.filter (fun x => decide (x.id ≠ e.id)) = l := fun l differ =>
    List.filter_eq_self.mpr fun x mem => decide_eq_true (differ x mem)
  have front := fun x mem => apart x (List.mem_append_left after mem)
  have back := fun x mem => apart x (List.mem_append_right before mem)
  constructor
  · refine List.find?_eq_some_iff_append.mpr ⟨decide_eq_true rfl, before, after, rfl, fun x mem => ?_⟩
    have differ : ¬ (x.id.toNat : Int) = e.id.toNat := fun same => front x mem (BitVec.eq_of_toNat_eq (Int.ofNat.inj same))
    rw [decide_eq_false differ]
    rfl
  · rw [List.filter_append, List.filter_cons, kept before front, kept after back]
    simp

/-- Settles O52. -/
theorem takeQueueAddsAndCancels : Obligations.TakeQueueAddsAndCancels := by
  intro s tag ready ht
  refine ⟨?addWords, ?cancelWords, fun d words f a due action => ?add, fun t n read => ?cancel⟩
  case addWords =>
    intro out
    refine wordsRefused_of ready ht (f := reqTakAdd) (fun _ => rfl) (fun args unread => ?_) fun args out => ?_
    · obtain ⟨inside, words⟩ := unread
      refine withArgs_unread (Bool.eq_false_iff.mpr fun yes => inside ((takOutside_iff args).mp yes)) ?_
      cases args with
      | nil => rfl
      | cons d words' =>
        unfold readTake
        rcases words d words' rfl with no | no
        · simp only [no]
        · simp only [no]
          cases Tok.due? d <;> rfl
    · exact withArgs_range ((takOutside_iff args).mpr out)
  case cancelWords =>
    refine wordsRefused_of ready ht (f := reqTakCancel) (fun _ => rfl) (fun args unread => ?_) fun args out => ?_
    · unfold reqTakCancel
      split
      next t => exact withId_unread (unread t rfl)
      next => rfl
    · obtain ⟨t, n, rfl, read, far⟩ := out
      exact (withId_read read).trans (if_pos far)
  case add =>
    intro go named clamped lead late due_ near
    have answer := reqTakAdd_read (s := s) due action (takOutside_of_read action)
    refine ⟨fun full => receive_er ready ht (answer.trans (if_pos full)), fun room => ?_⟩
    rw [if_neg (Nat.not_le.mpr room)] at answer
    obtain ⟨j, id, free, first⟩ := freeId_first s.takes s.nextId room
    refine ⟨j, ?_⟩
    have resolved : f.resolve s.fc = (named, clamped) := by
      cases f with
      | absolute n => rfl
      | relative k =>
        refine Prod.ext ?_ (decide_eq_decide.mpr ?_)
        · have same : (clampInt 1 10000 k).toNat = max 1 (min k 10000) := by unfold clampInt; omega
          change s.fc + BitVec.ofNat 32 (clampInt 1 10000 k).toNat = _
          rw [same]
        · unfold clampInt
          omega
    rw [resolved] at answer
    have entry : makeEntry s named a =
        { id := s.nextId + BitVec.ofNat 16 j, named := named, due := due_, late := late, action := a } := by
      unfold makeEntry
      rw [id]
      rfl
    rw [entry] at answer
    have flags : flagIf clamped .clamped ++ flagIf late .late =
        (if clamped then [RFlag.clamped] else []) ++ if late then [RFlag.late] else [] := by
      cases clamped <;> cases late <;> rfl
    intro e
    refine ⟨free, first, ?_⟩
    have joined : addTake e s =
        { s with takes := s.takes.takeWhile near ++ e :: s.takes.dropWhile near, nextId := e.id + 1 } := by
      unfold addTake
      rw [insertTake_eq]
      rfl
    change reqTakAdd (d :: words) s = (.ok [bvFld e.id, bvFld due_] (flagIf clamped .clamped ++ flagIf late .late), addTake e s)
      at answer
    rw [joined, flags] at answer
    exact receive_okFlags ready ht answer
  case cancel =>
    have answer : reqTakCancel [t] s = _ := withId_read read
    refine ⟨fun low high absent => ?_, fun before after e queue same apart => ?_⟩
    · have none_ : (s.takes.find? fun e => decide ((e.id.toNat : Int) = n)) = none :=
        List.find?_eq_none.mpr fun e mem => by rw [decide_eq_false (absent e mem)]; exact Bool.false_ne_true
      rw [if_neg (by omega), none_] at answer
      exact receive_er ready ht answer
    · obtain ⟨found, rest⟩ := takes_find queue apart
      rw [if_neg (by omega), ← same, found] at answer
      dsimp only at answer
      rw [rest] at answer
      exact receive_ok ready ht answer

end Sys2Proof.Machine
end

section
/-! PROOFS, O53. A take entry acts as its request would (R180). -/

namespace Sys2Proof.Machine

/-- R180: the reply of a request, by the outcome of the entry that acts as it does. -/
def Outcome.reply (fields : List Fld) : Outcome → Reply
  | .done => .ok fields []
  | .clamped => .ok fields [.clamped]
  | .state => .er .state

/-- R180: request `f` answers what the action `a` makes of the state, by its outcome. -/
def ActsAlike (a : TakeAction) (s : State) (f : State → Answer) : Prop :=
  ∃ fields, f s = ((applyAction a s).2.reply fields, (applyAction a s).1)

theorem fin_num (k : NameKind) {n : Nat} (i : Fin n) : Tok.fin? k n (.num i.val) = some i := asFin_val i

/-- R180: an action on a programme that is not UNDEFINED, which is done. -/
theorem ActsAlike.done {a : TakeAction} {s t : State} {f : State → Answer} {p : ProgId} {g : State → State × Outcome}
    {fields : List Fld} (action : applyAction a s = onPgm p s g) (acts : g s = (t, .done))
    (request : f s = if s.pgms[p].ctl.state = .undefined then refuse .state s else okReply fields t) : ActsAlike a s f := by
  unfold ActsAlike
  rw [action, request]
  unfold onPgm
  split
  · exact ⟨fields, rfl⟩
  · exact ⟨fields, by rw [acts]; rfl⟩

/-- R180: a write on a programme that is not UNDEFINED, which may clamp its value. -/
theorem ActsAlike.written {a : TakeAction} {s : State} {f : State → Answer} {p : ProgId} {g : State → State × Outcome}
    {fields : List Fld} {w : State × Bool} (action : applyAction a s = onPgm p s g) (acts : g s = clampOutcome w)
    (request : f s = if s.pgms[p].ctl.state = .undefined then refuse .state s else okClamped fields w.2 w.1) :
    ActsAlike a s f := by
  unfold ActsAlike
  rw [action, request]
  unfold onPgm
  split
  · exact ⟨fields, rfl⟩
  · refine ⟨fields, ?_⟩
    rw [acts]
    obtain ⟨t, b⟩ := w
    cases b <;> rfl

/-- R180: a change that is refused with STATE or taken. -/
theorem orState_alike (s : State) (r : Option State) :
    (match r with | none => refuse .state s | some t => okReply [] t) = ((orState s r).2.reply [], (orState s r).1) := by
  cases r <;> rfl

theorem sendsAlike {a : TakeAction} {s : State} {tag : Nat} {i : Instr} {f : State → Answer} (ready : Ready s) (ht : tag ≤ 9999)
    (run : exec i s = receive i (fun s => s.answer tag f) s) (alike : ActsAlike a s f) :
    ∃ fields, exec i s = .next ((applyAction a s).1.sendReply (some tag) ((applyAction a s).2.reply fields)) := by
  obtain ⟨fields, answer⟩ := alike
  refine ⟨fields, ?_⟩
  rw [run, receive_answer i tag f s ready ht, answer]

theorem source_request (s : State) (p : ProgId) (z : SrcSel) : reqPgmSource [.num p.val, .kw z.kw] s =
    match requestSource p z .request s with
    | none => refuse .state s
    | some t => okReply [] t := by
  have read : Tok.sel? (.kw z.kw) = some z := by cases z <;> rfl
  simp only [reqPgmSource, read]
  exact withIndex_fin (fin_num .P p)

theorem requestSource_none (s : State) (p : ProgId) (z : SrcSel) (why : Cause) :
    requestSource p z why s = none ↔ s.sourceRefused p z = true := by
  unfold requestSource
  split
  next yes => exact ⟨fun _ => yes, fun _ => rfl⟩
  next no =>
    refine ⟨fun h => ?_, fun yes => absurd yes no⟩
    split at h
    · exact nomatch h
    · exact nomatch h

section requests

variable {s : State} {p : ProgId}

theorem videoRequest_eq (v : Int) : reqDlyVideo [.num p.val, .num v] s =
    if s.pgms[p].ctl.state = .undefined then refuse .state s
    else okClamped (targetFlds (writeVideo p v s).1.pgms[p].dly) (writeVideo p v s).2 (writeVideo p v s).1 :=
  withIndex_fin (fin_num .P p)

theorem trimRequest_eq (v : Int) : reqDlyTrim [.num p.val, .num v] s =
    if s.pgms[p].ctl.state = .undefined then refuse .state s
    else okClamped (targetFlds (writeTrim p v s).1.pgms[p].dly) (writeTrim p v s).2 (writeTrim p v s).1 :=
  withIndex_fin (fin_num .P p)

theorem recallRequest_eq (n : PresetId) : reqPresetRecall [.num p.val, .num n.val] s =
    if s.pgms[p].ctl.state = .undefined then refuse .state s
    else okReply [natFld ((recallOn p n s).depth p)] (recallOn p n s) :=
  withPreset_fin (fin_num .P p) (fin_num .PS n)

theorem pushRequest_eq (n : PresetId) : reqPresetPush [.num p.val, .num n.val] s =
    if s.pgms[p].ctl.state = .undefined then refuse .state s
    else okReply [natFld ((pushOn p n s).depth p)] (pushOn p n s) :=
  withPreset_fin (fin_num .P p) (fin_num .PS n)

theorem popRequest_eq (deep : 2 ≤ s.pgms[p].cor.stack.length) : reqPresetPop [.num p.val] s =
    if s.pgms[p].ctl.state = .undefined then refuse .state s
    else okReply [natFld ((popOn p s).depth p)] (popOn p s) := by
  refine (withIndex_fin (fin_num .P p)).trans (if_congr ?_ rfl rfl)
  exact or_iff_left (Nat.not_lt.mpr deep)

theorem resetRequest_eq : reqMtrReset [.num p.val] s =
    if s.pgms[p].ctl.state = .undefined then refuse .state s else okReply [] (integrationReset p s) :=
  withIndex_fin (fin_num .P p)

theorem modeRequest_eq (m : Mode) : reqPgmMode [.num p.val, .kw m.kw] s =
    match requestMode p m s with
    | none => refuse .state s
    | some t => okReply [] t := by
  have read : Tok.mode? (.kw m.kw) = some m := by cases m <;> rfl
  simp only [reqPgmMode, read]
  exact withIndex_fin (fin_num .P p)

theorem outputRequest_eq (l : LineId) (b : Bool) :
    reqGpoSet [.num l.val, .num (if b then 1 else 0)] s = okReply [] (writeManual l b s) := by
  refine (withIndex_fin (fin_num .Q l)).trans ?_
  cases b <;> rfl

end requests

/-- R180: the entries that act on a defined programme, and on an output line. -/
theorem entries_alike (s : State) (p : ProgId) (n : PresetId) (l : LineId) (v : Int) (m : Mode) (b : Bool) :
    ActsAlike (.video p v) s (reqDlyVideo [.num p.val, .num v]) ∧
    ActsAlike (.trim p v) s (reqDlyTrim [.num p.val, .num v]) ∧
    ActsAlike (.recall p n) s (reqPresetRecall [.num p.val, .num n.val]) ∧
    ActsAlike (.push p n) s (reqPresetPush [.num p.val, .num n.val]) ∧
    (2 ≤ s.pgms[p].cor.stack.length → ActsAlike (.pop p) s (reqPresetPop [.num p.val])) ∧
    ActsAlike (.reset p) s (reqMtrReset [.num p.val]) ∧
    ActsAlike (.mode p m) s (reqPgmMode [.num p.val, .kw m.kw]) ∧
    ActsAlike (.gpo l b) s (reqGpoSet [.num l.val, .num (if b then 1 else 0)]) := by
  refine ⟨.written (g := fun s => clampOutcome (writeVideo p v s)) rfl rfl (videoRequest_eq v),
    .written (g := fun s => clampOutcome (writeTrim p v s)) rfl rfl (trimRequest_eq v),
    .done (g := fun s => (recallOn p n s, .done)) rfl rfl (recallRequest_eq n),
    .done (g := fun s => (pushOn p n s, .done)) rfl rfl (pushRequest_eq n), fun deep =>
    .done (g := fun s => ((popOrCount p s).1, if (popOrCount p s).2 then .done else .state)) rfl ?_ (popRequest_eq deep),
    .done (g := fun s => (integrationReset p s, .done)) rfl rfl resetRequest_eq,
    ⟨[], (modeRequest_eq m).trans (orState_alike s (requestMode p m s))⟩, ⟨[], outputRequest_eq l b⟩⟩
  have popped : popOrCount p s = (popOn p s, true) := if_pos deep
  rw [popped]
  rfl

/-- A reply tells an accepted request from a refused one. -/
theorem okTo_ne_erTo (s t : State) (tag : Nat) (fields : List Fld) (e : ErrCode) : t.okTo tag fields ≠ s.erTo tag e := by
  intro same
  have last := congrArg (fun u : State => u.link.fifo.getLast?) same
  change (t.link.fifo ++ [Line.reply (some tag) (.ok fields [])]).getLast? =
    (s.link.fifo ++ [Line.reply (some tag) (.er e)]).getLast? at last
  rw [List.getLast?_concat, List.getLast?_concat] at last
  exact nomatch last

/-- R49: a source change of a PARKED programme that is not refused. -/
theorem requestSource_parked {s : State} {p : ProgId} {z : SrcSel} {why : Cause} (parked : s.pgms[p].ctl.state = .parked)
    (allowed : s.sourceRefused p z = false) : requestSource p z why s = some (applyParked p z why s) := by
  unfold requestSource
  rw [allowed, parked]
  rfl

/-- Settles O53. -/
theorem takeEntryActsAsItsRequest : Obligations.TakeEntryActsAsItsRequest := by
  intro s tag p n l v m z b ready ht alike P
  obtain ⟨video, trim, top, push, pop, reset, mode, gpo⟩ := entries_alike s p n l v m b
  have source : applyAction (.source p z) s = orState s (requestSource p z .take s) := rfl
  have taken : (applyAction (.source p z) s).2 = .done → s.sourceRefused p z = false := by
    intro done
    rw [source] at done
    cases request : requestSource p z .take s with
    | none => rw [request] at done; exact nomatch done
    | some t =>
      refine Bool.eq_false_iff.mpr fun yes => ?_
      rw [(requestSource_none s p z .take).mpr yes] at request
      exact nomatch request
  refine ⟨sendsAlike ready ht rfl video, sendsAlike ready ht rfl trim, sendsAlike ready ht rfl top,
    sendsAlike ready ht rfl push, fun deep => sendsAlike ready ht rfl (pop deep), sendsAlike ready ht rfl reset,
    sendsAlike ready ht rfl mode, sendsAlike ready ht rfl gpo, ?refused,
    fun running done => ?running, fun parked same => ?same, fun parked other done => ?other⟩
  case refused =>
    have run := receive_answer (.pgmSource tag [P, .kw z.kw]) tag (reqPgmSource [P, .kw z.kw]) s ready ht
    change exec (.pgmSource tag [P, .kw z.kw]) s = _ at run
    rw [source_request] at run
    cases refused : s.sourceRefused p z with
    | true =>
      rw [(requestSource_none s p z .request).mpr refused] at run
      rw [source, (requestSource_none s p z .take).mpr refused]
      exact ⟨fun _ => run, fun _ => rfl⟩
    | false =>
      have some_ : ∀ why, ∃ t, requestSource p z why s = some t := fun why =>
        Option.ne_none_iff_exists'.mp fun none_ => nomatch refused.symm.trans ((requestSource_none s p z why).mp none_)
      obtain ⟨t, request⟩ := some_ .request
      obtain ⟨u, take⟩ := some_ .take
      rw [request] at run
      rw [source, take, run]
      refine ⟨fun no => (nomatch no), fun same => ?_⟩
      exact absurd (Host.Outcome.next.inj same) (okTo_ne_erTo s t tag [] .state)
  case running =>
    have request : requestSource p z .take s = some (s.updCtl p fun c =>
        { c with pending := { c.pending with source := some (z, .take) } }.settle s.boundaryHere) := by
      unfold requestSource
      rw [taken done, running]
      rfl
    rw [source, request]
    simp only [Ctl.settle_eq]
    rfl
  case same =>
    rw [source]
    have refused := sourceRefused_iff s p z
    cases is : s.sourceRefused p z with
    | true =>
      rw [(requestSource_none s p z .take).mpr is, if_pos]
      · rfl
      · exact (refused.mp is).resolve_left fun no => nomatch parked.symm.trans no
    | false =>
      rw [requestSource_parked parked is, if_neg]
      · exact congrArg (·, Outcome.done) (if_pos same)
      · exact fun bare => nomatch is.symm.trans (refused.mpr (.inr bare))
  case other =>
    have request := requestSource_parked (why := .take) parked (taken done)
    rw [source, request]
    exact parked_source_taken s p z .take parked other

end Sys2Proof.Machine
end

section
/-! PROOFS, O54 to O56. The gate and the held notices, SAVE, and starts without an image (R189 to R195). -/

namespace Sys2Proof.Machine

/-! ### The gate (R189, R190) -/

theorem Link.notice_open {l : Link} {x : Line} (gate : l.gateOpen = true) (room : l.fifo.length < 40) :
    l.notice x = { l with fifo := l.fifo ++ [x] } := by
  unfold Link.notice
  rw [gate, decide_eq_true (show l.fifo.length < Config.takeLevel from room)]
  rfl

theorem Link.notice_held {l : Link} {x : Line} (shut : l.gateOpen = false ∨ 40 ≤ l.fifo.length) : l.notice x = l.hold x := by
  unfold Link.notice
  rcases shut with shut | full
  · rw [shut]
    rfl
  · rw [decide_eq_false (show ¬ l.fifo.length < Config.takeLevel from Nat.not_lt.mpr full), Bool.and_false]
    rfl

/-- Settles O54. -/
theorem gateHoldsNotices : Obligations.GateHoldsNotices := by
  refine ⟨fun s k fields => ?_, fun s => ?_, fun s tag ready ht => ⟨?_, ?_⟩⟩
  · intro x
    have sent : ∀ l : Link, s.link.notice x = l → s.notify k fields = { s with link := l } := by
      rintro _ rfl
      rfl
    refine ⟨fun gate room => sent _ (Link.notice_open gate room), fun shut => ⟨fun room => ?_, fun full => ?_⟩⟩
    · exact sent _ ((Link.notice_held shut).trans (if_pos room))
    · refine sent _ ((Link.notice_held shut).trans ((if_neg (Nat.not_lt.mpr full)).trans ?_))
      rw [List.drop_one]
      rfl
  · unfold State.atnPin
    cases s.link.held <;> cases s.link.atnHigh <;> rfl
  · exact receive_ok (f := reqGateClose []) ready ht rfl
  · exact receive_ok (f := reqGateOpen []) ready ht rfl

/-! ### SAVE (R192, R193) -/

/-- R192: what the snapshot holds of each block. -/
theorem snapshot_items (s : State) :
    (∀ k : LaneId, s.snapshot.lanes[k] = (s.lanes[k].main, s.lanes[k].backup)) ∧
    (∀ p : ProgId, s.snapshot.pgms[p] = s.pgms[p].image) ∧
    (∀ n : PointId, s.snapshot.points[n] = s.points[n].cfg) ∧
    ∀ l : LineId, s.snapshot.gpis[l] = s.gpis[l].cfg ∧ s.snapshot.gpos[l] = s.gpos[l].cfg := by
  refine ⟨fun k => ?_, fun p => ?_, fun n => ?_, fun l => ⟨?_, ?_⟩⟩
  · exact Vector.getElem_map _ k.isLt
  · exact Vector.getElem_map _ p.isLt
  · exact Vector.getElem_map _ n.isLt
  · exact Vector.getElem_map _ l.isLt
  · exact Vector.getElem_map _ l.isLt

theorem interrupted_eq (p : Profile) : p.interrupted = if p.saving = none then p.store else .broken := by
  unfold Profile.interrupted
  cases p.saving <;> rfl

/-- Settles O55. -/
theorem saveWritesProfile : Obligations.SaveWritesProfile := by
  intro s tag ready ht none_
  have powered := ready.1
  refine ⟨fun idle => ⟨s.snapshot, ?_, rfl, rfl, rfl, ?_⟩, fun busy => ?_, fun img saving => ?_, fun ok idle => ?_, ?_⟩
  · refine receive_ok (f := reqSave []) ready ht ?_
    simp only [reqSave, show s.profile.saving = none from idle]
    rfl
  · obtain ⟨lanes, pgms, points, lines⟩ := snapshot_items s
    exact ⟨lanes, pgms, points, fun l => lines l⟩
  · refine receive_er (f := reqSave []) ready ht ?_
    obtain ⟨img, saving⟩ := Option.ne_none_iff_exists'.mp busy
    simp only [reqSave, saving]
    rfl
  · have ended : ∀ ok, saveComplete ok s = (s.updProfile fun _ => savedProfile img ok).notify .saved
        [boolFld .OK .FAIL ok, bvFld (Config.crc32 img)] := fun ok => by
      unfold saveComplete
      rw [saving]
    exact ⟨(event_powered _ s powered).trans (congrArg _ (ended true)),
      (event_powered _ s powered).trans (congrArg _ (ended false))⟩
  · have same : saveComplete ok s = s := by
      unfold saveComplete
      rw [show s.profile.saving = none from idle]
    exact (event_powered _ s powered).trans (congrArg _ same)
  · refine (event_powered _ s powered).trans (congrArg _ ?_)
    unfold powerLoss
    rw [interrupted_eq]

/-! ### Starts without an image (R194, R195) -/

/-- R194: a store without an image stores no programme. -/
theorem runStored_factory (s : State) : runStored Image.factory s = s := by
  have none_ : ∀ p : ProgId, Image.factory.pgms[p] = none := fun p => Vector.getElem_replicate p.isLt
  unfold runStored
  simp only [none_]
  exact foldl_keeps (fun t => t = s) _ (fun t p same => same) allProgs s rfl

/-- R194: the blocks of a start without an image are those of the reset state. -/
theorem loadAll_factory (cause : StartCause) (b a : Bool) (store : Store) (s : State) (absent : store.config = Image.factory) :
    loadAll cause b a store s = { State.reset with
      cause := cause
      link := { Link.start b a with rx := s.link.rx.restarted }
      profile := { store := store, status := store.status, saving := none, lastSave := none }
      pins := { baudsel := b, atnpol := a, gpi := s.pins.gpi, out := Vector.replicate 24 0 }
      freeSeed := s.freeSeed, pending := s.pending } := by
  unfold loadAll
  rw [absent]
  unfold Image.factory
  simp only [Vector.map_replicate]
  rfl

theorem restarted_eq (r : Receiver) : r.restarted =
    { chars := [], bad := false, tooLong := false, skip := decide (r.skip = true ∨ r.tooLong = true ∨ r.chars ≠ []) } := by
  unfold Receiver.restarted
  have skip : (r.skip || r.tooLong || !r.chars.isEmpty) = decide (r.skip = true ∨ r.tooLong = true ∨ r.chars ≠ []) := by
    cases r.skip <;> cases r.tooLong <;> cases r.chars <;> rfl
  rw [skip]
  rfl

theorem start_without (cause : StartCause) (b a : Bool) (store : Store) (s : State) (absent : store = .never ∨ store = .broken) :
    start cause b a store s = { State.reset with
      cause := cause
      link := { State.reset.link with
        rx := { chars := [], bad := false, tooLong := false,
                skip := decide (s.link.rx.skip = true ∨ s.link.rx.tooLong = true ∨ s.link.rx.chars ≠ []) }
        fast := b, atnHigh := a
        fifo := [.notice .hello [.kw .OJ_2408, .kw cause.kw, .kw store.status.kw, .num (if b then 460800 else 115200)]] }
      profile := { store := store, status := store.status, saving := none, lastSave := none }
      pins := { baudsel := b, atnpol := a, gpi := s.pins.gpi, out := Vector.replicate 24 0 }
      freeSeed := s.freeSeed, pending := s.pending } := by
  have config : store.config = Image.factory := by rcases absent with rfl | rfl <;> rfl
  unfold start
  rw [config, runStored_factory, loadAll_factory cause b a store s config, restarted_eq]
  cases b <;> rfl

/-- R195: RESTART FULL with no save in progress. -/
theorem restartFull_idle {s : State} {tag : Nat} (ready : Ready s) (ht : tag ≤ 9999) (idle : s.profile.saving = none) :
    exec (.restartFull tag []) s = .next
      ((start .full s.pins.baudsel s.pins.atnpol s.profile.store s).updLink fun l =>
        { l with txd := s.link.fifo ++ [.reply (some tag) (.ok [] [])] }) := by
  refine (receive_ready _ _ s ready).trans (congrArg Host.Outcome.next ?_)
  unfold takeRestartFull
  rw [if_neg (Nat.not_lt.mpr ht), if_neg (not_not_intro rfl), idle]
  rfl

/-- Settles O56. -/
theorem startWithoutImage : Obligations.StartWithoutImage := by
  intro s baud atn tag made store
  have interrupted : s.profile.interrupted = store := interrupted_eq s.profile
  refine ⟨fun absent => ⟨?_, fun powered => ?_, fun ready ht idle => ?_⟩, fun ready ht busy => ?_⟩
  · have started := start_without .power baud atn store s absent
    rw [← interrupted] at started ⊢
    exact congrArg Host.Outcome.next started
  · have started := start_without .pin baud atn store s absent
    rw [← interrupted] at started ⊢
    exact (event_powered _ s powered).trans (congrArg Host.Outcome.next started)
  · have stored : s.profile.store = store := by
      unfold store
      rw [if_pos idle]
    rw [restartFull_idle ready ht idle, stored, start_without .full _ _ store s absent]
    rfl
  · obtain ⟨img, saving⟩ := Option.ne_none_iff_exists'.mp busy
    have read : ¬ 9999 < tag := Nat.not_lt.mpr ht
    refine ⟨(receive_ready _ _ s ready).trans (congrArg Host.Outcome.next ?_),
      (receive_ready _ _ s ready).trans (congrArg Host.Outcome.next ?_)⟩
    · unfold takeRestartFull
      rw [if_neg read, if_neg (not_not_intro rfl), saving]
      rfl
    · unfold takeRestartProc
      rw [if_neg read, if_neg (not_not_intro rfl), saving]
      rfl

end Sys2Proof.Machine
end

section
/-! PROOFS, O57. A start from an image: the programmes it stores as RUNNING, run in order (R194). -/

namespace Sys2Proof.Machine

/-! ### Pages of programmes that have been run -/

theorem positions_count (k : Nat) : (positions k).length = min 8 k := by
  have eight : allLines.length = 8 := by decide
  rw [positions, List.length_take, eight, Nat.min_comm]

/-- R60: an attachment of `a` pages to each lane of a programme takes them from the pool. -/
theorem attachLanes_pool (p : ProgId) (k a : Nat) (l : List PageOwner) (h : a * k ≤ l.count .free) :
    (attachLanes p k a l).count .free + a * min 8 k = l.count .free := by
  have fits : a * (positions k).length ≤ l.count .free := by
    rw [positions_count]
    exact Nat.le_trans (Nat.mul_le_mul_left a (Nat.min_le_right 8 k)) h
  have fold := attachFold_free p a (positions k) l fits
  rwa [positions_count] at fold

/-- R41, R60, R77: what the run of a programme without pages moves. -/
theorem hasRun_moves (u : State) (p : ProgId) (none_ : u.pagesHeld p = 0) (some_ : u.runGrant p ≠ 0) :
    (u.hasRun p).pgms[p] = u.pgms[p].run (u.runGrant p) ∧
    (∀ q, q ≠ p → (u.hasRun p).pgms[q] = u.pgms[q]) ∧
    (u.hasRun p).pagesHeld p = u.runGrant p ∧
    (∀ q, q ≠ p → (u.hasRun p).pagesHeld q = u.pagesHeld q) ∧
    (u.hasRun p).freePages + u.runGrant p * min 8 u.pgms[p].ctl.lanes.length = u.freePages := by
  have lanes : 0 < u.pgms[p].ctl.lanes.length := by
    refine Nat.pos_of_ne_zero fun no => some_ ?_
    unfold State.runGrant State.grantFor
    rw [no, Nat.div_zero]
    exact Nat.min_zero _
  have fits : u.runGrant p * u.pgms[p].ctl.lanes.length ≤ u.owners.count .free := grantFor_le u _ _
  have owners : (u.hasRun p).owners = attachLanes p u.pgms[p].ctl.lanes.length (u.runGrant p) u.owners := rfl
  refine ⟨?_, fun q other => ?_, ?_, fun q other => ?_, ?_⟩
  · unfold State.hasRun
    simp only [getElem_set_pgm, if_true]
  · unfold State.hasRun
    simp only [getElem_set_pgm, if_neg other]
  · unfold State.pagesHeld at none_ ⊢
    rw [owners, attachLanes_count _ _ _ _ fits _ (by simp), if_pos ⟨0, lanes, rfl⟩, none_, Nat.zero_add]
  · unfold State.pagesHeld
    rw [owners, attachLanes_count _ _ _ _ fits _ (by simp), if_neg]
    rintro ⟨pos, -, same⟩
    injection same with same
    exact other same
  · unfold State.freePages
    rw [owners]
    exact attachLanes_pool p _ _ u.owners fits

/-- R82: the pages that the lines of the programmes `ps` hold. -/
def State.pagesUsed (u : State) (ps : List ProgId) : Nat :=
  (ps.map fun q => u.pagesHeld q * min 8 u.pgms[q].ctl.lanes.length).sum

/-- R80: the PAGES notice of a programme that a start leaves SHORT, where the programmes `ps` have been run. -/
def State.startLine (u : State) (ps : List ProgId) (p : ProgId) : Line :=
  .notice .pages [.num p.val, .num (u.pagesHeld p), .num (max 1 ((u.pgms[p].dly.dReq + 1023) / 1024) : Nat),
    .num u.pgms[p].dly.dTarget, .kw .SHORT, .num (2048 - u.pagesUsed (ps.filter (· ≤ p)) : Nat)]

/-- R80: the PAGES notices of the programmes `ps`. -/
def State.startLines (u : State) (ps : List ProgId) : List Line :=
  (ps.filter fun p => u.pgms[p].dly.short).map (u.startLine ps)

/-- R194: an image stores programme `p` as RUNNING. -/
def Image.runs (c : Image) (p : ProgId) : Prop := ∃ x, c.pgms[p] = some x ∧ x.running = true

/-- R194: the state a start runs the stored programmes in. -/
structure Fresh (s : State) : Prop where
  gate : s.link.gateOpen = true
  fifo : s.link.fifo = []
  owners : s.owners = List.replicate 2048 .free
  pads : ∀ q : ProgId, maxPad s.pgms[q].ctl.pads = 0
  short : ∀ q : ProgId, s.pgms[q].dly.short = false

/-- What the run of the stored programmes among `ps` makes of `s`. -/
structure RanStored (c : Image) (s : State) (ps : List ProgId) (u : State) : Prop where
  rest : u = { s with pgms := u.pgms, owners := u.owners, link := u.link }
  left : ∀ q : ProgId, q ∉ ps → u.pgms[q] = s.pgms[q] ∧ u.pagesHeld q = 0
  ran : ∀ q ∈ ps,
    (u.pgms[q] = s.pgms[q] ∧ u.pagesHeld q = 0 ∧
      (c.runs q → 1 ≤ s.pgms[q].ctl.lanes.length → u.freePages < s.pgms[q].ctl.lanes.length)) ∨
    c.runs q ∧ u.pgms[q] = s.pgms[q].run (u.pagesHeld q)
  free : u.freePages + u.pagesUsed ps = 2048
  link : u.link = { s.link with fifo := u.startLines ps }

theorem RanStored.nothing {c : Image} {s : State} (fresh : Fresh s) : RanStored c s [] s := by
  refine ⟨rfl, fun q _ => ⟨rfl, ?_⟩, fun q no => absurd no List.not_mem_nil, ?_, ?_⟩
  · unfold State.pagesHeld
    rw [fresh.owners]
    exact List.count_eq_zero.mpr fun mem => PageOwner.noConfusion (List.eq_of_mem_replicate mem)
  · unfold State.freePages State.pagesUsed
    rw [fresh.owners, List.count_replicate]
    rfl
  · have fifo := fresh.fifo
    change s.link = { s.link with fifo := [] }
    rw [← fifo]

/-- A further programme does not change what the ones before it have used and said. -/
theorem startLines_append {u w : State} {ps : List ProgId} {p : ProgId} (after : ∀ q ∈ ps, q < p)
    (held : ∀ q ∈ ps, w.pagesHeld q = u.pagesHeld q) (pgm : ∀ q ∈ ps, w.pgms[q] = u.pgms[q]) :
    w.pagesUsed (ps ++ [p]) = u.pagesUsed ps + w.pagesHeld p * min 8 w.pgms[p].ctl.lanes.length ∧
    w.startLines (ps ++ [p]) = u.startLines ps ++ (if w.pgms[p].dly.short then [w.startLine (ps ++ [p]) p] else []) := by
  have used : ∀ qs : List ProgId, (∀ q ∈ qs, q ∈ ps) → w.pagesUsed qs = u.pagesUsed qs := by
    intro qs sub
    unfold State.pagesUsed
    refine congrArg List.sum (List.map_congr_left fun q mem => ?_)
    rw [held q (sub q mem), pgm q (sub q mem)]
  have lines : ∀ q ∈ ps, w.startLine (ps ++ [p]) q = u.startLine ps q := by
    intro q mem
    have cut : (ps ++ [p]).filter (· ≤ q) = ps.filter (· ≤ q) := by
      rw [List.filter_append, List.filter_cons_of_neg (by simpa using after q mem), List.filter_nil, List.append_nil]
    unfold State.startLine
    rw [cut, used _ fun r h => List.mem_of_mem_filter h, held q mem, pgm q mem]
  constructor
  · have before := used ps fun q h => h
    unfold State.pagesUsed at before ⊢
    rw [List.map_append, List.sum_append, before]
    simp
  · unfold State.startLines
    rw [List.filter_append, List.map_append]
    have same : ps.filter (fun q => w.pgms[q].dly.short) = ps.filter fun q => u.pgms[q].dly.short :=
      List.filter_congr fun q mem => by rw [pgm q mem]
    rw [same]
    have front : (ps.filter fun q => u.pgms[q].dly.short).map (w.startLine (ps ++ [p])) =
        (ps.filter fun q => u.pgms[q].dly.short).map (u.startLine ps) :=
      List.map_congr_left fun q mem => lines q (List.mem_of_mem_filter mem)
    rw [front, List.filter_singleton]
    cases w.pgms[p].dly.short <;> rfl

section step

variable {c : Image} {s u : State} {ps : List ProgId} {p : ProgId} (fresh : Fresh s) (before : RanStored c s ps u)
  (after : ∀ q ∈ ps, q < p)
include fresh before after

/-- A programme that is not run. -/
theorem RanStored.skip (why : c.runs p → 1 ≤ s.pgms[p].ctl.lanes.length → u.freePages < s.pgms[p].ctl.lanes.length) :
    RanStored c s (ps ++ [p]) u := by
  have new : p ∉ ps := fun mem => (lt_irrefl p (after p mem))
  obtain ⟨rest, left, ran, free, link⟩ := before
  obtain ⟨own, held⟩ := left p new
  obtain ⟨used, lines⟩ := startLines_append (u := u) (w := u) after (fun _ _ => rfl) fun _ _ => rfl
  refine ⟨rest, fun q out => left q fun mem => out (List.mem_append_left _ mem), fun q mem => ?_, ?_, ?_⟩
  · rcases List.mem_append.mp mem with mem | mem
    · exact ran q mem
    · cases List.mem_singleton.mp mem
      exact .inl ⟨own, held, why⟩
  · rw [used, held, Nat.zero_mul, Nat.add_zero]
    exact free
  · rw [lines, own, fresh.short p]
    simpa using link

/-- A programme that is run. -/
theorem RanStored.run (few : ps.length < 40) (runs : c.runs p) (some_ : u.runGrant p ≠ 0) :
    RanStored c s (ps ++ [p])
      (if u.runGrant p < u.pgms[p].runNeed then pagesNotice p false (u.hasRun p) else u.hasRun p) := by
  have new : p ∉ ps := fun mem => (lt_irrefl p (after p mem))
  obtain ⟨rest, left, ran, free, link⟩ := before
  obtain ⟨own, none_⟩ := left p new
  obtain ⟨pgm, others, held, kept, pool⟩ := hasRun_moves u p none_ some_
  have frame : u.hasRun p = { u with pgms := (u.hasRun p).pgms, owners := (u.hasRun p).owners } := rfl
  rw [own] at pgm
  have short : (u.hasRun p).pgms[p].dly.short = decide (u.runGrant p < u.pgms[p].runNeed) := by
    rw [pgm, own]
    rfl
  generalize u.hasRun p = w at *
  have other : ∀ q ∈ ps, q ≠ p := fun q mem same => new (same ▸ mem)
  obtain ⟨used, lines⟩ := startLines_append (u := u) (w := w) after (fun q mem => kept q (other q mem))
    fun q mem => others q (other q mem)
  have total : w.freePages + w.pagesUsed (ps ++ [p]) = 2048 := by
    have lanes : (s.pgms[p].run (u.runGrant p)).ctl.lanes = u.pgms[p].ctl.lanes := by
      rw [own]
      rfl
    rw [used, held, pgm, lanes]
    omega
  have line : u.runGrant p < u.pgms[p].runNeed →
      pagesNotice p false w = { w with link := w.link.notice (w.startLine (ps ++ [p]) p) } := by
    intro less
    have all : (ps ++ [p]).filter (· ≤ p) = ps ++ [p] := by
      refine List.filter_eq_self.mpr fun q mem => ?_
      rcases List.mem_append.mp mem with mem | mem
      · exact decide_eq_true (le_of_lt (after q mem))
      · exact decide_eq_true (le_of_eq (List.mem_singleton.mp mem))
    have figures : w.startLine (ps ++ [p]) p = pagesLine w p (max 1 ((w.pgms[p].dly.dReq + 1023) / 1024)) false := by
      unfold State.startLine pagesLine
      dsimp only
      rw [all, short, decide_eq_true less, ← total, Nat.add_sub_cancel]
      rfl
    have pads : maxPad w.pgms[p].ctl.pads = 0 := by
      rw [pgm]
      exact fresh.pads p
    have app : w.pgms[p].dly.dApp ≤ w.pgms[p].dly.dReq := by
      rw [pgm]
      exact Nat.min_le_left _ _
    have runs_ : w.pgms[p].ctl.state = .running := by
      rw [pgm]
      rfl
    rw [pagesNotice_eq, if_pos runs_, pads, Nat.add_zero, Nat.max_eq_right app, figures]
  have result : (if u.runGrant p < u.pgms[p].runNeed then pagesNotice p false w else w) =
      { w with link := { s.link with fifo := w.startLines (ps ++ [p]) } } := by
    have sent : w.link = { s.link with fifo := u.startLines ps } := by
      rw [frame]
      exact link
    rw [lines, short]
    by_cases less : u.runGrant p < u.pgms[p].runNeed
    · have room : (u.startLines ps).length < 40 := by
        unfold State.startLines
        rw [List.length_map]
        exact Nat.lt_of_le_of_lt (List.length_filter_le _ _) few
      rw [if_pos less, decide_eq_true less, line less, sent, Link.notice_open (l := { s.link with fifo := u.startLines ps }) fresh.gate room]
      rfl
    · rw [if_neg less, decide_eq_false less, if_neg Bool.false_ne_true, List.append_nil, ← sent]
  rw [result]
  refine ⟨?_, fun q out => ?_, fun q mem => ?_, ?_, rfl⟩
  · rw [frame, rest]
  · have away := fun h : q ∈ ps => out (List.mem_append_left _ h)
    have ne : q ≠ p := fun same => out (List.mem_append_right _ (List.mem_singleton.mpr same))
    obtain ⟨same, zero⟩ := left q away
    exact ⟨(others q ne).trans same, (kept q ne).trans zero⟩
  · rcases List.mem_append.mp mem with mem | mem
    · have ne := other q mem
      have record := others q ne
      have pages := kept q ne
      rcases ran q mem with ⟨same, zero, why⟩ | ⟨run, same⟩
      · refine .inl ⟨record.trans same, pages.trans zero, fun run one => ?_⟩
        have less := why run one
        change w.freePages < _
        omega
      · refine .inr ⟨run, record.trans (same.trans ?_)⟩
        exact congrArg _ pages.symm
    · cases List.mem_singleton.mp mem
      exact .inr ⟨runs, pgm.trans (congrArg _ held.symm)⟩
  · exact total

/-- R41, R194: a stored programme, run where its image says so and the pool has a page for each lane. -/
theorem RanStored.one (few : ps.length < 40) : RanStored c s (ps ++ [p]) (runOne c u p) := by
  have new : p ∉ ps := fun mem => (lt_irrefl p (after p mem))
  obtain ⟨own, none_⟩ := before.left p new
  unfold runOne
  split
  next x image =>
    by_cases running : x.running = true
    · rw [if_pos running, runProgramme_eq]
      by_cases no : u.runGrant p = 0
      · rw [if_pos no]
        refine before.skip fresh after fun _ some_ => ?_
        have need : 1 ≤ u.pgms[p].runNeed := by
          unfold Pgm.runNeed
          rw [pagesFor_eq]
          exact Nat.le_max_left _ _
        rw [← own] at some_ ⊢
        have share : u.freePages / u.pgms[p].ctl.lanes.length = 0 := by
          have least : min u.pgms[p].runNeed (u.freePages / u.pgms[p].ctl.lanes.length) = 0 := no
          omega
        exact (Nat.div_eq_zero_iff_lt some_).mp share
      · rw [if_neg no]
        exact before.run fresh after few ⟨x, image, running⟩ no
    · rw [if_neg running]
      refine before.skip fresh after fun runs => ?_
      obtain ⟨y, same, run⟩ := runs
      cases image.symm.trans same
      exact absurd run running
  next image =>
    refine before.skip fresh after fun runs => ?_
    obtain ⟨y, same, -⟩ := runs
    exact absurd (image.symm.trans same) nofun

end step

/-- R194, step 4: the stored programmes, run in programme-number order. -/
theorem ranStored_all {c : Image} {s : State} (fresh : Fresh s) : RanStored c s allProgs (runStored c s) := by
  have each : ∀ ps : List ProgId, ps.Pairwise (· < ·) → ps.length < 40 → RanStored c s ps (ps.foldl (runOne c) s) := by
    intro ps
    induction ps using List.reverseRecOn with
    | nil => exact fun _ _ => .nothing fresh
    | append_singleton ps p ih =>
      intro ordered few
      obtain ⟨front, -, after⟩ := List.pairwise_append.mp ordered
      have fewer : ps.length < 40 := Nat.lt_of_le_of_lt (List.length_append ▸ Nat.le_add_right _ _) few
      rw [List.foldl_append]
      exact (ih front fewer).one fresh (fun q mem => after q mem p (List.mem_singleton_self p)) fewer
  exact each allProgs (by decide) (by decide)

/-- R194: what the run of the stored programmes makes of their records and pages rests on the records and pages alone. -/
theorem runStored_alike {c : Image} {s t : State} (pgms : s.pgms = t.pgms) (owners : s.owners = t.owners) :
    (runStored c s).pgms = (runStored c t).pgms ∧ (runStored c s).owners = (runStored c t).owners := by
  have one : ∀ (u w : State) (p : ProgId), u.pgms = w.pgms → u.owners = w.owners →
      (runOne c u p).pgms = (runOne c w p).pgms ∧ (runOne c u p).owners = (runOne c w p).owners := by
    intro u w p pgms owners
    have grant : u.runGrant p = w.runGrant p := by
      unfold State.runGrant State.grantFor State.freePages
      rw [pgms, owners]
    have ran : (u.hasRun p).pgms = (w.hasRun p).pgms ∧ (u.hasRun p).owners = (w.hasRun p).owners := by
      unfold State.hasRun
      rw [grant, pgms, owners]
      exact ⟨rfl, rfl⟩
    unfold runOne
    rw [runProgramme_eq, runProgramme_eq, grant, pgms]
    split
    · split
      · split
        · exact ⟨pgms, owners⟩
        · split <;> exact ran
      · exact ⟨pgms, owners⟩
    · exact ⟨pgms, owners⟩
  rw [runStored_eq, runStored_eq]
  induction allProgs generalizing s t with
  | nil => exact ⟨pgms, owners⟩
  | cons p ps ih =>
    obtain ⟨next, pages⟩ := one s t p pgms owners
    exact ih next pages

/-! ### A start from an image -/

theorem maxPad_zeros (k : Nat) : maxPad (List.replicate k 0) = 0 := by
  unfold maxPad
  induction k with
  | zero => rfl
  | succ k ih => exact ih

theorem loadAll_fresh (cause : StartCause) (b a : Bool) (store : Store) (s : State) : Fresh (loadAll cause b a store s) := by
  have each : ∀ x : Option PgmImage, maxPad (loadPgm x).ctl.pads = 0 ∧ (loadPgm x).dly.short = false := by
    intro x
    cases x with
    | none => exact ⟨rfl, rfl⟩
    | some x => exact ⟨maxPad_zeros x.lanes.length, rfl⟩
  refine ⟨rfl, rfl, rfl, fun q => ?_, fun q => ?_⟩
  · rw [loadAll_pgm]
    exact (each _).1
  · rw [loadAll_pgm]
    exact (each _).2

/-- R194: the state of a start from an image. -/
theorem start_from (cause : StartCause) (b a : Bool) (img : Image) (crc : BitVec 32) (s : State) :
    let t := start cause b a (.image img crc) s
    t.pgms = (runStored img (loadAll .power false false (.image img crc) s)).pgms ∧
    t.owners = (runStored img (loadAll .power false false (.image img crc) s)).owners ∧
    RanStored img (loadAll cause b a (.image img crc) s) allProgs (runStored img (loadAll cause b a (.image img crc) s)) ∧
    t = { loadAll cause b a (.image img crc) s with
      pgms := t.pgms, owners := t.owners
      link := { Link.start b a with
        rx := s.link.rx.restarted
        fifo := t.startLines allProgs ++ [.notice .hello [.kw .OJ_2408, .kw cause.kw, .kw .VALID,
          .num (if b then 460800 else 115200)]] } } := by
  intro t
  have alike := runStored_alike (c := img) (s := loadAll cause b a (.image img crc) s)
    (t := loadAll .power false false (.image img crc) s) rfl rfl
  have ran := ranStored_all (c := img) (loadAll_fresh cause b a (.image img crc) s)
  have same : t = helloNotice (runStored img (loadAll cause b a (.image img crc) s)) := rfl
  clear_value t
  subst same
  refine ⟨alike.1, alike.2, ran, ?_⟩
  obtain ⟨rest, -, -, -, link⟩ := ran
  generalize runStored img (loadAll cause b a (.image img crc) s) = u at rest link
  have few : (u.startLines allProgs).length < 40 := by
    unfold State.startLines
    rw [List.length_map]
    exact Nat.lt_of_le_of_lt (List.length_filter_le _ allProgs) (by decide)
  have sent : (helloNotice u).link = { Link.start b a with
      rx := s.link.rx.restarted
      fifo := u.startLines allProgs ++ [.notice .hello [.kw .OJ_2408, .kw cause.kw, .kw .VALID,
        .num (if b then 460800 else 115200)]] } := by
    have opened : u.link.gateOpen = true := by
      rw [link]
      rfl
    have room : u.link.fifo.length < 40 := by
      rw [link]
      exact few
    have hello : (helloNotice u).link = u.link.notice (.notice .hello [.kw .OJ_2408, .kw u.cause.kw,
      .kw u.profile.status.kw, natFld u.link.rate]) := rfl
    rw [hello, Link.notice_open opened room, link, rest]
    cases b <;> rfl
  have frame : helloNotice u = { u with link := (helloNotice u).link } := rfl
  have lines : (helloNotice u).startLines allProgs = u.startLines allProgs := rfl
  have pgms : (helloNotice u).pgms = u.pgms := rfl
  have owners : (helloNotice u).owners = u.owners := rfl
  rw [lines, pgms, owners, frame, sent]
  exact congrArg (fun x : State => { x with link := { Link.start b a with
    rx := s.link.rx.restarted
    fifo := u.startLines allProgs ++ [Line.notice .hello [.kw .OJ_2408, .kw cause.kw, .kw .VALID,
      .num (if b then 460800 else 115200)]] } }) rest

/-- Settles O57. -/
theorem startFromImage : Obligations.StartFromImage := by
  intro s baud atn img crc stored idle
  have interrupted : s.profile.interrupted = .image img crc := by rw [interrupted_eq, if_pos idle, stored]
  have starts := fun cause b a => start_from cause b a img crc s
  obtain ⟨pgms, owners, ran, frame⟩ := starts .power baud atn
  have started : exec (.powerOn baud atn) s = .next (start .power baud atn (.image img crc) s) := by
    rw [← interrupted]
    rfl
  refine ⟨start .power baud atn (.image img crc) s, started, ?_⟩
  have ref : (start .power baud atn (.image img crc) s).ref = Ref.start img.rate img.rate.period := by rw [frame]; rfl
  have lanes : (start .power baud atn (.image img crc) s).lanes = img.lanes.map fun l => Lane.start l.1 l.2 := by
    rw [frame]
    rfl
  have presets : (start .power baud atn (.image img crc) s).presets = img.presets := by rw [frame]; rfl
  have points : (start .power baud atn (.image img crc) s).points = img.points.map Point.start := by rw [frame]; rfl
  have gpis : (start .power baud atn (.image img crc) s).gpis = img.gpis.map Gpi.start := by rw [frame]; rfl
  have gpos : (start .power baud atn (.image img crc) s).gpos = img.gpos.map Gpo.start := by rw [frame]; rfl
  refine ⟨?_, ?_⟩
  · intro free told made
    have each : ∀ cause b a, start cause b a (.image img crc) s = made cause b a [] := by
      intro cause b a
      obtain ⟨pgms', owners', -, frame'⟩ := starts cause b a
      have lines : (start cause b a (.image img crc) s).startLines allProgs = told := by
        unfold State.startLines State.startLine State.pagesUsed State.pagesHeld
        rw [pgms', owners', ← pgms, ← owners]
        rfl
      rw [frame', lines, pgms', owners', restarted_eq]
      unfold made
      rw [ref, lanes, presets, points, gpis, gpos, ← pgms, ← owners]
      rfl
    refine ⟨each .power baud atn, fun powered => ?_, fun tag ready ht => ?_⟩
    · rw [← each .pin baud atn, ← interrupted]
      exact event_powered _ s powered
    · rw [restartFull_idle ready ht idle, stored, each]
      rfl
  · have free : (start .power baud atn (.image img crc) s).freePages =
        (runStored img (loadAll .power baud atn (.image img crc) s)).freePages := rfl
    have pgms' : (start .power baud atn (.image img crc) s).pgms =
        (runStored img (loadAll .power baud atn (.image img crc) s)).pgms := rfl
    refine ⟨by rw [frame]; rfl, by rw [frame]; rfl, by rw [frame]; rfl, ref, presets, by rw [frame]; rfl, by rw [frame]; rfl,
      by rw [frame]; rfl, fun k => ?_, fun n => ?_, fun l => ⟨?_, ?_⟩, fun p => ?_⟩
    · rw [lanes]
      exact Vector.getElem_map _ k.isLt
    · rw [points]
      exact Vector.getElem_map _ n.isLt
    · rw [gpis]
      exact Vector.getElem_map _ l.isLt
    · rw [gpos]
      exact Vector.getElem_map _ l.isLt
    · rw [free, pgms']
      have load := loadAll_pgm .power baud atn (.image img crc) s p
      generalize loadAll .power baud atn (.image img crc) s = w at ran load ⊢
      generalize runStored img w = u at ran ⊢
      have config : (Store.image img crc).config.pgms[p] = img.pgms[p] := rfl
      rw [config] at load
      refine ⟨fun none_ => ?_, fun x image => ?_⟩
      · rw [none_] at load
        rcases ran.ran p (mem_allProgs p) with ⟨same, -⟩ | ⟨⟨x, image, -⟩, -⟩
        · exact same.trans load
        · exact absurd (none_.symm.trans image) nofun
      · rw [image] at load
        have lanes : w.pgms[p].ctl.lanes = x.lanes := by rw [load]; rfl
        rcases ran.ran p (mem_allProgs p) with ⟨same, -, why⟩ | ⟨⟨y, other, running⟩, same⟩
        · rw [lanes] at why
          rw [same, load]
          exact ⟨rfl, rfl, rfl, rfl, rfl, rfl, rfl, rfl, rfl, rfl, rfl, rfl, fun _ => ⟨rfl, rfl⟩,
            fun running some_ => .inr ⟨rfl, why ⟨x, image, running⟩ some_⟩⟩
        · cases image.symm.trans other
          rw [same, load]
          exact ⟨rfl, rfl, rfl, rfl, rfl, rfl, rfl, rfl, rfl, rfl, rfl, rfl, fun parked => absurd (running.symm.trans parked) nofun,
            fun _ _ => .inl ⟨rfl, rfl⟩⟩

end Sys2Proof.Machine
end

section
/-! PROOFS, O58. RESTART PROC: the slots freed, the programmes restarted, pages released and asked for (R79, R195). -/

namespace Sys2Proof.Machine

/-! ### Slots dropped (R79, step 1) -/

/-- What the drop of slots moves beside the slots: lines that are served, and their notices. -/
structure SlotsDrop (s u : State) : Prop where
  rest : u = { s with pgms := u.pgms, owners := u.owners, slots := u.slots, link := u.link }
  pgm : ∀ q : ProgId, u.pgms[q] = { s.pgms[q] with dly := u.pgms[q].dly }
  figures : ∀ q : ProgId, u.pgms[q].dly.figures = s.pgms[q].dly.figures
  told : s.link.PagesSent u.link

theorem SlotsDrop.trans {s u w : State} (h : SlotsDrop s u) (k : SlotsDrop u w) : SlotsDrop s w where
  rest := by rw [k.rest, h.rest]
  pgm q := by rw [k.pgm q, h.pgm q]
  figures q := (k.figures q).trans (h.figures q)
  told := h.told.trans k.told

theorem freeSlot_drops (c : SlotId) (s : State) : SlotsDrop s (freeSlot c s) := by
  obtain ⟨moves, -, -⟩ := freeSlot_moves c s
  have line := arbiter_line ((s.updSlot c Slot.freed).setOwners (releaseAll (.slot c) s.owners))
  exact ⟨moves.rest, moves.pgm, line.figures, line.told⟩

/-- R79: one slot dropped. -/
theorem dropSlot_drops (s : State) (c : SlotId) :
    SlotsDrop s (dropSlot s c) ∧
    (∀ d : SlotId, (dropSlot s c).slots[d] = if c = d then Slot.reset else s.slots[d]) ∧
    (∀ d : SlotId, (dropSlot s c).slotPages d = if c = d then 0 else s.slotPages d) ∧
    (s.slotPages c = 0 → dropSlot s c = { s with slots := (dropSlot s c).slots }) := by
  by_cases none_ : s.slotPages c = 0
  · have same : dropSlot s c = s.updSlot c fun _ => Slot.reset := by
      unfold dropSlot
      rw [if_pos none_]
    rw [same]
    refine ⟨⟨rfl, fun _ => rfl, fun _ => rfl, .refl _⟩, fun d => ?_, fun d => ?_, fun _ => rfl⟩
    · rw [getElem_updSlot]
    · by_cases own : c = d
      · subst own
        rw [if_pos rfl]
        exact none_
      · rw [if_neg own]
        rfl
  · have same : dropSlot s c = (freeSlot c s).updSlot c fun _ => Slot.reset := by
      unfold dropSlot
      rw [if_neg none_]
    obtain ⟨-, slots, count⟩ := freeSlot_moves c s
    have drops := freeSlot_drops c s
    rw [same]
    generalize freeSlot c s = u at *
    refine ⟨⟨?_, drops.pgm, drops.figures, drops.told⟩, fun d => ?_, fun d => ?_, fun no => absurd no none_⟩
    · exact congrArg (fun x : State => { x with slots := (u.updSlot c fun _ => Slot.reset).slots }) drops.rest
    · rw [getElem_updSlot]
      by_cases own : c = d
      · rw [if_pos own, if_pos own]
      · rw [if_neg own, if_neg own, slots, if_neg own]
    · have pages := count (.slot d) ⟨PageOwner.noConfusion, fun p pos no => (nomatch no)⟩
      have distinct : (PageOwner.slot d = PageOwner.slot c) = (c = d) := propext ⟨fun e => by injection e with e; exact e.symm,
        fun e => e ▸ rfl⟩
      simp only [distinct] at pages
      exact pages

/-- R79, step 1: both slots dropped. -/
theorem dropSlots_drops (s : State) :
    SlotsDrop s (dropSlots s) ∧
    (∀ d : SlotId, (dropSlots s).slots[d] = Slot.reset ∧ (dropSlots s).slotPages d = 0) ∧
    ((∀ d : SlotId, s.slotPages d = 0) → dropSlots s = { s with slots := (dropSlots s).slots }) := by
  have both : dropSlots s = dropSlot (dropSlot s 0) 1 := rfl
  obtain ⟨first, slots0, pages0, idle0⟩ := dropSlot_drops s 0
  obtain ⟨second, slots1, pages1, idle1⟩ := dropSlot_drops (dropSlot s 0) 1
  rw [both]
  refine ⟨first.trans second, fun d => ?_, fun none_ => ?_⟩
  · rw [slots1, pages1, slots0, pages0]
    have which : d = 0 ∨ d = 1 := by revert d; decide
    rcases which with rfl | rfl <;> exact ⟨rfl, rfl⟩
  · have zero : (dropSlot s 0).slotPages 1 = 0 := by
      rw [pages0, if_neg (by decide)]
      exact none_ 1
    exact (idle1 zero).trans (congrArg (fun x : State => { x with slots := (dropSlot (dropSlot s 0) 1).slots }) (idle0 (none_ 0)))

/-! ### Pages beyond the need (R79, step 4) -/

/-- R68, R79: the need of a restarted line, whose length in use is within D_req and whose pads are 0. -/
def Delay.restartNeed (d : Delay) : Nat := max 1 ((d.dReq + 1023) / 1024)

/-- R79: a RUNNING programme that is restarted has pads of 0 and a length in use within D_req. -/
def Pgm.isRestarted (g : Pgm) : Prop := g.ctl.state = .running → maxPad g.ctl.pads = 0 ∧ g.dly.dApp ≤ g.dly.dReq

theorem need_restarted {s : State} {p : ProgId} (restarted : s.pgms[p].isRestarted) (running : s.pgms[p].ctl.state = .running) :
    s.need p = s.pgms[p].dly.restartNeed := by
  obtain ⟨pads, app⟩ := restarted running
  rw [State.need_eq, pads, Nat.max_eq_right app]
  rfl

/-- R79: the pages of a lane once what is beyond the need has been released. -/
def State.pagesKept (s : State) (p : ProgId) : Nat :=
  if s.pgms[p].ctl.state = .running ∧ 0 < s.pgms[p].ctl.lanes.length
  then min (s.pagesHeld p) s.pgms[p].dly.restartNeed else s.pagesHeld p

/-- R79, step 4: what the releases of the programmes `ps` make of `s`. -/
structure Released (s : State) (ps : List ProgId) (u : State) : Prop where
  rest : u = { s with pgms := u.pgms, owners := u.owners }
  slot : ∀ c : SlotId, u.slotPages c = s.slotPages c
  left : ∀ q : ProgId, q ∉ ps → u.pgms[q] = s.pgms[q] ∧ u.pagesHeld q = s.pagesHeld q
  gone : ∀ q ∈ ps, u.pgms[q] = { s.pgms[q] with dly := { s.pgms[q].dly with hist := u.pgms[q].dly.hist, lines := u.pgms[q].dly.lines } } ∧
    u.pgms[q].dly.hist ≤ s.pgms[q].dly.hist ∧ u.pagesHeld q = s.pagesKept q

/-- R79, step 4: the release of one programme. -/
theorem releaseBeyondNeed_own {s : State} {p : ProgId} (restarted : s.pgms[p].isRestarted) :
    Released s [p] (releaseBeyondNeed s p) := by
  unfold releaseBeyondNeed
  dsimp only
  split
  next beyond =>
    obtain ⟨running, more⟩ := beyond
    rw [need_restarted restarted running] at more ⊢
    refine ⟨rfl, fun c => ?_, fun q other => ⟨?_, ?_⟩, fun q own => ?_⟩
    · have count := releaseLanes_count p (s.laneCount p) (s.pagesHeld p - s.pgms[p].dly.restartNeed) s.owners (.slot c) (by simp)
      refine count.trans (if_neg ?_)
      rintro ⟨pos, -, no⟩
      exact PageOwner.noConfusion no
    · rw [getElem_updDly, if_neg fun same => other (List.mem_singleton.mpr same.symm)]
      rfl
    · have count := releaseLanes_count p (s.laneCount p) (s.pagesHeld p - s.pgms[p].dly.restartNeed) s.owners (.line q 0) (by simp)
      refine count.trans (if_neg ?_)
      rintro ⟨pos, -, same⟩
      injection same with same
      exact other (List.mem_singleton.mpr same)
    · cases List.mem_singleton.mp own
      have count := releaseLanes_count p (s.laneCount p) (s.pagesHeld p - s.pgms[p].dly.restartNeed) s.owners (.line p 0) (by simp)
      refine ⟨?_, ?_, count.trans ?_⟩
      · rw [getElem_updDly, if_pos rfl]
        rfl
      · rw [getElem_updDly, if_pos rfl]
        exact Nat.min_le_left _ _
      · have some_ : (∃ pos : Fin 8, pos.val < s.laneCount p ∧ PageOwner.line p 0 = .line p pos) ↔ 0 < s.pgms[p].ctl.lanes.length := by
          constructor
          · rintro ⟨pos, lt, -⟩
            exact Nat.lt_of_le_of_lt (Nat.zero_le _) lt
          · exact fun lt => ⟨0, lt, rfl⟩
        unfold State.pagesKept
        change (if _ then s.pagesHeld p - (s.pagesHeld p - _) else s.pagesHeld p) = _
        simp only [some_, running, true_and]
        rw [Nat.sub_sub_self (Nat.le_of_lt more), Nat.min_eq_right (Nat.le_of_lt more)]
  next within =>
    refine ⟨rfl, fun c => rfl, fun q _ => ⟨rfl, rfl⟩, fun q own => ?_⟩
    cases List.mem_singleton.mp own
    refine ⟨rfl, Nat.le_refl _, ?_⟩
    unfold State.pagesKept
    split
    next run =>
      have few : ¬ s.pgms[p].dly.restartNeed < s.pagesHeld p := fun more =>
        within ⟨run.1, by rw [need_restarted restarted run.1]; exact more⟩
      exact (Nat.min_eq_left (Nat.le_of_not_lt few)).symm
    next => rfl

theorem Released.append {s u w : State} {ps : List ProgId} {p : ProgId} (new : p ∉ ps) (before : Released s ps u)
    (own : Released u [p] w) : Released s (ps ++ [p]) w := by
  have other : ∀ q ∈ ps, q ∉ [p] := fun q mem same => new (List.mem_singleton.mp same ▸ mem)
  refine ⟨?_, fun c => (own.slot c).trans (before.slot c), fun q out => ?_, fun q mem => ?_⟩
  · rw [own.rest, before.rest]
  · obtain ⟨pgm, held⟩ := own.left q fun mem => out (List.mem_append_right _ mem)
    obtain ⟨pgm', held'⟩ := before.left q fun mem => out (List.mem_append_left _ mem)
    exact ⟨pgm.trans pgm', held.trans held'⟩
  · rcases List.mem_append.mp mem with mem | mem
    · obtain ⟨pgm, held⟩ := own.left q (other q mem)
      rw [pgm, held]
      exact before.gone q mem
    · obtain ⟨pgm, held⟩ := before.left p new
      cases List.mem_singleton.mp mem
      obtain ⟨pgm', hist, held'⟩ := own.gone p (List.mem_singleton_self p)
      have kept : u.pagesKept p = s.pagesKept p := by
        unfold State.pagesKept
        rw [pgm, held]
      rw [kept] at held'
      rw [pgm] at pgm' hist
      exact ⟨pgm', hist, held'⟩

/-- R79, step 4: the releases of every programme. -/
theorem released_all {s : State} (restarted : ∀ q : ProgId, s.pgms[q].isRestarted) :
    Released s allProgs (allProgs.foldl releaseBeyondNeed s) := by
  have each : ∀ ps : List ProgId, ps.Nodup → Released s ps (ps.foldl releaseBeyondNeed s) := by
    intro ps
    induction ps using List.reverseRecOn with
    | nil => exact fun _ => ⟨rfl, fun _ => rfl, fun _ _ => ⟨rfl, rfl⟩, fun q no => absurd no List.not_mem_nil⟩
    | append_singleton ps p ih =>
      intro once
      have new : p ∉ ps := fun mem => (List.nodup_append.mp once).2.2 p mem p (List.mem_singleton_self p) rfl
      have before := ih (List.nodup_append.mp once).1
      rw [List.foldl_append]
      exact before.append new (releaseBeyondNeed_own (by rw [(before.left p new).1]; exact restarted p))
  exact each allProgs allProgs_nodup

end Sys2Proof.Machine
end

section
/-! PROOFS, O58. RESTART PROC: the pages asked for, and the whole restart (R79, R195). -/

namespace Sys2Proof.Machine

/-! ### Pages asked for (R79, step 5) -/

/-- R79, step 5: the pages each lane of a programme is granted. -/
def State.askGrant (s : State) (p : ProgId) : Nat :=
  s.grantFor s.pgms[p].ctl.lanes.length (s.pgms[p].dly.restartNeed - s.pagesHeld p)

/-- R79, step 5: the line of a programme that has asked for pages, with `pages` for each lane. -/
def Delay.asked (d : Delay) (pages : Nat) (words : List (List Sample)) : Delay :=
  let len := min d.dReq (pages * 1024)
  { d with lines := words, short := decide (pages < d.restartNeed), dApp := len, dTarget := len }

/-- R79, step 5: the state once a RUNNING programme has asked, before its report. -/
def State.hasAsked (s : State) (p : ProgId) : State :=
  let d := s.pgms[p].dly
  { s with
    owners := attachLanes p s.pgms[p].ctl.lanes.length (s.askGrant p) s.owners
    pgms := s.pgms.set p { s.pgms[p] with
      dly := d.asked (s.pagesHeld p + s.askGrant p)
        (if 0 < s.askGrant p then (d.attach (s.pagesHeld p)).lines else d.lines) } }

theorem restartNeed_pages (d : Delay) (pages : Nat) :
    (pages < d.restartNeed ↔ pages * 1024 < max 1 d.dReq) ∧ (d.restartNeed ≤ pages → min d.dReq (pages * 1024) = d.dReq) := by
  unfold Delay.restartNeed
  omega

/-- R79, step 5: a RUNNING programme asks for the pages its need exceeds, and reports. -/
theorem askAgain_running {s : State} {p : ProgId} (restarted : s.pgms[p].isRestarted) (running : s.pgms[p].ctl.state = .running) :
    askAgain s p = if (s.hasAsked p).pgms[p].dly.short || s.pgms[p].dly.short then pagesNotice p false (s.hasAsked p)
      else s.hasAsked p := by
  have own : (s.hasAsked p).pgms[p].dly.short = decide (s.pagesHeld p + s.askGrant p < s.pgms[p].dly.restartNeed) := by
    unfold State.hasAsked
    simp only [getElem_set_pgm, if_true]
    rfl
  have grant : s.grantFor (s.laneCount p) (s.pgms[p].dly.restartNeed - s.pagesHeld p) = s.askGrant p := rfl
  have made : ∀ f : Delay → Delay,
      f (if 0 < s.askGrant p then s.pgms[p].dly.attach (s.pagesHeld p) else s.pgms[p].dly) =
        s.pgms[p].dly.asked (s.pagesHeld p + s.askGrant p)
          (if 0 < s.askGrant p then (s.pgms[p].dly.attach (s.pagesHeld p)).lines else s.pgms[p].dly.lines) →
      ((s.setOwners (attachLanes p (s.laneCount p) (s.askGrant p) s.owners)).updDly p
        fun d => if 0 < s.askGrant p then d.attach (s.pagesHeld p) else d).updDly p f = s.hasAsked p := by
    intro f same
    unfold State.updDly State.setOwners State.updPgm State.hasAsked
    simp only [Fin.getElem_fin, Vector.getElem_set_self, Vector.set_set]
    exact congrArg (fun d => { s with
      owners := attachLanes p s.pgms[p].ctl.lanes.length (s.askGrant p) s.owners
      pgms := s.pgms.set p { s.pgms[p] with dly := d } }) same
  unfold askAgain
  dsimp only
  rw [if_neg (not_not_intro running), need_restarted restarted running, grant, own]
  by_cases few : s.pagesHeld p + s.askGrant p < s.pgms[p].dly.restartNeed
  · rw [if_pos few, decide_eq_true few, Bool.true_or, if_pos rfl, made]
    unfold Delay.asked
    rw [decide_eq_true few]
    split <;> rfl
  · rw [if_neg few, decide_eq_false few, Bool.false_or, made]
    unfold Delay.asked
    rw [decide_eq_false few, (restartNeed_pages _ _).2 (Nat.le_of_not_lt few)]
    split <;> rfl

/-- The pages that `w` grants beyond `v` to the lanes of the RUNNING programmes among `ps`. -/
def granted (v w : State) (ps : List ProgId) : Nat :=
  ((ps.filter fun q => decide (v.pgms[q].ctl.state = .running)).map fun q =>
    (w.pagesHeld q - v.pagesHeld q) * min 8 v.pgms[q].ctl.lanes.length).sum

/-- R80: the PAGES notice of a programme that has asked, where the programmes `ps` ask. -/
def askLine (v w : State) (ps : List ProgId) (p : ProgId) : Line :=
  .notice .pages [.num p.val, .num (w.pagesHeld p), .num w.pgms[p].dly.restartNeed, .num w.pgms[p].dly.dTarget,
    .kw (if w.pgms[p].dly.short then .SHORT else .MET), .num (w.freePages + granted v w (ps.filter (p < ·)) : Nat)]

/-- R80: the PAGES notices of the programmes `ps`, of each that is left SHORT or was SHORT. -/
def askLines (v w : State) (ps : List ProgId) : List Line :=
  (ps.filter fun p => decide (v.pgms[p].ctl.state = .running) && (w.pgms[p].dly.short || v.pgms[p].dly.short)).map
    (askLine v w ps)

/-- R79, step 5: what the programmes `ps`, each asking in turn, make of `v`. -/
structure Asked (v : State) (ps : List ProgId) (w : State) : Prop where
  rest : w = { v with pgms := w.pgms, owners := w.owners, link := w.link }
  slot : ∀ c : SlotId, w.slotPages c = v.slotPages c
  left : ∀ q : ProgId, q ∉ ps ∨ v.pgms[q].ctl.state ≠ .running → w.pgms[q] = v.pgms[q] ∧ w.pagesHeld q = v.pagesHeld q
  asked : ∀ q ∈ ps, v.pgms[q].ctl.state = .running →
    w.pgms[q] = { v.pgms[q] with dly := v.pgms[q].dly.asked (w.pagesHeld q) w.pgms[q].dly.lines }
  pool : w.freePages + granted v w ps = v.freePages
  link : w.link = v.link.notices (askLines v w ps)

/-- R79, step 5: one programme asks. -/
theorem askAgain_own {s : State} {p : ProgId} (restarted : s.pgms[p].isRestarted) : Asked s [p] (askAgain s p) := by
  by_cases running : s.pgms[p].ctl.state = .running
  case neg =>
    have same : askAgain s p = s := if_pos running
    rw [same]
    refine ⟨rfl, fun _ => rfl, fun _ _ => ⟨rfl, rfl⟩, fun q own run => ?_, ?_, ?_⟩
    · cases List.mem_singleton.mp own
      exact absurd run running
    · unfold granted
      rw [List.filter_cons_of_neg (by simpa using running)]
      rfl
    · unfold askLines
      rw [List.filter_singleton, decide_eq_false running, Bool.false_and]
      rfl
  have fits : s.askGrant p * s.pgms[p].ctl.lanes.length ≤ s.owners.count .free := grantFor_le s _ _
  have owners : (s.hasAsked p).owners = attachLanes p s.pgms[p].ctl.lanes.length (s.askGrant p) s.owners := rfl
  have own : (s.hasAsked p).pgms[p] = { s.pgms[p] with
      dly := s.pgms[p].dly.asked (s.pagesHeld p + s.askGrant p) (s.hasAsked p).pgms[p].dly.lines } := by
    unfold State.hasAsked
    simp only [getElem_set_pgm, if_true]
    rfl
  have other : ∀ q, q ≠ p → (s.hasAsked p).pgms[q] = s.pgms[q] := by
    intro q ne
    unfold State.hasAsked
    simp only [getElem_set_pgm, if_neg ne]
  have slot : ∀ c, (s.hasAsked p).slotPages c = s.slotPages c := by
    intro c
    unfold State.slotPages
    rw [owners, attachLanes_count _ _ _ _ fits _ (by simp), if_neg]
    rintro ⟨pos, -, no⟩
    exact PageOwner.noConfusion no
  have kept : ∀ q, q ≠ p → (s.hasAsked p).pagesHeld q = s.pagesHeld q := by
    intro q ne
    unfold State.pagesHeld
    rw [owners, attachLanes_count _ _ _ _ fits _ (by simp), if_neg]
    rintro ⟨pos, -, same⟩
    injection same with same
    exact ne same
  have held : (s.hasAsked p).pagesHeld p = s.pagesHeld p + s.askGrant p := by
    unfold State.pagesHeld
    rw [owners, attachLanes_count _ _ _ _ fits _ (by simp)]
    split
    · rfl
    next no =>
      have none_ : s.askGrant p = 0 := by
        have lanes : s.pgms[p].ctl.lanes.length = 0 := Nat.eq_zero_of_not_pos fun lt => no ⟨0, lt, rfl⟩
        unfold State.askGrant State.grantFor
        rw [lanes, Nat.div_zero, Nat.min_zero]
      rw [none_]
      rfl
  have pool : (s.hasAsked p).freePages + s.askGrant p * min 8 s.pgms[p].ctl.lanes.length = s.freePages := by
    unfold State.freePages
    rw [owners]
    exact attachLanes_pool p _ _ s.owners fits
  have rest : s.hasAsked p = { s with pgms := (s.hasAsked p).pgms, owners := (s.hasAsked p).owners } := rfl
  rw [askAgain_running restarted running]
  generalize s.hasAsked p = u at *
  rw [← held] at own
  have told : (if u.pgms[p].dly.short || s.pgms[p].dly.short then pagesNotice p false u else u) =
      { u with link := s.link.notices (askLines s u [p]) } := by
    have link : u.link = s.link := by rw [rest]
    have figures : pagesNotice p false u = { u with link := u.link.notice (askLine s u [p] p) } := by
      have run : u.pgms[p].ctl.state = .running := by rw [own]; exact running
      have pads : maxPad u.pgms[p].ctl.pads = 0 := by rw [own]; exact (restarted running).1
      have app : u.pgms[p].dly.dApp ≤ u.pgms[p].dly.dReq := by rw [own]; exact Nat.min_le_left _ _
      have after : [p].filter (p < ·) = [] := by simp
      rw [pagesNotice_eq, if_pos run, pads, Nat.max_eq_right app]
      unfold askLine
      rw [after]
      rfl
    unfold askLines
    rw [List.filter_singleton, decide_eq_true running, Bool.true_and]
    split
    next yes =>
      rw [yes, figures, link]
      rfl
    next no =>
      rw [Bool.not_eq_true] at no
      rw [no]
      conv_lhs => rw [rest]
      conv_rhs => rw [rest]
      rfl
  rw [told]
  refine ⟨?_, slot, fun q out => ?_, fun q mem run => ?_, ?_, rfl⟩
  · exact congrArg (fun x : State => { x with link := s.link.notices (askLines s u [p]) }) rest
  · have ne : q ≠ p := by
      rintro rfl
      rcases out with out | out
      · exact out (List.mem_singleton_self q)
      · exact out running
    exact ⟨other q ne, kept q ne⟩
  · cases List.mem_singleton.mp mem
    exact own
  · unfold granted
    rw [List.filter_singleton, decide_eq_true running]
    change u.freePages + ([p].map fun q => (u.pagesHeld q - s.pagesHeld q) * min 8 s.pgms[q].ctl.lanes.length).sum = _
    rw [List.map_singleton, List.sum_singleton, held, Nat.add_sub_cancel_left]
    exact pool

theorem granted_append (v w : State) (ps qs : List ProgId) : granted v w (ps ++ qs) = granted v w ps + granted v w qs := by
  unfold granted
  rw [List.filter_append, List.map_append, List.sum_append]

theorem granted_congr {v v' w w' : State} {ps : List ProgId} (pgm : ∀ q ∈ ps, v.pgms[q].ctl = v'.pgms[q].ctl)
    (held : ∀ q ∈ ps, w.pagesHeld q - v.pagesHeld q = w'.pagesHeld q - v'.pagesHeld q) : granted v w ps = granted v' w' ps := by
  unfold granted
  rw [List.filter_congr fun q mem => by rw [pgm q mem]]
  refine congrArg List.sum (List.map_congr_left fun q mem => ?_)
  rw [held q (List.mem_of_mem_filter mem), pgm q (List.mem_of_mem_filter mem)]

theorem Asked.append {v u w : State} {ps : List ProgId} {p : ProgId} (after : ∀ q ∈ ps, q < p) (before : Asked v ps u)
    (own : Asked u [p] w) : Asked v (ps ++ [p]) w := by
  have new : p ∉ ps := fun mem => lt_irrefl p (after p mem)
  have kept : ∀ q, q ≠ p → w.pgms[q] = u.pgms[q] ∧ w.pagesHeld q = u.pagesHeld q := fun q ne =>
    own.left q (.inl fun mem => ne (List.mem_singleton.mp mem))
  have other : ∀ q ∈ ps, q ≠ p := fun q mem same => new (same ▸ mem)
  obtain ⟨pgm, held⟩ := before.left p (.inl new)
  have earlier : ∀ qs : List ProgId, (∀ q ∈ qs, q ∈ ps) → granted v w qs = granted v u qs := fun qs sub =>
    granted_congr (fun _ _ => rfl) fun q mem => by rw [(kept q (other q (sub q mem))).2]
  have last : granted v w [p] = granted u w [p] := by
    refine granted_congr (fun q mem => ?_) fun q mem => ?_
    · cases List.mem_singleton.mp mem
      rw [pgm]
    · cases List.mem_singleton.mp mem
      rw [held]
  have pool := own.pool
  refine ⟨?_, fun c => (own.slot c).trans (before.slot c), fun q out => ?_, fun q mem running => ?_, ?_, ?_⟩
  · rw [own.rest, before.rest]
  · by_cases same : q = p
    · subst same
      have idle : v.pgms[q].ctl.state ≠ .running := by
        rcases out with out | idle
        · exact absurd (List.mem_append_right ps (List.mem_singleton_self q)) out
        · exact idle
      obtain ⟨pgm', held'⟩ := own.left q (.inr (by rw [pgm]; exact idle))
      exact ⟨pgm'.trans pgm, held'.trans held⟩
    · obtain ⟨pgm', held'⟩ := kept q same
      obtain ⟨pgm, held⟩ := before.left q (out.imp_left fun out mem => out (List.mem_append_left _ mem))
      exact ⟨pgm'.trans pgm, held'.trans held⟩
  · rcases List.mem_append.mp mem with mem | mem
    · obtain ⟨same, pages⟩ := kept q (other q mem)
      rw [same, pages]
      exact before.asked q mem running
    · cases List.mem_singleton.mp mem
      have asked := own.asked p mem (by rw [pgm]; exact running)
      rw [pgm] at asked
      exact asked
  · rw [granted_append, earlier ps fun q mem => mem, last]
    have first := before.pool
    omega
  · rw [own.link, before.link]
    unfold Link.notices
    rw [← List.foldl_append]
    refine congrArg (fun l => List.foldl Link.notice v.link l) ?_
    unfold askLines
    rw [List.filter_append, List.map_append]
    have some_ : ∀ q ∈ ps, (decide (v.pgms[q].ctl.state = .running) && (w.pgms[q].dly.short || v.pgms[q].dly.short)) =
        (decide (v.pgms[q].ctl.state = .running) && (u.pgms[q].dly.short || v.pgms[q].dly.short)) := fun q mem => by
      rw [(kept q (other q mem)).1]
    rw [List.filter_congr some_]
    refine congrArg₂ _ (List.map_congr_left fun q mem => ?_) ?_
    · have mem := List.mem_of_mem_filter mem
      obtain ⟨same, pages⟩ := kept q (other q mem)
      unfold askLine
      have beyond : [p].filter (q < ·) = [p] := by
        rw [List.filter_singleton, decide_eq_true (after q mem)]
        rfl
      rw [same, pages, List.filter_append, granted_append, beyond, earlier _ fun r h => List.mem_of_mem_filter h, last, ← pool]
      congr 8
      omega
    · rw [List.filter_singleton, List.filter_singleton, pgm]
      have all : (ps ++ [p]).filter (p < ·) = [p].filter (p < ·) := by
        rw [List.filter_append, List.filter_eq_nil_iff.mpr fun q mem => by simpa using le_of_lt (after q mem), List.nil_append]
      have line : askLine u w [p] p = askLine v w (ps ++ [p]) p := by
        unfold askLine
        rw [all]
        simp
        rfl
      cases decide (v.pgms[p].ctl.state = .running) && (w.pgms[p].dly.short || v.pgms[p].dly.short) with
      | false => rfl
      | true => exact congrArg (fun x => [x]) line

/-- R79, step 5: every programme asks. -/
theorem asked_all {v : State} (restarted : ∀ q : ProgId, v.pgms[q].isRestarted) :
    Asked v allProgs (allProgs.foldl askAgain v) := by
  have each : ∀ ps : List ProgId, ps.Pairwise (· < ·) → Asked v ps (ps.foldl askAgain v) := by
    intro ps
    induction ps using List.reverseRecOn with
    | nil => exact fun _ => ⟨rfl, fun _ => rfl, fun _ _ => ⟨rfl, rfl⟩, fun q no => absurd no List.not_mem_nil, rfl, rfl⟩
    | append_singleton ps p ih =>
      intro ordered
      obtain ⟨front, -, after⟩ := List.pairwise_append.mp ordered
      have later : ∀ q ∈ ps, q < p := fun q mem => after q mem p (List.mem_singleton_self p)
      have before := ih front
      rw [List.foldl_append]
      refine before.append later (askAgain_own ?_)
      rw [(before.left p (.inl fun mem => lt_irrefl p (later p mem))).1]
      exact restarted p
  exact each allProgs (by decide)

end Sys2Proof.Machine
end

section
/-! PROOFS, O58. RESTART PROC as a whole (R79, R195). -/

namespace Sys2Proof.Machine

theorem Link.notice_fast (l : Link) (x : Line) : (l.notice x).fast = l.fast := by
  unfold Link.notice Link.hold
  split
  · rfl
  · split <;> rfl

theorem Link.notices_fast (l : Link) (xs : List Line) : (l.notices xs).fast = l.fast :=
  foldl_keeps (fun m : Link => m.fast = l.fast) Link.notice (fun m x same => (m.notice_fast x).trans same) xs l rfl

/-- R79, steps 2 and 3: a programme restarted, given its pages per lane. -/
theorem Pgm.restart_defined {g : Pgm} (pages : Nat) (defined : g.ctl.state ≠ .undefined) :
    let c := g.ctl
    let d := g.dly.form 96
    let len := min d.dReq (pages * 1024)
    g.restart pages = {
      ctl := { c with active := .main, revertCount := 0, changeovers := 0, lcPgm := 96, pads := List.replicate c.lanes.length 0
                      inflight := none, pending := Change.empty, out := if c.state = .running then .opened else .silent
                      fadePos := 0, fadeHold := false }
      dly := if c.state = .running then
               { d with motion := .still, slewCount := 0, jumpPos := 0, hist := 0, pendTarget := none, dApp := len, dTarget := len
                        padsNow := List.replicate c.lanes.length 0 }
             else d
      mtr := Meter.start c.lanes.length
      cor := Correction.start [c.basePreset] } := by
  intro c d len
  unfold Pgm.restart
  split
  next no => exact absurd no defined
  next => rfl

theorem Pgm.restart_state (g : Pgm) (pages : Nat) : (g.restart pages).ctl.state = g.ctl.state := by
  by_cases no : g.ctl.state = .undefined
  · unfold Pgm.restart
    rw [no]
    exact no
  · rw [Pgm.restart_defined pages no]

theorem Pgm.restart_isRestarted (g : Pgm) (pages : Nat) : (g.restart pages).isRestarted := by
  intro running
  rw [Pgm.restart_state] at running
  rw [Pgm.restart_defined pages (by rw [running]; exact PgmState.noConfusion)]
  dsimp only
  rw [if_pos running]
  exact ⟨maxPad_zeros _, Nat.min_le_left _ _⟩

/-- R79, steps 2 and 3: every programme restarted. -/
theorem restarted_pgms (s : State) (pages : ProgId → Nat) :
    let u := allProgs.foldl (fun s p => s.updPgm p fun g => g.restart (pages p)) s
    u = { s with pgms := u.pgms } ∧ ∀ q : ProgId, u.pgms[q] = s.pgms[q].restart (pages q) := by
  refine ⟨?_, fun q => ?_⟩
  · exact foldl_keeps (fun t : State => t = { s with pgms := t.pgms }) _
      (fun t p same => by
        conv_lhs => rw [same]
        rfl) allProgs s rfl
  · exact foldl_allProgs (fun _ => True) (fun s p => s.updPgm p fun g => g.restart (pages p)) (fun p g => g.restart (pages p))
      (fun t p _ => by rw [getElem_updPgm, if_pos rfl]) (fun t p r _ other => by rw [getElem_updPgm, if_neg other])
      (fun _ _ _ => trivial) s trivial q

/-- R29, R38, R120, R153, R165, R185: the lanes, points, contact lines and watcher of the restarted blocks. -/
theorem restartBlocks_blocks (s : State) :
    (∀ k : LaneId, (restartBlocks s).lanes[k] = Lane.start s.lanes[k].main s.lanes[k].backup) ∧
    (∀ n : PointId, (restartBlocks s).points[n] = Point.start s.points[n].cfg) ∧
    (∀ l : LineId, (restartBlocks s).gpis[l] = { s.gpis[l] with run := 0, runStart := none } ∧
      (restartBlocks s).gpos[l] = { s.gpos[l] with contrib := [] }) ∧
    (restartBlocks s).watch = { s.watch with latched := false, word := none, equal := s.watch.cfg.agrees s.gpiLevels } := by
  have gpi : ∀ l : LineId, (restartBlocks s).gpis[l] = s.gpis[l].restart := fun l => Vector.getElem_map _ l.isLt
  refine ⟨fun k => Vector.getElem_map _ k.isLt, fun n => Vector.getElem_map _ n.isLt,
    fun l => ⟨gpi l, Vector.getElem_map _ l.isLt⟩, ?_⟩
  have levels : (restartBlocks s).gpiLevels = s.gpiLevels := by
    have level : ∀ l : LineId, (restartBlocks s).gpis[l].level = s.gpis[l].level := fun l => by
      rw [gpi]
      rfl
    unfold State.gpiLevels
    simp only [level]
  rw [← levels]
  rfl

/-- The steps of RESTART PROC (R79) that a state `t` comes out of: slots dropped, programmes restarted, pages released, and
pages asked for. -/
structure RestartedBy (b u1 u2 u3 u4 : State) : Prop where
  drops : SlotsDrop b u1
  slots : ∀ d : SlotId, u1.slots[d] = Slot.reset ∧ u1.slotPages d = 0
  idle : (∀ d : SlotId, b.slotPages d = 0) → u1 = { b with slots := u1.slots }
  restarts : u2 = { u1 with pgms := u2.pgms }
  pgm : ∀ q : ProgId, u2.pgms[q] = u1.pgms[q].restart (u1.pagesHeld q)
  released : Released u2 allProgs u3
  asked : Asked u3 allProgs u4

theorem restartProc_steps (s : State) : ∃ u1 u2 u3 u4, restartProc s = helloNotice u4 ∧ RestartedBy (restartBlocks s) u1 u2 u3 u4 := by
  obtain ⟨drops, slots, idle⟩ := dropSlots_drops (restartBlocks s)
  obtain ⟨restarts, pgm⟩ := restarted_pgms (dropSlots (restartBlocks s)) fun p => (dropSlots (restartBlocks s)).pagesHeld p
  have steps : restartProc s = helloNotice (allProgs.foldl askAgain (allProgs.foldl releaseBeyondNeed
      (allProgs.foldl (fun t p => t.updPgm p fun g => g.restart ((dropSlots (restartBlocks s)).pagesHeld p))
        (dropSlots (restartBlocks s))))) := rfl
  rw [steps]
  generalize dropSlots (restartBlocks s) = u1 at *
  generalize allProgs.foldl (fun t p => t.updPgm p fun g => g.restart (u1.pagesHeld p)) u1 = u2 at *
  have restarted : ∀ q : ProgId, u2.pgms[q].isRestarted := fun q => by
    rw [pgm q]
    exact Pgm.restart_isRestarted _ _
  have released := released_all restarted
  generalize allProgs.foldl releaseBeyondNeed u2 = u3 at *
  refine ⟨u1, u2, u3, _, rfl, drops, slots, idle, restarts, pgm, released, asked_all fun q => ?_⟩
  obtain ⟨same, -, -⟩ := released.gone q (mem_allProgs q)
  rw [same]
  exact restarted q

section steps

variable {s b u1 u2 u3 u4 : State} (by_ : RestartedBy b u1 u2 u3 u4)
include by_

theorem RestartedBy.frame : u4 = { b with pgms := u4.pgms, owners := u4.owners, slots := u1.slots, link := u4.link } := by
  rw [by_.asked.rest, by_.released.rest, by_.restarts]
  exact congrArg (fun x : State => { x with pgms := u4.pgms, owners := u4.owners, slots := u1.slots, link := u4.link }) by_.drops.rest

theorem RestartedBy.slotPages (c : SlotId) : u4.slotPages c = 0 := by
  have owners : u2.owners = u1.owners := by rw [by_.restarts]
  have pages : u2.slotPages c = u1.slotPages c := by
    unfold State.slotPages
    rw [owners]
  exact (by_.asked.slot c).trans ((by_.released.slot c).trans (pages.trans (by_.slots c).2))

/-- R79: what the asking and the releases leave of a restarted programme. -/
theorem RestartedBy.late (q : ProgId) : u4.pgms[q] = { u2.pgms[q] with dly := u4.pgms[q].dly } ∧
    u4.pgms[q].dly.v = u2.pgms[q].dly.v ∧ u4.pgms[q].dly.o = u2.pgms[q].dly.o ∧
    u4.pgms[q].dly.motionMode = u2.pgms[q].dly.motionMode ∧ u3.pgms[q].dly.short = u2.pgms[q].dly.short ∧
    (u2.pgms[q].ctl.state = .running → u4.pgms[q].dly.motion = u2.pgms[q].dly.motion ∧
      u4.pgms[q].dly.hist ≤ u2.pgms[q].dly.hist ∧ u4.pgms[q].dly.pendTarget = u2.pgms[q].dly.pendTarget ∧
      u4.pgms[q].dly.dReq = u2.pgms[q].dly.dReq ∧
      u4.pgms[q].dly.dTarget = min u2.pgms[q].dly.dReq (u4.pagesHeld q * 1024) ∧
      u4.pgms[q].dly.dApp = min u2.pgms[q].dly.dReq (u4.pagesHeld q * 1024) ∧
      u4.pgms[q].dly.short = decide (u4.pagesHeld q < u2.pgms[q].dly.restartNeed)) := by
  obtain ⟨released, hist, -⟩ := by_.released.gone q (mem_allProgs q)
  by_cases running : u3.pgms[q].ctl.state = .running
  · have asked := by_.asked.asked q (mem_allProgs q) running
    rw [asked, released]
    exact ⟨rfl, rfl, rfl, rfl, rfl, fun _ => ⟨rfl, hist, rfl, rfl, rfl, rfl, rfl⟩⟩
  · obtain ⟨same, -⟩ := by_.asked.left q (.inr running)
    rw [same, released]
    rw [released] at running
    exact ⟨rfl, rfl, rfl, rfl, rfl, fun run => absurd run running⟩

/-- R79: the records of a programme after RESTART PROC. -/
theorem RestartedBy.record (q : ProgId) (defined : b.pgms[q].ctl.state ≠ .undefined) :
    let c := b.pgms[q].ctl
    let d := b.pgms[q].dly
    let g := u4.pgms[q]
    g.ctl = { c with active := .main, revertCount := 0, changeovers := 0, lcPgm := 96, pads := List.replicate c.lanes.length 0
                     inflight := none, pending := Change.empty, out := if c.state = .running then .opened else .silent
                     fadePos := 0, fadeHold := false } ∧
    g.mtr = Meter.start c.lanes.length ∧ g.cor = Correction.start [c.basePreset] ∧
    g.dly.v = d.v ∧ g.dly.o = d.o ∧ g.dly.motionMode = d.motionMode ∧
    (c.state = .running → g.dly.motion = .still ∧ g.dly.hist = 0 ∧ g.dly.pendTarget = none ∧ g.dly.dApp = g.dly.dTarget ∧
      g.dly.dReq = (lengthFormed 96 d).dReq ∧ g.dly.short = decide (u4.pagesHeld q * 1024 < max 1 g.dly.dReq) ∧
      g.dly.dTarget = min g.dly.dReq (u4.pagesHeld q * 1024)) := by
  intro c d g
  obtain ⟨rest, v, o, motionMode, -, line⟩ := by_.late q
  have pgm := by_.drops.pgm q
  have figures := by_.drops.figures q
  unfold Delay.figures at figures
  simp only [Prod.mk.injEq] at figures
  obtain ⟨v1, o1, -, -, -, mode1, -⟩ := figures
  have ctl : u1.pgms[q].ctl = c := by rw [pgm]
  have made := (by_.pgm q).trans (Pgm.restart_defined (u1.pagesHeld q) (by rw [ctl]; exact defined))
  rw [ctl] at made
  have formed : (u1.pgms[q].dly.form 96).dReq = (lengthFormed 96 d).dReq := by
    rw [Delay.form_eq]
    unfold lengthFormed
    rw [v1, o1]
  have dly : u2.pgms[q].dly.v = d.v ∧ u2.pgms[q].dly.o = d.o ∧ u2.pgms[q].dly.motionMode = d.motionMode := by
    rw [made]
    dsimp only
    split <;> exact ⟨v1, o1, mode1⟩
  obtain ⟨v2, o2, mode2⟩ := dly
  refine ⟨?_, ?_, ?_, v.trans v2, o.trans o2, motionMode.trans mode2, fun running => ?_⟩
  · unfold g
    rw [rest, made]
  · unfold g
    rw [rest, made]
  · unfold g
    rw [rest, made]
  · have run : u2.pgms[q].ctl.state = .running := by
      rw [made]
      exact running
    have record : u2.pgms[q].dly.motion = .still ∧ u2.pgms[q].dly.hist = 0 ∧ u2.pgms[q].dly.pendTarget = none ∧
        u2.pgms[q].dly.dReq = (lengthFormed 96 d).dReq := by
      rw [made]
      dsimp only
      rw [if_pos running]
      exact ⟨rfl, rfl, rfl, formed⟩
    obtain ⟨still, empty, none_, length⟩ := record
    obtain ⟨motion, hist, pend, dReq, target, app, short⟩ := line run
    refine ⟨motion.trans still, ?_, pend.trans none_, app.trans target.symm, dReq.trans length, ?_, ?_⟩
    · exact Nat.le_zero.mp (empty ▸ hist)
    · rw [short, dReq]
      exact decide_eq_decide.mpr (restartNeed_pages u2.pgms[q].dly (u4.pagesHeld q)).1
    · rw [target, dReq]

/-- R80: the PAGES notices of RESTART PROC, where no slot holds a page. -/
theorem RestartedBy.told (none_ : ∀ c : SlotId, b.slotPages c = 0) :
    let runs := fun (p : ProgId) => decide (b.pgms[p].ctl.state = .running)
    let need := fun (p : ProgId) => max 1 ((u4.pgms[p].dly.dReq + 1023) / 1024)
    let later := fun (p : ProgId) => ((allProgs.filter fun q => runs q && decide (p < q)).map fun q =>
      (u4.pagesHeld q - min (b.pagesHeld q) (need q)) * min 8 b.pgms[q].ctl.lanes.length).sum
    askLines u3 u4 allProgs =
      (allProgs.filter fun p => runs p && (u4.pgms[p].dly.short || b.pgms[p].dly.short)).map fun p =>
        .notice .pages [.num p.val, .num (u4.pagesHeld p), .num (need p), .num u4.pgms[p].dly.dTarget,
          .kw (if u4.pgms[p].dly.short then .SHORT else .MET), .num (u4.freePages + later p : Nat)] := by
  intro runs need later
  have same := by_.idle none_
  have pgms : u1.pgms = b.pgms := by rw [same]
  have owners : u2.owners = b.owners := by rw [by_.restarts, same]
  have ctl : ∀ q : ProgId, u3.pgms[q].ctl = u2.pgms[q].ctl := fun q => by rw [(by_.released.gone q (mem_allProgs q)).1]
  have state : ∀ q : ProgId, u3.pgms[q].ctl.state = b.pgms[q].ctl.state := fun q => by
    rw [ctl, by_.pgm, Pgm.restart_state, pgms]
  have short : ∀ q : ProgId, b.pgms[q].ctl.state = .running → u3.pgms[q].dly.short = b.pgms[q].dly.short := by
    intro q running
    rw [← pgms] at running ⊢
    rw [(by_.late q).2.2.2.2.1, by_.pgm, Pgm.restart_defined _ (by rw [running]; exact PgmState.noConfusion)]
    dsimp only
    rw [if_pos running]
    rfl
  have grants : ∀ p : ProgId, granted u3 u4 (allProgs.filter (p < ·)) = later p := by
    intro p
    unfold granted later
    rw [List.filter_filter]
    have which : (fun q : ProgId => decide (u3.pgms[q].ctl.state = .running) && decide (p < q)) = fun q => runs q && decide (p < q) :=
      funext fun q => by rw [state]
    rw [which]
    refine congrArg List.sum (List.map_congr_left fun q mem => ?_)
    have running : b.pgms[q].ctl.state = .running := by
      have both := (List.mem_filter.mp mem).2
      rw [Bool.and_eq_true] at both
      exact of_decide_eq_true both.1
    have lanes : u3.pgms[q].ctl.lanes = b.pgms[q].ctl.lanes := by
      rw [ctl, by_.pgm, pgms, Pgm.restart_defined _ (by rw [running]; exact PgmState.noConfusion)]
    have run2 : u2.pgms[q].ctl.state = .running := by rw [by_.pgm, Pgm.restart_state, pgms, running]
    rw [lanes]
    by_cases some_ : 0 < b.pgms[q].ctl.lanes.length
    · have held : u3.pagesHeld q = min (b.pagesHeld q) (need q) := by
        have now : u2.pagesHeld q = b.pagesHeld q := by
          unfold State.pagesHeld
          rw [owners]
        have dReq : u2.pgms[q].dly.dReq = u4.pgms[q].dly.dReq := by
          obtain ⟨-, -, -, -, -, line⟩ := by_.late q
          obtain ⟨-, -, -, dReq, -⟩ := line run2
          exact dReq.symm
        rw [(by_.released.gone q (mem_allProgs q)).2.2]
        unfold State.pagesKept Delay.restartNeed
        rw [← ctl, lanes, ctl, if_pos ⟨run2, some_⟩, now, dReq]
      rw [held]
    · rw [Nat.eq_zero_of_not_pos some_, Nat.min_zero, Nat.mul_zero, Nat.mul_zero]
  unfold askLines
  have which : ∀ p ∈ allProgs, (decide (u3.pgms[p].ctl.state = .running) && (u4.pgms[p].dly.short || u3.pgms[p].dly.short)) =
      (runs p && (u4.pgms[p].dly.short || b.pgms[p].dly.short)) := by
    intro p _
    rw [state]
    by_cases running : b.pgms[p].ctl.state = .running
    · rw [short p running]
    · unfold runs
      rw [decide_eq_false running, Bool.false_and, Bool.false_and]
  rw [List.filter_congr which]
  refine List.map_congr_left fun p _ => ?_
  unfold askLine
  rw [grants]
  rfl

end steps

theorem askLines_pages (v w : State) (ps : List ProgId) : PagesTold (askLines v w ps) := by
  intro x mem
  obtain ⟨p, -, rfl⟩ := List.mem_map.mp mem
  exact ⟨_, rfl⟩

/-- Settles O58. -/
theorem restartProcKeepsConfiguration : Obligations.RestartProcKeepsConfiguration := by
  intro s tag ready ht idle
  have started : exec (.restartProc tag []) s = .next (restartProc (s.sendReply (some tag) (.ok [] []))) := by
    refine (receive_ready _ _ s ready).trans (congrArg Host.Outcome.next ?_)
    unfold takeRestartProc
    rw [if_neg (Nat.not_lt.mpr ht), if_neg (not_not_intro rfl), idle]
    rfl
  obtain ⟨u1, u2, u3, u, steps, by_⟩ := restartProc_steps (s.sendReply (some tag) (.ok [] []))
  rw [steps] at started
  have frame := by_.frame
  have late := by_.record
  have slotPages := by_.slotPages
  have slots := fun c => (by_.slots c).1
  obtain ⟨lanes, points, lines, watch⟩ := restartBlocks_blocks (s.sendReply (some tag) (.ok [] []))
  have link : (helloNotice u).link = u.link.notice (.notice .hello [.kw .OJ_2408, .kw .PROC, .kw s.profile.status.kw,
      .num (if s.link.fast then 460800 else 115200)]) := by
    have sent : (helloNotice u).link = u.link.notice (.notice .hello [.kw .OJ_2408, .kw u.cause.kw,
      .kw u.profile.status.kw, natFld u.link.rate]) := rfl
    have cause : u.cause = .proc := by rw [frame]; rfl
    have profile : u.profile = s.profile := by rw [frame]; rfl
    have fast : u.link.fast = s.link.fast := by
      obtain ⟨told, -, sent⟩ := by_.drops.told
      rw [by_.asked.link, Link.notices_fast, by_.released.rest, by_.restarts, sent, Link.notices_fast]
      rfl
    rw [sent, cause, profile]
    unfold Link.rate
    rw [fast]
    cases s.link.fast <;> rfl
  have whole : helloNotice u = { restartBlocks (s.sendReply (some tag) (.ok [] [])) with
      pgms := u.pgms, owners := u.owners, slots := u1.slots, link := (helloNotice u).link } :=
    congrArg (fun x : State => { x with link := (helloNotice u).link }) frame
  generalize (helloNotice u).link = l at *
  rw [whole] at started
  refine ⟨_, started, rfl, rfl, rfl, rfl, rfl, rfl, rfl, fun i => Vector.getElem_replicate i.isLt, lanes, points,
    fun c => ⟨slots c, slotPages c⟩, lines, watch, fun p defined => ?_, ?_, rfl⟩
  · exact late p defined
  · obtain ⟨told, pages, sent⟩ := by_.drops.told
    have asked : u.link = u1.link.notices (askLines u3 u allProgs) := by
      rw [by_.asked.link, by_.released.rest, by_.restarts]
    by_cases none_ : ∀ c : SlotId, s.slotPages c = 0
    · refine ⟨askLines u3 u allProgs, askLines_pages _ _ _, ?_, fun _ => by_.told none_⟩
      have same : u1.link = (restartBlocks (s.sendReply (some tag) (.ok [] []))).link := by rw [by_.idle none_]
      rw [notices_append, link, asked, same]
      rfl
    · refine ⟨told ++ askLines u3 u allProgs, fun x mem => ?_, ?_, fun no => absurd no none_⟩
      · rcases List.mem_append.mp mem with mem | mem
        · exact pages x mem
        · exact askLines_pages _ _ _ x mem
      · rw [notices_append, notices_append, link, asked, sent]
        rfl

end Sys2Proof.Machine
end

section
/-! PROOFS, O59. Characters, lines and their commands (R186 to R188, R194). -/

namespace Sys2Proof.Machine

/-! ### Every verb makes a line (R187) -/

/-- A verb whose commands are lines of the link. -/
def VerbRow.makesLines (r : VerbRow) : Prop := ∀ tag args, isLine (r.make tag args) = true

theorem verb_makesLines {words : List String} {k : NameKind} {f : Nat → List Tok → Instr}
    (line : ∀ tag args, isLine (f tag args) = true) : (verb words k f).makesLines := fun tag _ => line tag _

theorem mtrQuery_makesLines : VerbRow.makesLines { words := ["MTR?"], make := mtrQueryOf } := by
  intro tag args
  change isLine (mtrQueryOf tag args) = true
  unfold mtrQueryOf
  split
  · split <;> rfl
  · rfl

theorem almForce_makesLines : VerbRow.makesLines { words := ["ALM", "FORCE"], make := almForceOf } := by
  intro tag args
  change isLine (almForceOf tag args) = true
  unfold almForceOf
  split
  · split
    · rfl
    · split <;> rfl
  · rfl

theorem linkVerbs_lines : ∀ r ∈ linkVerbs, r.makesLines := by
  unfold linkVerbs
  simp only [List.forall_mem_cons, List.not_mem_nil, false_implies, implies_true, and_true]
  refine ⟨?_, ?_, ?_, ?_, ?_, ?_, ?_, ?_, ?_, ?_, ?_, ?_⟩
  all_goals exact verb_makesLines fun _ _ => rfl

theorem programmeVerbs_lines : ∀ r ∈ programmeVerbs, r.makesLines := by
  unfold programmeVerbs
  simp only [List.forall_mem_cons, List.not_mem_nil, false_implies, implies_true, and_true]
  refine ⟨?_, ?_, ?_, ?_, ?_, ?_, ?_, ?_, ?_, ?_, ?_, ?_, mtrQuery_makesLines, ?_⟩
  all_goals exact verb_makesLines fun _ _ => rfl

theorem gainVerbs_lines : ∀ r ∈ gainVerbs, r.makesLines := by
  unfold gainVerbs
  simp only [List.forall_mem_cons, List.not_mem_nil, false_implies, implies_true, and_true]
  refine ⟨?_, ?_, ?_, ?_, ?_, ?_, ?_, ?_, ?_⟩
  all_goals exact verb_makesLines fun _ _ => rfl

theorem alarmVerbs_lines : ∀ r ∈ alarmVerbs, r.makesLines := by
  unfold alarmVerbs
  simp only [List.forall_mem_cons, List.not_mem_nil, false_implies, implies_true, and_true]
  refine ⟨?_, ?_, ?_, almForce_makesLines, ?_, ?_, ?_, ?_, ?_, fun _ _ => rfl, ?_, ?_, ?_, ?_, ?_⟩
  all_goals exact verb_makesLines fun _ _ => rfl

theorem captureVerbs_lines : ∀ r ∈ captureVerbs, r.makesLines := by
  unfold captureVerbs
  simp only [List.forall_mem_cons, List.not_mem_nil, false_implies, implies_true, and_true]
  refine ⟨?_, ?_, ?_, ?_, ?_, ?_, ?_, ?_, ?_, ?_⟩
  all_goals exact verb_makesLines fun _ _ => rfl

/-- R187: a tag and a verb, known or not, make a line. -/
theorem readVerb_line (tag : Nat) (ws : List LineWord) : isLine (readVerb tag ws) = true := by
  unfold readVerb
  cases found : verbRows.findSome? fun r => (behindVerb r.words ws).map (r.make tag) with
  | none => rfl
  | some i =>
    obtain ⟨r, mem, made⟩ := List.exists_of_findSome?_eq_some found
    obtain ⟨args, -, rfl⟩ := Option.map_eq_some_iff.mp made
    unfold verbRows at mem
    simp only [List.mem_append] at mem
    rcases mem with (((mem | mem) | mem) | mem) | mem
    · exact linkVerbs_lines r mem tag args
    · exact programmeVerbs_lines r mem tag args
    · exact gainVerbs_lines r mem tag args
    · exact alarmVerbs_lines r mem tag args
    · exact captureVerbs_lines r mem tag args

theorem readLine_line (w : LineWord) (ws : List LineWord) : isLine (readLine w ws) = true := by
  unfold readLine
  split
  · rfl
  · rfl
  · exact readVerb_line _ _

/-! ### A character (R186, R194) -/

/-- R188: a powered part takes a line, or lets it wait. -/
theorem exec_takeLine {i : Instr} {s : State} (powered : s.powered = true) (line : isLine i = true) :
    exec i s = .next (takeLine i s) := by
  rw [exec_line i s line]
  unfold receive takeLine
  rw [powered, if_neg Bool.noConfusion]
  split <;> rfl

/-- R186: a line feed ends the line, which is taken or waits. -/
theorem receiveChar_feed {s : State} (powered : s.powered = true) :
    receiveChar '\n' true s = s.link.rx.line.elim id takeLine { s with link := { s.link with rx := Receiver.empty } } := by
  rw [receiveChar_eq _ _ _ powered]
  rfl

/-- R186: a character that ends no line. -/
theorem receiveChar_inside {s : State} {c : Char} {framed : Bool} (powered : s.powered = true)
    (inside : ¬ (framed = true ∧ (c = '\r' ∨ c = '\n'))) :
    receiveChar c framed s = { s with link := { s.link with rx :=
      if s.link.rx.skip ∨ s.link.rx.tooLong then s.link.rx
      else if s.link.rx.chars.length < 160 then { s.link.rx with chars := s.link.rx.chars ++ [c], bad := s.link.rx.bad || !framed }
      else { Receiver.empty with tooLong := true } } } := by
  rw [receiveChar_eq _ _ _ powered, Receiver.take_line, if_neg fun feed => inside ⟨feed.1, .inr feed.2⟩]
  unfold Receiver.take
  rw [if_neg fun ret => inside ⟨ret.1, .inl ret.2⟩, if_neg fun feed => inside ⟨feed.1, .inr feed.2⟩]
  by_cases lost : s.link.rx.skip = true ∨ s.link.rx.tooLong = true
  · rw [if_pos lost, if_pos lost]
    rfl
  · rw [if_neg lost, if_neg lost]
    by_cases room : s.link.rx.chars.length < 160
    · rw [if_pos room, if_pos (show _ < Config.rxMax from room)]
      rfl
    · rw [if_neg room, if_neg (show ¬ _ < Config.rxMax from room)]
      rfl

/-- R187, R194: what a line gives at its line feed, for a line that is not skipped. -/
theorem Receiver.line_words {r : Receiver} {w : LineWord} {ws : List LineWord} (kept : r.skip = false) (short : r.tooLong = false)
    (words : lineWords r.chars = w :: ws) : r.line = some (if r.bad then .badLine (tagOf w) else readLine w ws) := by
  unfold Receiver.line
  rw [kept, short, if_neg Bool.false_ne_true, if_neg Bool.false_ne_true, words]

theorem Receiver.line_spaces {r : Receiver} (spaces : ∀ x ∈ r.chars, x = ' ') (short : r.tooLong = false) : r.line = none := by
  unfold Receiver.line
  split
  · rfl
  · rw [short, if_neg Bool.false_ne_true, lineWords_spaces _ spaces]

/-- R194: an unpowered part discards a character. -/
theorem Receiver.discard_eq (c : Char) (framed : Bool) (r : Receiver) :
    r.discard c framed = {
      chars := [], bad := false, tooLong := false
      skip := if framed = true ∧ (c = '\r' ∨ c = '\n')
        then decide (c = '\r') && decide (r.skip = true ∨ r.tooLong = true ∨ r.chars ≠ []) else true } := by
  unfold Receiver.discard
  by_cases ret : framed = true ∧ c = '\r'
  · obtain ⟨stop, rfl⟩ := ret
    rw [if_pos ⟨stop, rfl⟩, restarted_eq, if_pos ⟨stop, .inl rfl⟩]
    rfl
  · rw [if_neg ret]
    by_cases feed : framed = true ∧ c = '\n'
    · obtain ⟨stop, rfl⟩ := feed
      rw [if_pos ⟨stop, .inr rfl⟩, decide_eq_false (not_not_intro ⟨stop, rfl⟩)]
      rfl
    · have inside : ¬ (framed = true ∧ (c = '\r' ∨ c = '\n')) := fun ends =>
        ends.2.elim (fun h => ret ⟨ends.1, h⟩) fun h => feed ⟨ends.1, h⟩
      rw [if_neg inside, decide_eq_true feed]
      rfl

/-- Settles O59. -/
theorem linesAreTakenInOrder : Obligations.LinesAreTakenInOrder := by
  refine ⟨fun s c framed => ?_, fun s c powered line full => ?_, fun s ready => ?_, fun s c ready line => ?_, fun s powered => ?_⟩
  · intro r u made empty ends gives
    have clear : r.skip = false → r.tooLong = false → ¬ (s.link.rx.skip = true ∨ s.link.rx.tooLong = true) := by
      intro kept short
      rw [show s.link.rx.skip = false from kept, show s.link.rx.tooLong = false from short]
      decide
    refine ⟨fun powered => ⟨?_, ?_, ?_, ?_, ?_⟩, fun off => ?_⟩
    · rintro rfl rfl
      exact (receiveChar_eq _ _ _ powered).trans rfl
    · rintro rfl rfl
      have fed : u = r.line.elim id takeLine (made empty) := receiveChar_feed powered
      have given : ∀ i, r.line = some i → isLine i = true → gives i := by
        intro i some_ line
        have taken : exec i (made empty) = .next (takeLine i (made empty)) := exec_takeLine powered line
        rw [some_] at fed
        exact taken.trans (congrArg _ fed.symm)
      refine ⟨fun nothing => ?_, fun kept long => ?_, fun w ws kept short words => ?_⟩
      · have none_ : r.line = none := by
          rcases nothing with skip | ⟨short, spaces⟩
          · exact if_pos skip
          · exact Receiver.line_spaces spaces short
        rw [none_] at fed
        exact fed
      · refine given _ ?_ rfl
        unfold Receiver.line
        rw [kept, long]
        rfl
      · refine given _ ((Receiver.line_words kept short words).trans (congrArg some ?_)) ?_
        · unfold readLine
          cases tagOf w <;> cases ws <;> rfl
        · split
          · rfl
          · split
            · rfl
            · split
              · rfl
              · exact readVerb_line _ _
    · intro inside lost
      refine (receiveChar_inside powered inside).trans ?_
      rw [if_pos lost]
    · intro inside kept short room
      refine (receiveChar_inside powered inside).trans ?_
      rw [if_neg (clear kept short), if_pos room]
    · intro inside kept short full
      refine (receiveChar_inside powered inside).trans ?_
      rw [if_neg (clear kept short), if_neg (Nat.not_lt.mpr full)]
      rfl
    · intro begun
      refine (receiveChar_unpowered c framed s off).trans ?_
      rw [Receiver.discard_eq]
  · rw [exec_line c s line]
    have off : ¬ s.powered = false := by
      rw [powered]
      exact Bool.noConfusion
    exact (if_neg off).trans (if_neg fun ⟨few, none_⟩ => full.elim (Nat.not_lt.mpr few) fun some_ => some_ none_)
  · intro untagged
    have answered : ∀ i, isLine i = true → exec i s = .next (runLine i s) := fun i line =>
      (exec_line i s line).trans (receive_ready i (runLine i) s ready)
    refine ⟨answered .lineTooLong rfl, answered (.badLine none) rfl, answered (.unknownVerb none) rfl, fun tag ht => ⟨?_, ?_⟩⟩
    · refine (answered (.unknownVerb (some tag)) rfl).trans (congrArg _ ?_)
      exact if_pos ht
    · refine (answered (.badLine (some tag)) rfl).trans (congrArg _ ?_)
      exact if_pos ht
  · exact (exec_line c s line).trans (receive_ready c (runLine c) s ready)
  · intro sent
    have ran : exec .txLineSent s = .next (txLineSent s) := event_powered _ s powered
    have left : ∀ x rest, s.link.fifo = x :: rest → txLineSent s = takeWaiting s.link.waiting.length (sent x rest) := by
      intro x rest fifo
      unfold txLineSent
      rw [fifo]
      rfl
    rw [ran]
    refine ⟨fun none_ => ?_, fun x rest fifo stays => ?_, fun x rest i w fifo room waiting => ?_⟩
    · unfold txLineSent
      rw [none_]
    · rw [left x rest fifo]
      rcases stays with none_ | full
      · rw [none_]
        rfl
      · cases waiting : s.link.waiting with
        | nil => rfl
        | cons i w =>
          have still : (sent x rest).link.waiting = i :: w := waiting
          rw [List.length_cons, takeWaiting, still]
          exact congrArg _ (if_neg (Nat.not_le.mpr full))
    · have still : (sent x rest).link.waiting = i :: w := waiting
      rw [left x rest fifo, waiting, List.length_cons, takeWaiting, still]
      exact congrArg _ (if_pos room)

end Sys2Proof.Machine
end

section
/-! PROOFS, O60. The queries of section 12.4: what each reports, and what CLEAR and WATCH? clear. -/

namespace Sys2Proof.Machine

/-! ### Fields as the statement writes them -/

theorem optFld_map {α β : Type} (f : β → Fld) (g : α → β) (o : Option α) : optFld (fun x => f (g x)) o = optFld f (o.map g) := by
  cases o <;> rfl

theorem deviationFld_eq (o : Option Nat) : deviationFld o = match o with
    | none => .dash
    | some r => if inRange r then .num (deviation r (nearestClass r)) else .dash := by
  cases o <;> rfl

theorem isSome_opt {α : Type} (o : Option α) (f : Fld) :
    (if o.isNone = true then Fld.dash else f) = if o = none then Fld.dash else f := by
  cases o <;> rfl

/-- R57: the record of an UNDEFINED programme. -/
theorem pgmFlds_undefined {c : Ctl} (no : c.state = .undefined) : pgmFlds c =
    [.kw .UNDEFINED, .dash, .dash, .dash, .dash, .dash, .dash, .dash, .dash, .num c.changeovers, .dash, .dash, .dash, .dash, .dash] := by
  unfold pgmFlds
  rw [no]
  rfl

theorem pgmFlds_defined {c : Ctl} (defined : c.state ≠ .undefined) : pgmFlds c =
    [.kw c.state.kw, .kw c.layout.kw, finsFld c.lanes, .num c.basePreset.val, .kw c.mode.kw, .kw c.active.kw,
     .kw (if c.revert.isSome then .AUTO else .MANUAL), optNat c.revert, .num c.revertCount,
     .num c.changeovers, .num c.lcPgm, .nums (c.pads.map fun n => (n : Int)), .kw c.out.kw,
     optFld Fld.kw (c.pending.source.map fun x => x.1.kw), optFld Fld.kw (c.pending.mode.map Mode.kw)] := by
  unfold pgmFlds
  split
  next no => exact absurd no defined
  next =>
    rw [← optFld_map, ← optFld_map]
    rfl

/-- R81: the delay record of a defined programme. -/
theorem delayFlds_defined {s : State} {p : ProgId} (defined : s.pgms[p].ctl.state ≠ .undefined) :
    let c := s.pgms[p].ctl
    let d := s.pgms[p].dly
    let run := fun (n : Nat) => Fld.num (if c.state = .running then (n : Int) else 0)
    delayFlds s p =
      [.num d.v, .num d.o, .num d.t, .num c.lcPgm, .num d.dReq, run d.dTarget, run d.dApp,
       run (s.pagesHeld p), run (s.need p), run d.hist, .kw d.motionMode.kw, .kw d.motion.kw,
       optNat d.pendTarget, .kw (if d.short then .SET else .CLEAR), .kw (if d.floor then .SET else .CLEAR)] := by
  intro c d run
  simp only [run, c, d, delayFlds, State.needShown]
  cases state : s.pgms[p].ctl.state with
  | undefined => exact absurd state defined
  | parked => rfl
  | running => rfl

/-- R131: the fields of an onset. -/
theorem onset_flds : Onset.flds = fun o =>
    [.num o.location, .num (peakLevel o.peak), .kw (if 0 < o.peak.toInt then .POS else .NEG)] := by
  funext o
  unfold Onset.flds boolFld
  simp only [decide_eq_true_eq]

/-- R99: the fields of a meter. -/
theorem meterFlds_eq (g : Pgm) : meterFlds g =
    [.kw g.ctl.state.kw, optInt g.mtr.lm, optInt g.mtr.ls, optInt g.mtr.li, .num g.mtr.admitted, .num g.mtr.ring.length] ++
      (match g.mtr.lastReport with
        | some x => [.num x.1, .kw (if x.2 then .VALID else .INVALID)]
        | none => [.dash, .dash]) ++
      (match g.mtr.corr with
        | .absent => [.dash]
        | .undefined => [.num 0, .kw .U]
        | .value k => [.num k]) ++ [.num g.mtr.clip] := by
  unfold meterFlds
  dsimp only
  cases g.mtr.lastReport <;> cases g.mtr.corr <;> rfl

theorem rateFld_eq (l : Link) : natFld l.rate = .num (if l.fast then 460800 else 115200) := by
  unfold Link.rate
  cases l.fast <;> rfl

theorem clampNote_flag (lo hi x : Int) (low : 0 ≤ lo) :
    flagIf (clampNote lo hi x).2 .clamped = if (((max lo (min x hi)).toNat : Nat) : Int) ≠ x then [.clamped] else [] := by
  have same : (((max lo (min x hi)).toNat : Nat) : Int) = clampInt lo hi x := Int.toNat_of_nonneg (by omega)
  rw [same]
  unfold clampNote
  rw [flagIf_decide]

theorem gpiCfgFlds_eq (c : GpiCfg) : gpiCfgFlds c = [.kw c.polarity.kw, .num c.debounce] ++ match c.func with
    | .nothing => [.kw .NONE]
    | .hold ps => [.kw .HOLD, finsFld ps]
    | .brk ps n => [.kw .BREAK, finsFld ps, .num n.val]
    | .reset ps => [.kw .RESET, finsFld ps]
    | .capture c => [.kw .CAPTURE, .num c.val] := by
  unfold gpiCfgFlds
  cases c.func <;> rfl

theorem Gpo.computed_eq (g : Gpo) : g.computed = (g.cfg.manual || decide (g.contrib ≠ [])) := by
  unfold Gpo.computed
  cases g.contrib <;> rfl

/-- Settles O60. -/
theorem queriesReportState : Obligations.QueriesReportState := by
  intro s tag ready ht kwOr
  refine ⟨receive_ok ready ht rfl, receive_ok ready ht rfl, fun t i t_ => ?_, ?_, fun t k t_ => ?_, receive_ok ready ht rfl,
    fun t p t_ => ?_, receive_ok ready ht rfl, ?_, fun t n t_ => receive_ok (f := reqPresetQuery [t]) ready ht (withIndex_fin t_),
    fun idle => ?_, fun busy => ?_, fun t n t_ => ?_, receive_ok ready ht rfl, ?_, receive_ok ready ht rfl, fun t l t_ => ?_,
    receive_ok ready ht rfl, fun t c t_ => ?_, receive_ok ready ht rfl, ?_, fun t e read found => ?_, fun t n read => ?_, ?_⟩
  · intro p fields
    have shown : portFlds p = fields := by
      unfold portFlds fields
      rw [deviationFld_eq]
      unfold classFld kwOr
      rw [optFld_map]
      rfl
    exact ⟨receive_ok (f := reqPortQuery [t]) ready ht ((withIndex_fin t_).trans (congrArg (okReply · s) shown)),
      receive_ok (f := reqPortQuery [t, .kw .CLEAR]) ready ht ((withIndex_fin t_).trans (congrArg (okReply · _) shown))⟩
  · refine receive_ok (f := reqPortQuery []) ready ht (congrArg (okReply · s) ?_)
    unfold classFld kwOr
    simp only [optFld_map]
  · intro l fields
    have shown : laneFlds l = fields := by
      unfold laneFlds fields
      cases l.main <;> cases l.backup <;> rfl
    exact ⟨receive_ok (f := reqLaneQuery [t]) ready ht ((withIndex_fin t_).trans (congrArg (okReply · s) shown)),
      receive_ok (f := reqLaneQuery [t, .kw .CLEAR]) ready ht ((withIndex_fin t_).trans (congrArg (okReply · _) shown))⟩
  · intro c d m r run items
    have shown : pgmFlds c = items := by
      unfold items
      split
      next no => exact pgmFlds_undefined no
      next defined => exact pgmFlds_defined defined
    refine ⟨receive_ok (f := reqPgmQuery [t]) ready ht ((withIndex_fin t_).trans (congrArg (okReply · s) shown)),
      receive_ok (f := reqPgmQuery [t, .kw .CLEAR]) ready ht ((withIndex_fin t_).trans (congrArg (okReply · _) shown)),
      fun no => ⟨?_, ?_⟩, fun defined => ⟨?_, ?_⟩, ?_⟩
    · refine receive_ok (f := reqDlyQuery [t]) ready ht ((withIndex_fin t_).trans (congrArg (okReply · s) ?_))
      simp only [delayFlds, show s.pgms[p].ctl.state = .undefined from no]
    · exact receive_ok (f := reqPresetPgmQuery [t]) ready ht ((withIndex_fin t_).trans (congrArg (okReply · s) (if_pos no)))
    · exact receive_ok (f := reqDlyQuery [t]) ready ht
        ((withIndex_fin t_).trans (congrArg (okReply · s) (delayFlds_defined defined)))
    · intro fields
      have shown : correctionFlds s.pgms[p] = fields := if_neg defined
      exact ⟨receive_ok (f := reqPresetPgmQuery [t]) ready ht ((withIndex_fin t_).trans (congrArg (okReply · s) shown)),
        receive_ok (f := reqPresetPgmQuery [t, .kw .CLEAR]) ready ht ((withIndex_fin t_).trans (congrArg (okReply · _) shown))⟩
    · intro report corr levels
      have shown : meterFlds s.pgms[p] = levels ++ report ++ corr ++ [.num m.clip] := meterFlds_eq s.pgms[p]
      refine ⟨receive_ok (f := reqMtrQuery [t]) ready ht ((withIndex_fin t_).trans (congrArg (okReply · s) shown)),
        fun b n read => ?_⟩
      intro first
      refine receive_okFlags (f := reqMtrBinsQuery [t, b]) ready ht ?_
      rw [← clampNote_flag 0 299 n (by decide)]
      have answer : reqMtrBinsQuery [t, b] s =
          withProg t s fun p => okClamped (binFlds s.pgms[p].mtr (clampNote 0 299 n).1.toNat) (clampNote 0 299 n).2 s := by
        simp only [reqMtrBinsQuery, read]
      exact answer.trans (withIndex_fin t_)
  · intro short
    refine receive_ok (f := reqDlyQuery []) ready ht rfl
  · exact receive_ok (f := reqPrbQuery []) ready ht (congrArg (okReply · s) (by
      unfold probeFlds
      rw [if_pos idle, idle]
      rfl))
  · intro r head onsets
    refine receive_ok (f := reqPrbQuery []) ready ht (congrArg (okReply · s) ?_)
    unfold probeFlds kwOr
    rw [if_neg busy, optFld_map Fld.kw CancelCause.kw, onset_flds]
    rfl
  · intro x last state fields
    have shown : pointFlds x = fields := by
      unfold pointFlds fields
      rw [pointShown_eq]
      have value : optFld measValFld x.lastValue = last := by
        unfold last
        rcases s.points[n].lastValue with _ | v | b <;> rfl
      rw [value]
      rfl
    exact ⟨receive_ok (f := reqAlmQuery [t]) ready ht ((withIndex_fin t_).trans (congrArg (okReply · s) shown)),
      receive_ok (f := reqAlmQuery [t, .kw .CLEAR]) ready ht ((withIndex_fin t_).trans (congrArg (okReply · _) shown))⟩
  · intro fifo
    refine ⟨receive_ok (f := reqGpiQuery []) ready ht rfl, fun t l t_ => ?_⟩
    intro g settings func level
    refine receive_ok (f := reqGpiQuery [t]) ready ht ((withIndex_fin t_).trans (congrArg (okReply · s) ?_))
    exact congrArg (· ++ level ++ fifo) (gpiCfgFlds_eq s.gpis[l].cfg)
  · intro g bit
    refine receive_ok (f := reqGpoQuery [t]) ready ht ((withIndex_fin t_).trans ?_)
    dsimp only
    rw [Gpo.computed_eq]
    rfl
  · intro x set settings source counts
    refine receive_ok (f := reqCapQuery [t]) ready ht ((withIndex_fin t_).trans (congrArg (okReply · s) ?_))
    have shown : optFlds TrigSource.flds x.trigSrc = source := by
      unfold source
      rcases s.slots[c].trigSrc with _ | n | _ | l | _ <;> rfl
    unfold slotFlds
    simp only [isSome_opt]
    rw [shown]
    rfl
  · intro queue front
    refine receive_ok (f := reqTakQuery []) ready ht rfl
  · intro entry args
    refine receive_ok (f := reqTakQuery [t]) ready ht ((withId_read read).trans ?_)
    have small : ¬ ((e.id.toNat : Int) < 0 ∨ 65535 < (e.id.toNat : Int)) := by
      have bound := e.id.isLt
      omega
    have same : (fun x : TakeEntry => decide ((x.id.toNat : Int) = (e.id.toNat : Int))) = fun x => decide (x.id = e.id) := by
      funext x
      exact decide_eq_decide.mpr (Int.natCast_inj.trans BitVec.toNat_inj)
    rw [if_neg small, same, found]
    refine congrArg (okReply · s) (congrArg (entry ++ ·) ?_)
    unfold args
    cases e.action <;> rfl
  · intro k
    refine receive_okFlags (f := reqTakListQuery [t]) ready ht ?_
    rw [← clampNote_flag 0 31 n (by decide)]
    simp only [reqTakListQuery, read]
    rfl
  · intro fields
    have shown : helloFlds s = fields := by
      unfold helloFlds fields kwOr
      rw [← optFld_map, rateFld_eq]
      rfl
    exact ⟨receive_ok (f := reqHelloQuery []) ready ht (congrArg (okReply · s) shown),
      receive_ok (f := reqHelloQuery [.kw .CLEAR]) ready ht (congrArg (okReply · _) shown)⟩

end Sys2Proof.Machine
end

section
/-! PROOFS, O30. The level of an energy and the correlation (R90, R93). -/

namespace Sys2Proof.Machine

/-! ### Levels (R90) -/

/-- R90: the level of an energy, unrounded. -/
noncomputable def levelReal (E : ℝ) : ℝ := 100 * (-0.691 + 10 * Real.logb 10 E)

theorem levelReal_eq (E : ℝ) : levelReal E = 1000 * Real.logb 10 E - 69.1 := by
  unfold levelReal
  ring

/-- R90: the test of a level against the real level. -/
theorem levelReaches_iff (num den : Nat) (some_ : 0 < num) (n : Int) (den0 : 0 < den) :
    levelReaches num den n = true ↔ (n : ℝ) - 1 / 2 ≤ levelReal ((num : ℝ) / den) := by
  have numR : (0 : ℝ) < num := by exact_mod_cast some_
  have denR : (0 : ℝ) < den := by exact_mod_cast den0
  unfold levelReaches
  rw [mulPowTenLe_iff, Nat.cast_pow, Nat.cast_pow, pow_mul_zpow_le_iff 5000 (by norm_num) _ _ denR.le numR.le,
    ← le_div_iff₀' denR, ← Real.le_logb_iff_rpow_le (by norm_num) (by positivity), levelReal_eq]
  push_cast
  constructor
  · intro h
    linarith
  · intro h
    linarith

/-- R90: a rational energy is at no half of a level. -/
theorem levelReal_not_half (e : ℚ) (pos : 0 < e) (n : Int) : levelReal (e : ℝ) ≠ n - 1 / 2 := by
  intro half
  have posR : (0 : ℝ) < e := by exact_mod_cast pos
  rw [levelReal_eq] at half
  have log : Real.logb 10 e * 5000 = ((5 * n + 343 : Int) : ℝ) := by
    push_cast
    linarith
  have power : (e : ℝ) ^ 5000 = (10 : ℝ) ^ (5 * n + 343 : Int) := by
    rw [← Real.rpow_intCast, ← log, Real.rpow_mul (by norm_num), Real.rpow_logb (by norm_num) (by norm_num) posR]
    exact (Real.rpow_natCast _ 5000).symm.trans (by norm_num)
  have rational : e ^ 5000 = (10 : ℚ) ^ (5 * n + 343 : Int) := by
    refine Rat.cast_injective (α := ℝ) ?_
    push_cast
    exact power
  have value := congrArg (padicValRat 2) rational
  have two : padicValRat 2 (10 : ℚ) = 1 := by
    have natural : padicValNat 2 10 = 1 := by
      rw [show (10 : ℕ) = 2 ^ 1 * 5 from rfl, padicValNat.mul (by norm_num) (by norm_num), padicValNat.prime_pow,
        padicValNat.eq_zero_of_not_dvd (by norm_num)]
    have cast := padicValRat.of_nat (p := 2) (n := 10)
    rw [natural] at cast
    exact_mod_cast cast
  rw [padicValRat.pow, padicValRat.zpow, two] at value
  push_cast at value
  omega

/-- R90: the search for a level finds it. -/
theorem levelOf_near (e : ℚ) (pos : 0 < e) :
    (levelReal e < -12000 → levelOf e = -12000) ∧ (-12000 ≤ levelReal e → |levelReal e - (levelOf e : ℝ)| < 1 / 2) := by
  have num : 0 < e.num.toNat := by
    have := Rat.num_pos.mpr pos
    omega
  have least : (1 : ℝ) ≤ (e.num.toNat : ℝ) := by exact_mod_cast num
  have den : (1 : ℝ) ≤ (e.den : ℝ) := by exact_mod_cast e.den_pos
  have ratio : (e : ℝ) = (e.num.toNat : ℝ) / e.den := by
    have numerator : ((e.num.toNat : Nat) : Int) = e.num := Int.toNat_of_nonneg (Rat.num_nonneg.mpr pos.le)
    rw [Rat.cast_def, ← numerator]
    rfl
  have test : ∀ m : Nat, levelReaches e.num.toNat e.den ((m : Int) - 12000) = true ↔ (m : ℝ) ≤ levelReal e + 12000.5 := by
    intro m
    rw [levelReaches_iff _ _ num _ e.den_pos, ← ratio]
    push_cast
    constructor <;> intro h <;> linarith
  have bound : levelReal e + 12000.5 < 2 ^ (Nat.log2 (302 * (Nat.log2 e.num.toNat + 1) + 12000) + 1) := by
    have digits : Real.logb 10 e ≤ (Nat.log2 e.num.toNat + 1 : ℝ) * 0.302 := by
      have below : (e : ℝ) ≤ 2 ^ (Nat.log2 e.num.toNat + 1) := by
        have top : (e.num.toNat : ℝ) < 2 ^ (Nat.log2 e.num.toNat + 1) := by exact_mod_cast Nat.lt_log2_self
        rw [ratio]
        exact (div_le_self (by positivity) den).trans top.le
      calc Real.logb 10 e ≤ Real.logb 10 (2 ^ (Nat.log2 e.num.toNat + 1)) :=
            Real.logb_le_logb_of_le (by norm_num) (by exact_mod_cast pos) below
        _ = (Nat.log2 e.num.toNat + 1 : ℝ) * Real.logb 10 2 := by
            rw [Real.logb_pow]
            push_cast
            ring
        _ ≤ _ := mul_le_mul_of_nonneg_left logb_two_le (by positivity)
    have power : ((302 * (Nat.log2 e.num.toNat + 1) + 12000 : Nat) : ℝ) < 2 ^ (Nat.log2 (302 * (Nat.log2 e.num.toNat + 1) + 12000) + 1) := by
      exact_mod_cast Nat.lt_log2_self
    push_cast at power
    rw [levelReal_eq]
    linarith
  have found : levelOf e = (⌊levelReal e + 12000.5⌋₊ : Int) - 12000 := by
    unfold levelOf
    rw [if_neg (not_le.mpr pos)]
    dsimp only
    rw [findMax_eq_floor _ _ _ test bound]
  refine ⟨fun low => ?_, fun high => ?_⟩
  · rw [found, Nat.floor_eq_zero.mpr (by linarith)]
    rfl
  · have below := Nat.floor_le (show 0 ≤ levelReal e + 12000.5 by linarith)
    have above := Nat.lt_floor_add_one (levelReal e + 12000.5)
    have apart : (⌊levelReal e + 12000.5⌋₊ : ℝ) ≠ levelReal e + 12000.5 := by
      intro whole
      refine levelReal_not_half e pos ((⌊levelReal e + 12000.5⌋₊ : Int) - 12000) ?_
      push_cast
      linarith
    have strict := lt_of_le_of_ne below apart
    rw [found, abs_lt]
    push_cast
    constructor <;> linarith

/-! ### The correlation (R93) -/

/-- R93: the correlation, in hundredths, against the real one. -/
theorem correlation_eq (a b c : Int) (ha : 0 ≤ a) (hb : 0 ≤ b) (hc : c ^ 2 ≤ a * b) (a0 : a ≠ 0) (b0 : b ≠ 0) :
    let x : ℝ := 100 * (c : ℝ) / Real.sqrt ((a : ℝ) * b)
    correlation a b c = .value (if 0 ≤ c then ⌊x⌋ else ⌈x⌉) := by
  intro x
  have aR : (0 : ℝ) < a := by exact_mod_cast lt_of_le_of_ne ha a0.symm
  have bR : (0 : ℝ) < b := by exact_mod_cast lt_of_le_of_ne hb b0.symm
  have root : 0 < Real.sqrt ((a : ℝ) * b) := Real.sqrt_pos.mpr (by positivity)
  have square : Real.sqrt ((a : ℝ) * b) ^ 2 = a * b := Real.sq_sqrt (by positivity)
  have absX : |x| = 100 * |(c : ℝ)| / Real.sqrt ((a : ℝ) * b) := by
    rw [abs_div, abs_mul, abs_of_pos root, abs_of_pos (show (0 : ℝ) < 100 by norm_num)]
  have test : ∀ m : Nat, decide (m ^ 2 * (a.natAbs * b.natAbs) ≤ 10000 * c.natAbs ^ 2) = true ↔ (m : ℝ) ≤ |x| := by
    intro m
    have castA : (a.natAbs : ℝ) = a := by rw [Nat.cast_natAbs, abs_of_nonneg ha]
    have castB : (b.natAbs : ℝ) = b := by rw [Nat.cast_natAbs, abs_of_nonneg hb]
    have castC : (c.natAbs : ℝ) = |(c : ℝ)| := by rw [Nat.cast_natAbs, Int.cast_abs]
    have real : m ^ 2 * (a.natAbs * b.natAbs) ≤ 10000 * c.natAbs ^ 2 ↔
        ((m : ℝ) * Real.sqrt ((a : ℝ) * b)) ^ 2 ≤ (100 * |(c : ℝ)|) ^ 2 := by
      rw [mul_pow, square, ← castA, ← castB, ← castC, mul_pow, show (100 : ℝ) ^ 2 = ((10000 : ℕ) : ℝ) by norm_num]
      generalize a.natAbs = A
      generalize b.natAbs = B
      generalize c.natAbs = C
      exact_mod_cast Iff.rfl
    rw [decide_eq_true_iff, real, absX, le_div_iff₀ root]
    exact pow_le_pow_iff_left₀ (by positivity) (by positivity) (by norm_num)
  have small : |x| < 2 ^ 7 := by
    have least : |(c : ℝ)| ≤ Real.sqrt ((a : ℝ) * b) := Real.abs_le_sqrt (by exact_mod_cast hc)
    rw [absX, div_lt_iff₀ root]
    linarith
  have found := findMax_eq_floor _ 7 |x| test small
  unfold correlation
  rw [if_neg (by tauto)]
  dsimp only
  rw [found]
  by_cases sign : 0 ≤ c
  · have up : 0 ≤ x := div_nonneg (mul_nonneg (by norm_num) (by exact_mod_cast sign)) root.le
    rw [if_neg (not_lt.mpr sign), if_pos sign, abs_of_nonneg up, Int.natCast_floor_eq_floor up]
  · have negative : (c : ℝ) ≤ 0 := by exact_mod_cast (not_le.mp sign).le
    have down : x ≤ 0 := div_nonpos_of_nonpos_of_nonneg (mul_nonpos_of_nonneg_of_nonpos (by norm_num) negative) root.le
    rw [if_pos (not_le.mp sign), if_neg sign, abs_of_nonpos down, Int.natCast_floor_eq_floor (neg_nonneg.mpr down),
      Int.floor_neg, neg_neg]

end Sys2Proof.Machine
end

section
/-! PROOFS, O30. The histogram: sums of powers of 10^(1/40) and their bounds (R91, R92). -/

namespace Sys2Proof.Machine

/-! ### Powers of 10^(1/40) -/

/-- R91: the ratio of the energies of neighbouring bins. -/
noncomputable def binRatio : ℝ := 10 ^ ((1 : ℝ) / 40)

theorem binRatio_pow (k : Nat) : binRatio ^ k = 10 ^ ((k : ℝ) / 40) := by
  unfold binRatio
  rw [← Real.rpow_natCast, ← Real.rpow_mul (by norm_num)]
  congr 1
  ring

theorem binRatio_forty : binRatio ^ 40 = 10 := by
  rw [binRatio_pow]
  norm_num

theorem one_le_binRatio : 1 ≤ binRatio := Real.one_le_rpow (by norm_num) (by norm_num)

theorem binRatio_pos : 0 < binRatio := lt_of_lt_of_le one_pos one_le_binRatio

/-- R92: a bin's power, by the whole tens and what is left. -/
theorem binRatio_split (i : Nat) : binRatio ^ i = 10 ^ (i / 40) * binRatio ^ (i % 40) := by
  conv_lhs => rw [← Nat.div_add_mod i 40, pow_add, pow_mul, binRatio_forty]

/-- R92: the floors that the sums are bounded by. -/
theorem rootFloor_near (prec k : Nat) (few : k < 40) :
    (rootFloor prec k : ℝ) ≤ binRatio ^ k * 2 ^ prec ∧ binRatio ^ k * 2 ^ prec < rootFloor prec k + 1 := by
  have pos : 0 ≤ binRatio ^ k * 2 ^ prec := mul_nonneg (pow_nonneg binRatio_pos.le k) (by positivity)
  have power : (binRatio ^ k * 2 ^ prec) ^ 40 = 10 ^ k * 2 ^ (40 * prec) := by
    rw [mul_pow, ← pow_mul, mul_comm k, pow_mul, binRatio_forty, ← pow_mul, mul_comm prec]
  have test : ∀ x : Nat, decide (x ^ 40 ≤ 10 ^ k * 2 ^ (40 * prec)) = true ↔ (x : ℝ) ≤ binRatio ^ k * 2 ^ prec := by
    intro x
    rw [decide_eq_true_iff, ← pow_le_pow_iff_left₀ (Nat.cast_nonneg x) pos (show 40 ≠ 0 by norm_num), power]
    exact_mod_cast Iff.rfl
  have small : binRatio ^ k * 2 ^ prec < 2 ^ (prec + 4) := by
    have ten : binRatio ^ k ≤ 10 := binRatio_forty ▸ pow_le_pow_right₀ one_le_binRatio few.le
    have two : (0 : ℝ) < 2 ^ prec := by positivity
    rw [pow_add]
    nlinarith
  have found : rootFloor prec k = ⌊binRatio ^ k * 2 ^ prec⌋₊ := findMax_eq_floor _ _ _ test small
  rw [found]
  exact ⟨Nat.floor_le pos, Nat.lt_floor_add_one _⟩

/-! ### Sums of powers -/

/-- A sum over the entries of a list with their places. -/
theorem sum_zipIdx (F : Nat × Nat → ℝ) (c : List Nat) :
    (c.zipIdx.map F).sum = ∑ i ∈ Finset.range c.length, F (c.getD i 0, i) := by
  induction c using List.reverseRecOn with
  | nil => rfl
  | append_singleton c x ih =>
    have front : ∀ i ∈ Finset.range c.length, F ((c ++ [x]).getD i 0, i) = F (c.getD i 0, i) := fun i mem => by
      rw [List.getD_append _ _ _ _ (Finset.mem_range.mp mem)]
    have last : (c ++ [x]).getD c.length 0 = x := by simp
    rw [List.zipIdx_append, List.map_append, List.sum_append, ih, List.length_append, List.length_singleton,
      Finset.sum_range_succ, Finset.sum_congr rfl front, last]
    simp

/-- R92: the value Σ c_k q^k of a list of coefficients. -/
noncomputable def coeffValue (c : List Nat) : ℝ := (c.zipIdx.map fun ck => (ck.1 : ℝ) * binRatio ^ ck.2).sum

theorem binBounds_fold (prec : Nat) (ps : List (Nat × Nat)) (lo hi : Nat) :
    ps.foldl (fun b ck => if ck.1 = 0 then b
      else (b.1 + ck.1 * rootFloor prec ck.2, b.2 + ck.1 * (rootFloor prec ck.2 + 1))) (lo, hi) =
    (lo + (ps.map fun ck => ck.1 * rootFloor prec ck.2).sum, hi + (ps.map fun ck => ck.1 * (rootFloor prec ck.2 + 1)).sum) := by
  induction ps generalizing lo hi with
  | nil => rfl
  | cons ck ps ih =>
    have step : (if ck.1 = 0 then (lo, hi) else (lo + ck.1 * rootFloor prec ck.2, hi + ck.1 * (rootFloor prec ck.2 + 1))) =
        (lo + ck.1 * rootFloor prec ck.2, hi + ck.1 * (rootFloor prec ck.2 + 1)) := by
      split
      next zero => rw [zero, Nat.zero_mul, Nat.zero_mul]; rfl
      next => rfl
    rw [List.foldl_cons, step, ih, List.map_cons, List.map_cons, List.sum_cons, List.sum_cons, Nat.add_assoc, Nat.add_assoc]

/-- R92: the bounds that the first precision gives. -/
theorem binBounds_near (c : List Nat) (short : c.length ≤ 40) :
    coeffValue c * (2 ^ 64 - 1) ≤ (binBounds 64 c).1 ∧ ((binBounds 64 c).1 : ℝ) ≤ coeffValue c * 2 ^ 64 ∧
    coeffValue c * 2 ^ 64 ≤ (binBounds 64 c).2 ∧ ((binBounds 64 c).2 : ℝ) ≤ coeffValue c * (2 ^ 64 + 1) := by
  have near : ∀ ck ∈ c.zipIdx, (rootFloor 64 ck.2 : ℝ) ≤ binRatio ^ ck.2 * 2 ^ 64 ∧
      binRatio ^ ck.2 * 2 ^ 64 < rootFloor 64 ck.2 + 1 ∧ 1 ≤ binRatio ^ ck.2 := by
    intro ck mem
    have few : ck.2 < 40 := lt_of_lt_of_le (List.snd_lt_of_mem_zipIdx mem) (by simpa using short)
    exact ⟨(rootFloor_near 64 ck.2 few).1, (rootFloor_near 64 ck.2 few).2, one_le_pow₀ one_le_binRatio⟩
  have bounds := binBounds_fold 64 c.zipIdx 0 0
  have sums : binBounds 64 c = ((c.zipIdx.map fun ck => ck.1 * rootFloor 64 ck.2).sum,
      (c.zipIdx.map fun ck => ck.1 * (rootFloor 64 ck.2 + 1)).sum) := by
    rw [Nat.zero_add, Nat.zero_add] at bounds
    exact bounds
  rw [sums]
  unfold coeffValue
  push_cast [Nat.cast_list_sum, List.map_map]
  rw [← List.sum_map_mul_right, ← List.sum_map_mul_right, ← List.sum_map_mul_right]
  refine ⟨List.sum_le_sum fun ck mem => ?_, List.sum_le_sum fun ck mem => ?_, List.sum_le_sum fun ck mem => ?_,
    List.sum_le_sum fun ck mem => ?_⟩
  all_goals
    obtain ⟨below, above, one⟩ := near ck mem
    have count : (0 : ℝ) ≤ (ck.1 : ℝ) := Nat.cast_nonneg _
    simp only [Function.comp_apply, Nat.cast_mul, Nat.cast_add, Nat.cast_one]
    rw [mul_assoc]
    refine mul_le_mul_of_nonneg_left ?_ count
    linarith

/-- R92: a list of coefficients with one term. -/
theorem soleTerm_value {c : List Nat} {k n : Nat} (sole : soleTerm c = some (k, n)) : coeffValue c = n * binRatio ^ k := by
  unfold soleTerm at sole
  have drop : ∀ ps : List (Nat × Nat), (ps.map fun ck => (ck.1 : ℝ) * binRatio ^ ck.2).sum =
      ((ps.filter fun ck => ck.1 ≠ 0).map fun ck => (ck.1 : ℝ) * binRatio ^ ck.2).sum := by
    intro ps
    induction ps with
    | nil => rfl
    | cons ck ps ih =>
      by_cases zero : ck.1 = 0
      · rw [List.filter_cons_of_neg (by simpa using zero), List.map_cons, List.sum_cons, ih, zero, Nat.cast_zero, zero_mul, zero_add]
      · rw [List.filter_cons_of_pos (by simpa using zero), List.map_cons, List.sum_cons, ih, List.map_cons, List.sum_cons]
  unfold coeffValue
  rw [drop]
  split at sole
  next ck one =>
    obtain ⟨rfl, rfl⟩ := Prod.mk.inj (Option.some.inj sole)
    rw [one]
    simp
  next => exact absurd sole nofun

/-! ### Histograms as lists of bins and counts -/

/-- R91: the sum of the energies of the counts of `l`, in energies of bin 0. -/
noncomputable def energySum (l : List (Nat × Nat)) : ℝ := (l.map fun b => (b.2 : ℝ) * binRatio ^ b.1).sum

/-- R91: how many levels `l` counts. -/
def countSum (l : List (Nat × Nat)) : Nat := (l.map fun b => b.2).sum

theorem foldl_countSum (l : List (Nat × Nat)) : l.foldl (fun acc b => acc + b.2) 0 = countSum l := by
  have fold : ∀ (l : List (Nat × Nat)) (n : Nat), l.foldl (fun acc b => acc + b.2) n = n + countSum l := by
    intro l
    induction l with
    | nil => exact fun n => rfl
    | cons b l ih =>
      intro n
      unfold countSum at ih ⊢
      rw [List.foldl_cons, ih, List.map_cons, List.sum_cons, Nat.add_assoc]
  rw [fold, Nat.zero_add]

theorem binSum_length (l : List (Nat × Nat)) : (binSum l).length = 40 := by
  unfold binSum
  rw [List.length_map, List.length_range]

/-- R92: the coefficients of a histogram have the value of its energies. -/
theorem binSum_value (l : List (Nat × Nat)) : coeffValue (binSum l) = energySum l := by
  have fold : ∀ (l : List (Nat × Nat)) (n : Nat), l.foldl (fun acc b => acc + b.2 * 10 ^ (b.1 / 40)) n =
      n + (l.map fun b => b.2 * 10 ^ (b.1 / 40)).sum := by
    intro l
    induction l with
    | nil => exact fun n => rfl
    | cons b l ih =>
      intro n
      rw [List.foldl_cons, ih, List.map_cons, List.sum_cons, Nat.add_assoc]
  have entry : ∀ k ∈ Finset.range 40, ((binSum l).getD k 0 : ℝ) * binRatio ^ k =
      ((l.filter fun b => b.1 % 40 == k).map fun b => (b.2 : ℝ) * 10 ^ (b.1 / 40)).sum * binRatio ^ k := by
    intro k mem
    have some_ : (binSum l).getD k 0 = ((l.filter fun b => b.1 % 40 == k).map fun b => b.2 * 10 ^ (b.1 / 40)).sum := by
      unfold binSum
      rw [List.getD_eq_getElem?_getD, List.getElem?_map, List.getElem?_range (Finset.mem_range.mp mem)]
      exact (fold _ 0).trans (Nat.zero_add _)
    rw [some_]
    push_cast [Nat.cast_list_sum, List.map_map]
    simp only [Function.comp_def, Nat.cast_mul, Nat.cast_pow, Nat.cast_ofNat]
  have terms : coeffValue (binSum l) = ∑ k ∈ Finset.range 40,
      ((l.filter fun b => b.1 % 40 == k).map fun b => (b.2 : ℝ) * 10 ^ (b.1 / 40)).sum * binRatio ^ k := by
    unfold coeffValue
    rw [sum_zipIdx (fun ck => (ck.1 : ℝ) * binRatio ^ ck.2), binSum_length]
    exact Finset.sum_congr rfl entry
  rw [terms]
  unfold energySum
  clear terms entry
  induction l with
  | nil => simp
  | cons b l ih =>
    have head : ∀ k ∈ Finset.range 40,
        (((b :: l).filter fun b => b.1 % 40 == k).map fun b => (b.2 : ℝ) * 10 ^ (b.1 / 40)).sum * binRatio ^ k =
          (if b.1 % 40 = k then (b.2 : ℝ) * 10 ^ (b.1 / 40) * binRatio ^ k else 0) +
            ((l.filter fun b => b.1 % 40 == k).map fun b => (b.2 : ℝ) * 10 ^ (b.1 / 40)).sum * binRatio ^ k := by
      intro k _
      by_cases own : b.1 % 40 = k
      · rw [List.filter_cons_of_pos (by simpa using own), List.map_cons, List.sum_cons, if_pos own, add_mul]
      · rw [List.filter_cons_of_neg (by simpa using own), if_neg own, zero_add]
    have place : b.1 % 40 ∈ Finset.range 40 := Finset.mem_range.mpr (Nat.mod_lt _ (by norm_num))
    rw [Finset.sum_congr rfl head, Finset.sum_add_distrib, Finset.sum_ite_eq, if_pos place, ih, List.map_cons, List.sum_cons,
      binRatio_split b.1, mul_assoc]

end Sys2Proof.Machine
end

section
/-! PROOFS, O30. The gate and the integrated level against the real ones (R92). -/

namespace Sys2Proof.Machine

/-- What the first precision decides. -/
theorem findSome_first {β : Type} (f : Nat → Option β) {x : β} (h : f 64 = some x) : precisions.findSome? f = some x := by
  unfold precisions
  rw [List.findSome?_cons, h]

theorem coeffValue_nonneg (c : List Nat) : 0 ≤ coeffValue c := by
  refine List.sum_nonneg fun x mem => ?_
  obtain ⟨ck, -, rfl⟩ := List.mem_map.mp mem
  exact mul_nonneg (Nat.cast_nonneg _) (pow_nonneg binRatio_pos.le _)

/-! ### The gate -/

/-- R92: a bin's share in the gate, against the floors. -/
theorem gateShare (n i : Nat) :
    let l := 10 * n * 10 ^ (i / 40)
    let T := 10 * (n : ℝ) * binRatio ^ i
    T * (2 ^ 64 - 1) ≤ (l * rootFloor 64 (i % 40) : Nat) ∧ ((l * rootFloor 64 (i % 40) : Nat) : ℝ) ≤ T * 2 ^ 64 ∧
      ((l * (rootFloor 64 (i % 40) + 1) : Nat) : ℝ) ≤ T * (2 ^ 64 + 1) ∧ T = (l : ℝ) * binRatio ^ (i % 40) := by
  intro l T
  obtain ⟨below, above⟩ := rootFloor_near 64 (i % 40) (Nat.mod_lt _ (by norm_num))
  have one : 1 ≤ binRatio ^ (i % 40) := one_le_pow₀ one_le_binRatio
  have same : T = (l : ℝ) * binRatio ^ (i % 40) := by
    unfold T l
    rw [binRatio_split i]
    push_cast
    ring
  have count : (0 : ℝ) ≤ l := Nat.cast_nonneg l
  rw [same]
  push_cast
  refine ⟨?_, ?_, ?_, rfl⟩
  all_goals
    rw [mul_assoc]
    refine mul_le_mul_of_nonneg_left ?_ count
    linarith

section decisions

variable {c : List Nat} (short : c.length ≤ 40)
include short

/-- R92: a bin well within the gate passes it. -/
theorem passesGate_above {n i : Nat} (far : coeffValue c * (1 + 1 / 10 ^ 9) ≤ 10 * (n : ℝ) * binRatio ^ i) :
    passesGate c n i = true := by
  obtain ⟨-, -, -, high⟩ := binBounds_near c short
  obtain ⟨low, -, -, -⟩ := gateShare n i
  have reached : (binBounds 64 c).2 ≤ 10 * n * 10 ^ (i / 40) * rootFloor 64 (i % 40) := by
    have value := coeffValue_nonneg c
    have real : ((binBounds 64 c).2 : ℝ) ≤ (10 * n * 10 ^ (i / 40) * rootFloor 64 (i % 40) : Nat) := by linarith
    exact_mod_cast real
  unfold passesGate
  dsimp only
  split
  · rfl
  · rw [findSome_first _ (if_pos reached)]
    rfl

/-- R92: a bin well below the gate does not pass it. -/
theorem passesGate_below {n i : Nat} (some_ : 0 < n) (far : 10 * (n : ℝ) * binRatio ^ i * (1 + 1 / 10 ^ 9) ≤ coeffValue c) :
    passesGate c n i = false := by
  obtain ⟨low, -, above, -⟩ := binBounds_near c short
  obtain ⟨-, below, high, share⟩ := gateShare n i
  have pos : 0 < 10 * (n : ℝ) * binRatio ^ i := by
    have : (0 : ℝ) < n := by exact_mod_cast some_
    exact mul_pos (by linarith) (pow_pos binRatio_pos i)
  have missed : ¬ (binBounds 64 c).2 ≤ 10 * n * 10 ^ (i / 40) * rootFloor 64 (i % 40) := by
    intro reached
    have real : ((binBounds 64 c).2 : ℝ) ≤ (10 * n * 10 ^ (i / 40) * rootFloor 64 (i % 40) : Nat) := by exact_mod_cast reached
    linarith
  have decided : 10 * n * 10 ^ (i / 40) * (rootFloor 64 (i % 40) + 1) ≤ (binBounds 64 c).1 := by
    have real : ((10 * n * 10 ^ (i / 40) * (rootFloor 64 (i % 40) + 1) : Nat) : ℝ) ≤ (binBounds 64 c).1 := by linarith
    exact_mod_cast real
  unfold passesGate
  dsimp only
  split
  next sole =>
    rw [soleTerm_value sole, ← share] at far
    linarith
  next =>
    rw [findSome_first _ ((if_neg missed).trans (if_pos decided))]
    rfl

end decisions

/-! ### The comparison with a power of 10^(1/1000) -/

/-- A power near another, for a base that is large against the exponent. -/
theorem pow_near (e : Nat) (B : ℝ) (few : (e : ℝ) ≤ 1000) (big : 10 ^ 6 ≤ B) :
    B ^ e ≤ 1.01 * (B - 1) ^ e ∧ (B + 1) ^ e ≤ 1.01 * B ^ e := by
  have pos : 0 < B := lt_of_lt_of_le (by norm_num) big
  have inv : B⁻¹ ≤ 1 / 10 ^ 6 := by
    rw [← one_div]
    exact one_div_le_one_div_of_le (by norm_num) big
  have inv0 : 0 < B⁻¹ := inv_pos.mpr pos
  have bernoulli : 1 + (e : ℝ) * -B⁻¹ ≤ (1 + -B⁻¹) ^ e := one_add_mul_le_pow (by linarith) e
  have share : (e : ℝ) * B⁻¹ ≤ 1000 * (1 / 10 ^ 6) := mul_le_mul few inv inv0.le (by norm_num)
  have least : 0.999 ≤ (1 + -B⁻¹) ^ e := le_trans (by linarith) bernoulli
  have power := pow_pos pos e
  have below : (B - 1) ^ e = (1 + -B⁻¹) ^ e * B ^ e := by
    rw [← mul_pow]
    congr 1
    field_simp
    ring
  have above : (B + 1) ^ e = (1 + B⁻¹) ^ e * B ^ e := by
    rw [← mul_pow]
    congr 1
    field_simp
  have product : (1 + B⁻¹) ^ e * (1 + -B⁻¹) ^ e ≤ 1 := by
    rw [← mul_pow]
    exact pow_le_one₀ (by nlinarith) (by nlinarith)
  have up : 0 ≤ (1 + B⁻¹) ^ e := pow_nonneg (by linarith) e
  rw [below, above]
  constructor
  · nlinarith
  · exact mul_le_mul_of_nonneg_right (by nlinarith) power.le

/-- R92: a sum bounded below that is well above a power, in the scale of the bounds. -/
theorem scaled_above {V x P : ℝ} {e : Nat} (few : (e : ℝ) ≤ 1000) (value : 0 ≤ V) (low : V * (2 ^ 64 - 1) ≤ x)
    (far : 1.01 * P ≤ V ^ e) : P * (2 ^ 64) ^ e ≤ x ^ e := by
  obtain ⟨near, -⟩ := pow_near e (2 ^ 64) few (by norm_num)
  have grown : (V * (2 ^ 64 - 1)) ^ e ≤ x ^ e := pow_le_pow_left₀ (mul_nonneg value (by norm_num)) low e
  have power : (0 : ℝ) ≤ (2 ^ 64) ^ e := pow_nonneg (by norm_num) e
  rw [mul_pow] at grown
  generalize ((2 : ℝ) ^ 64 - 1) ^ e = z at *
  generalize ((2 : ℝ) ^ 64) ^ e = y at *
  have values := pow_nonneg value e
  have first : 1.01 * P * y ≤ V ^ e * y := mul_le_mul_of_nonneg_right far power
  have second : V ^ e * y ≤ V ^ e * (1.01 * z) := mul_le_mul_of_nonneg_left near values
  linarith

/-- R92: a sum bounded above that is well below a power, in the scale of the bounds. -/
theorem scaled_below {V x P : ℝ} {e : Nat} (few : (e : ℝ) ≤ 1000) (value : 0 ≤ V) (pos : 0 ≤ x) (high : x ≤ V * (2 ^ 64 + 1))
    (far : 1.01 * V ^ e ≤ P) : x ^ e ≤ P * (2 ^ 64) ^ e := by
  obtain ⟨-, near⟩ := pow_near e (2 ^ 64) few (by norm_num)
  have grown : x ^ e ≤ (V * (2 ^ 64 + 1)) ^ e := pow_le_pow_left₀ pos high e
  have power : (0 : ℝ) ≤ (2 ^ 64) ^ e := pow_nonneg (by norm_num) e
  rw [mul_pow] at grown
  generalize ((2 : ℝ) ^ 64 + 1) ^ e = z at *
  generalize ((2 : ℝ) ^ 64) ^ e = y at *
  have values := pow_nonneg value e
  have first : 1.01 * V ^ e * y ≤ P * y := mul_le_mul_of_nonneg_right far power
  have second : V ^ e * z ≤ V ^ e * (1.01 * y) := mul_le_mul_of_nonneg_left near values
  linarith

theorem ratioReaches_sole {c : List Nat} {k ck : Nat} (sole : soleTerm c = some (k, ck)) (n m : Nat) (strict : Bool) :
    ratioReaches c n m strict = (decide (10 ^ m * n ^ 1000 < ck ^ 1000 * 10 ^ (25 * k)) ||
      (!strict && decide (ck ^ 1000 * 10 ^ (25 * k) = 10 ^ m * n ^ 1000))) := by
  unfold ratioReaches
  rw [sole]

theorem ratioReaches_many {c : List Nat} (many : soleTerm c = none) (n m : Nat) (strict : Bool) :
    (10 ^ m * n ^ 1000 * 2 ^ (1000 * 64) ≤ (binBounds 64 c).1 ^ 1000 → ratioReaches c n m strict = true) ∧
    (¬ 10 ^ m * n ^ 1000 * 2 ^ (1000 * 64) ≤ (binBounds 64 c).1 ^ 1000 →
      (binBounds 64 c).2 ^ 1000 ≤ 10 ^ m * n ^ 1000 * 2 ^ (1000 * 64) → ratioReaches c n m strict = false) := by
  unfold ratioReaches
  rw [many]
  constructor
  · intro reached
    exact congrArg (Option.getD · false) (findSome_first _ (if_pos reached))
  · intro missed decided
    exact congrArg (Option.getD · false) (findSome_first _ ((if_neg missed).trans (if_pos decided)))

theorem soleTerm_power {c : List Nat} {k ck : Nat} (sole : soleTerm c = some (k, ck)) :
    ((ck ^ 1000 * 10 ^ (25 * k) : Nat) : ℝ) = coeffValue c ^ 1000 := by
  have tens : (binRatio ^ k) ^ 1000 = 10 ^ (25 * k) := by
    rw [← pow_mul, show k * 1000 = 40 * (25 * k) by ring, pow_mul, binRatio_forty]
  rw [soleTerm_value sole, mul_pow, tens, Nat.cast_mul, Nat.cast_pow, Nat.cast_pow, Nat.cast_ofNat]

/-- R92: the power that a sum is compared with, in the scale of the first precision. -/
theorem scaled_cast (n m : Nat) :
    ((10 ^ m * n ^ 1000 : Nat) : ℝ) = 10 ^ m * (n : ℝ) ^ 1000 ∧
    ((10 ^ m * n ^ 1000 * 2 ^ (1000 * 64) : Nat) : ℝ) = 10 ^ m * (n : ℝ) ^ 1000 * (2 ^ 64) ^ 1000 := by
  have first : ((10 ^ m * n ^ 1000 : Nat) : ℝ) = 10 ^ m * (n : ℝ) ^ 1000 := by
    rw [Nat.cast_mul, Nat.cast_pow, Nat.cast_pow, Nat.cast_ofNat]
  refine ⟨first, ?_⟩
  rw [Nat.cast_mul, first, Nat.cast_pow, mul_comm 1000 64, pow_mul, Nat.cast_ofNat]

section ratios

variable {c : List Nat} (short : c.length ≤ 40) {n m : Nat} (strict : Bool)
include short

/-- R92: a sum well above a power reaches it. -/
theorem ratioReaches_above (pos : 0 < coeffValue c) (far : 1.01 * (10 ^ m * (n : ℝ) ^ 1000) ≤ coeffValue c ^ 1000) :
    ratioReaches c n m strict = true := by
  obtain ⟨plain, scaled⟩ := scaled_cast n m
  cases sole : soleTerm c with
  | some kc =>
    obtain ⟨k, ck⟩ := kc
    have less : 10 ^ m * n ^ 1000 < ck ^ 1000 * 10 ^ (25 * k) := by
      have power : 0 < coeffValue c ^ 1000 := pow_pos pos 1000
      have real : ((10 ^ m * n ^ 1000 : Nat) : ℝ) < ((ck ^ 1000 * 10 ^ (25 * k) : Nat) : ℝ) := by
        rw [soleTerm_power sole, plain]
        linarith
      exact Nat.cast_lt.mp real
    rw [ratioReaches_sole sole, decide_eq_true less, Bool.true_or]
  | none =>
    obtain ⟨low, -, -, -⟩ := binBounds_near c short
    refine (ratioReaches_many sole n m strict).1 (Nat.cast_le (α := ℝ) |>.mp ?_)
    rw [scaled, Nat.cast_pow]
    exact scaled_above (by norm_num) pos.le low far

/-- R92: a sum well below a power does not reach it. -/
theorem ratioReaches_below (pos : 0 < coeffValue c)
    (far : 1.01 * coeffValue c ^ 1000 ≤ 10 ^ m * (n : ℝ) ^ 1000) : ratioReaches c n m strict = false := by
  obtain ⟨plain, scaled⟩ := scaled_cast n m
  have power : 0 < coeffValue c ^ 1000 := pow_pos pos 1000
  cases sole : soleTerm c with
  | some kc =>
    obtain ⟨k, ck⟩ := kc
    have less : ck ^ 1000 * 10 ^ (25 * k) < 10 ^ m * n ^ 1000 := by
      have real : ((ck ^ 1000 * 10 ^ (25 * k) : Nat) : ℝ) < ((10 ^ m * n ^ 1000 : Nat) : ℝ) := by
        rw [soleTerm_power sole, plain]
        linarith
      exact Nat.cast_lt.mp real
    rw [ratioReaches_sole sole, decide_eq_false (not_lt.mpr less.le), decide_eq_false (ne_of_lt less), Bool.and_false]
    rfl
  | none =>
    obtain ⟨-, low, -, high⟩ := binBounds_near c short
    refine (ratioReaches_many sole n m strict).2 (fun reached => ?_) (Nat.cast_le (α := ℝ) |>.mp ?_)
    · have real := Nat.cast_le (α := ℝ) |>.mpr reached
      rw [scaled, Nat.cast_pow] at real
      have grown : ((binBounds 64 c).1 : ℝ) ^ 1000 ≤ (coeffValue c * 2 ^ 64) ^ 1000 :=
        pow_le_pow_left₀ (Nat.cast_nonneg _) low 1000
      rw [mul_pow] at grown
      have scale : (0 : ℝ) < (2 ^ 64) ^ 1000 := pow_pos (by norm_num) 1000
      have beyond : coeffValue c ^ 1000 * (2 ^ 64) ^ 1000 < 10 ^ m * (n : ℝ) ^ 1000 * (2 ^ 64) ^ 1000 :=
        mul_lt_mul_of_pos_right (lt_of_lt_of_le (lt_mul_of_one_lt_left power (by norm_num)) far) scale
      exact absurd (real.trans grown) (not_le.mpr beyond)
    · rw [scaled, Nat.cast_pow]
      exact scaled_below (by norm_num) pos.le (Nat.cast_nonneg _) high far

end ratios

end Sys2Proof.Machine
end

section
/-! PROOFS, O30. The integrated level, and the statement (R92). -/

namespace Sys2Proof.Machine

/-! ### The search for a level -/

theorem findMax_congr (p q : Nat → Bool) (lo bits : Nat) (same : ∀ j, lo < j → p j = q j) : findMax p lo bits = findMax q lo bits := by
  induction bits generalizing lo with
  | zero => rfl
  | succ bits ih =>
    have step : lo < lo + 2 ^ bits := Nat.lt_add_of_pos_right (by positivity)
    unfold findMax
    rw [same _ step, ih lo same, ih (lo + 2 ^ bits) fun j more => same j (step.trans more)]

/-- A search among the numbers from 1 on. -/
theorem findMax_from_one (p : Nat → Bool) (bits M : Nat) (test : ∀ j, 1 ≤ j → (p j = true ↔ j ≤ M)) (small : M < 2 ^ bits) :
    findMax p 0 bits = M := by
  have same : findMax p 0 bits = findMax (fun j => decide (j ≤ M)) 0 bits :=
    findMax_congr _ _ 0 bits fun j more => by
      rw [Bool.eq_iff_iff, test j more, decide_eq_true_iff]
  rw [same, findMax_eq_floor _ bits M (fun m => by rw [decide_eq_true_iff, Nat.cast_le]) (by exact_mod_cast small), Nat.floor_natCast]

/-- A search whose test is open at one number. -/
theorem findMax_between (p : Nat → Bool) (bits K : Nat) (yes : ∀ j, 1 ≤ j → j ≤ K → p j = true) (no : ∀ j, K + 2 ≤ j → p j = false)
    (small : K + 1 < 2 ^ bits) :
    findMax p 0 bits = K + 1 ∧ p (K + 1) = true ∨ findMax p 0 bits = K ∧ p (K + 1) = false := by
  cases top : p (K + 1) with
  | true =>
    refine .inl ⟨findMax_from_one p bits (K + 1) (fun j one => ⟨fun holds => ?_, fun le => ?_⟩) small, rfl⟩
    · by_contra more
      exact Bool.false_ne_true ((no j (by omega)).symm.trans holds)
    · by_cases last : j = K + 1
      · rw [last]
        exact top
      · exact yes j one (by omega)
  | false =>
    refine .inr ⟨findMax_from_one p bits K (fun j one => ⟨fun holds => ?_, fun le => yes j one le⟩) (by omega), rfl⟩
    by_contra more
    by_cases next : j = K + 1
    · rw [next, top] at holds
      exact Bool.false_ne_true holds
    · exact Bool.false_ne_true ((no j (by omega)).symm.trans holds)

/-! ### The level of a sum of powers -/

theorem tens_near : (1.01 : ℝ) ≤ 10 ^ (0.005 : ℝ) := by
  have power : (1.01 : ℝ) ^ 200 ≤ ((10 : ℝ) ^ (0.005 : ℝ)) ^ 200 := by
    rw [← Real.rpow_natCast ((10 : ℝ) ^ (0.005 : ℝ)), ← Real.rpow_mul (by norm_num)]
    norm_num
  exact le_of_pow_le_pow_left₀ (by norm_num) (by positivity) power

/-- R92: the level of a sum, to the margin of the first precision. -/
theorem binLevel_near {c : List Nat} (short : c.length ≤ 40) {n : Nat} (some_ : 0 < n) (least : (n : ℝ) ≤ coeffValue c)
    (most : coeffValue c ≤ n * 10 ^ (8 : ℝ)) :
    |-6987.5 + 1000 * Real.logb 10 (coeffValue c / n) - (binLevel c n : ℝ)| < 0.51 := by
  have count : (0 : ℝ) < n := by exact_mod_cast some_
  have value : 0 < coeffValue c := lt_of_lt_of_le count least
  set y := 1000 * Real.logb 10 (coeffValue c / n) with y_eq
  have low : 0 ≤ y := mul_nonneg (by norm_num) (Real.logb_nonneg (by norm_num) ((one_le_div count).mpr least))
  have high : y ≤ 8000 := by
    have log : Real.logb 10 (coeffValue c / n) ≤ 8 := by
      rw [Real.logb_le_iff_le_rpow (by norm_num) (by positivity), div_le_iff₀' count]
      exact most
    linarith
  have power : coeffValue c ^ 1000 = (n : ℝ) ^ 1000 * 10 ^ y := by
    have ratio : coeffValue c = n * 10 ^ (y / 1000) := by
      rw [y_eq, mul_div_cancel_left₀ _ (by norm_num), Real.rpow_logb (by norm_num) (by norm_num) (by positivity)]
      field_simp
    have tens : ((10 : ℝ) ^ (y / 1000)) ^ 1000 = 10 ^ y := by
      rw [← Real.rpow_natCast ((10 : ℝ) ^ (y / 1000)), ← Real.rpow_mul (by norm_num), Nat.cast_ofNat, div_mul_cancel₀ _ (by norm_num)]
    conv_lhs => rw [ratio]
    rw [mul_pow, tens]
  have counts : 0 < (n : ℝ) ^ 1000 := pow_pos count 1000
  have yes : ∀ m : Nat, ∀ strict, (m : ℝ) ≤ y - 0.005 → ratioReaches c n m strict = true := by
    intro m strict far
    refine ratioReaches_above short strict value ?_
    have tens : 1.01 * (10 : ℝ) ^ m ≤ 10 ^ y := by
      have split : (10 : ℝ) ^ (0.005 + (m : ℝ)) = 10 ^ (0.005 : ℝ) * 10 ^ m := by
        rw [Real.rpow_add (by norm_num), Real.rpow_natCast]
      calc 1.01 * (10 : ℝ) ^ m ≤ 10 ^ (0.005 : ℝ) * 10 ^ m := mul_le_mul_of_nonneg_right tens_near (by positivity)
        _ = 10 ^ (0.005 + (m : ℝ)) := split.symm
        _ ≤ 10 ^ y := Real.rpow_le_rpow_of_exponent_le (by norm_num) (by linarith)
    rw [power, ← mul_assoc, mul_comm]
    exact mul_le_mul_of_nonneg_left tens counts.le
  have no : ∀ m : Nat, ∀ strict, y + 0.005 ≤ (m : ℝ) → ratioReaches c n m strict = false := by
    intro m strict far
    refine ratioReaches_below short strict value ?_
    have tens : 1.01 * (10 : ℝ) ^ y ≤ 10 ^ m := by
      calc 1.01 * (10 : ℝ) ^ y ≤ 10 ^ (0.005 : ℝ) * 10 ^ y := mul_le_mul_of_nonneg_right tens_near (by positivity)
        _ = 10 ^ (0.005 + y) := (Real.rpow_add (by norm_num) _ _).symm
        _ ≤ 10 ^ (m : ℝ) := Real.rpow_le_rpow_of_exponent_le (by norm_num) (by linarith)
        _ = 10 ^ m := Real.rpow_natCast _ _
    rw [power, mul_left_comm, mul_comm]
    exact mul_le_mul_of_nonneg_right tens counts.le
  have floor := Nat.floor_le (show 0 ≤ y + 0.995 by linarith)
  have ceiling := Nat.lt_floor_add_one (y + 0.995)
  generalize ⌊y + 0.995⌋₊ = K at floor ceiling
  have less : ∀ j : Nat, 1 ≤ j → ((j - 1 : Nat) : ℝ) = j - 1 := fun j one => by rw [Nat.cast_sub one, Nat.cast_one]
  have small : K + 1 < 2 ^ 13 := by
    have real : (K : ℝ) < 8001 := by linarith
    have natural : K < 8001 := by exact_mod_cast real
    omega
  have found := findMax_between (fun j => ratioReaches c n (j - 1) (decide (j ≤ 6988))) 13 K
    (fun j one le => yes _ _ (by
      have real : (j : ℝ) ≤ K := by exact_mod_cast le
      rw [less j one]
      linarith))
    (fun j more => no _ _ (by
      have real : (K : ℝ) + 2 ≤ j := by exact_mod_cast more
      rw [less j (by omega)]
      linarith)) small
  have level : ∀ m : Nat, findMax (fun j => ratioReaches c n (j - 1) (decide (j ≤ 6988))) 0 13 = m →
      (binLevel c n : ℝ) = m - 6988 := by
    intro m same
    unfold binLevel
    rw [same]
    push_cast
    rfl
  rcases found with ⟨same, reached⟩ | ⟨same, missed⟩
  · have within : (K : ℝ) < y + 0.005 := by
      by_contra far
      have out := no (K + 1 - 1) (decide (K + 1 ≤ 6988)) (by rw [Nat.add_sub_cancel]; linarith)
      exact Bool.false_ne_true (out.symm.trans reached)
    rw [level _ same, abs_lt]
    push_cast
    constructor <;> linarith
  · have beyond : y - 0.005 < K := by linarith
    rw [level _ same, abs_lt]
    constructor <;> linarith

/-! ### The histogram and the gate -/

/-- R92: the bins of a histogram that are not empty, with their counts. -/
def occupiedBins (bins : List Nat) : List (Nat × Nat) := ((bins.zipIdx).filter fun b => b.1 ≠ 0).map fun b => (b.2, b.1)

theorem integratedLevel_eq (bins : List Nat) : integratedLevel bins =
    if occupiedBins bins = [] then none
    else
      let gated := (occupiedBins bins).filter fun b => passesGate (binSum (occupiedBins bins)) (countSum (occupiedBins bins)) b.1
      some (binLevel (binSum gated) (countSum gated)) := by
  unfold integratedLevel
  simp only [foldl_countSum]
  rfl

/-- The entries of a list with their places, place by place. -/
theorem zipIdx_eq_range (c : List Nat) : c.zipIdx = (List.range c.length).map fun i => (c.getD i 0, i) := by
  refine List.ext_getElem (by simp) fun i h k => ?_
  have inside : i < c.length := by simpa using h
  simp [List.getElem?_eq_getElem inside]

/-- The entries of a list that are not 0, where only one is. -/
theorem filter_zipIdx_sole {c : List Nat} {i : Nat} (inside : i < c.length) (some_ : c.getD i 0 ≠ 0)
    (sole : ∀ j, j ≠ i → c.getD j 0 = 0) : c.zipIdx.filter (fun b => b.1 ≠ 0) = [(c.getD i 0, i)] := by
  have which : ∀ j ∈ List.range c.length, ((fun b : Nat × Nat => decide (b.1 ≠ 0)) ∘ fun i => (c.getD i 0, i)) j = (j == i) := by
    intro j _
    by_cases same : j = i
    · subst same
      simpa using some_
    · change decide (c.getD j 0 ≠ 0) = (j == i)
      rw [sole j same]
      simp [same]
  rw [zipIdx_eq_range, List.filter_map, List.filter_congr which, List.filter_beq,
    List.count_eq_one_of_mem List.nodup_range (List.mem_range.mpr inside)]
  rfl

theorem mem_occupiedBins {bins : List Nat} {b : Nat × Nat} (mem : b ∈ occupiedBins bins) :
    b.1 < bins.length ∧ b.2 = bins.getD b.1 0 ∧ 0 < b.2 := by
  obtain ⟨x, place, rfl⟩ := List.mem_map.mp mem
  obtain ⟨entry, some_⟩ := List.mem_filter.mp place
  rw [zipIdx_eq_range] at entry
  obtain ⟨i, inside, rfl⟩ := List.mem_map.mp entry
  exact ⟨List.mem_range.mp inside, rfl, Nat.pos_of_ne_zero (of_decide_eq_true some_)⟩

/-- R91: a sum over the bins that are not empty and meet a condition. -/
theorem sum_occupied (bins : List Nat) (cond : Nat → Bool) (f : Nat → ℝ) :
    (((occupiedBins bins).filter fun b => cond b.1).map fun b => (b.2 : ℝ) * f b.1).sum =
      ∑ i ∈ Finset.range bins.length, if cond i then (bins.getD i 0 : ℝ) * f i else 0 := by
  have each : ∀ ps : List (Nat × Nat),
      ((((ps.filter fun b => b.1 ≠ 0).map fun b => (b.2, b.1)).filter fun b => cond b.1).map fun b => (b.2 : ℝ) * f b.1).sum =
        (ps.map fun b => if cond b.2 then (b.1 : ℝ) * f b.2 else 0).sum := by
    intro ps
    induction ps with
    | nil => rfl
    | cons b ps ih =>
      rw [List.map_cons, List.sum_cons, ← ih]
      by_cases zero : b.1 = 0
      · rw [List.filter_cons_of_neg (by simpa using zero), zero]
        simp
      · rw [List.filter_cons_of_pos (by simpa using zero), List.map_cons]
        cases met : cond b.2 with
        | true => rw [List.filter_cons_of_pos (p := fun b : Nat × Nat => cond b.1) (a := (b.2, b.1)) met, List.map_cons, List.sum_cons, if_pos rfl]
        | false => rw [List.filter_cons_of_neg (p := fun b : Nat × Nat => cond b.1) (a := (b.2, b.1)) (by simpa using met), if_neg Bool.false_ne_true, zero_add]
  exact (each bins.zipIdx).trans (sum_zipIdx (fun b => if cond b.2 then (b.1 : ℝ) * f b.2 else 0) bins)

/-! ### A histogram with one bin (R92) -/

/-- R92: the coefficients of one bin are one term. -/
theorem soleTerm_one (i n : Nat) (some_ : 0 < n) : soleTerm (binSum [(i, n)]) = some (i % 40, n * 10 ^ (i / 40)) := by
  have entry : ∀ k, k < 40 → (binSum [(i, n)]).getD k 0 = if i % 40 = k then n * 10 ^ (i / 40) else 0 := by
    intro k few
    unfold binSum
    rw [List.getD_eq_getElem?_getD, List.getElem?_map, List.getElem?_range few]
    by_cases own : i % 40 = k
    · rw [if_pos own]
      simp [own]
    · rw [if_neg own]
      simp [own]
  have place : i % 40 < 40 := Nat.mod_lt _ (by norm_num)
  have value : (binSum [(i, n)]).getD (i % 40) 0 = n * 10 ^ (i / 40) := by rw [entry _ place, if_pos rfl]
  have sole := filter_zipIdx_sole (c := binSum [(i, n)]) (i := i % 40) (by rw [binSum_length]; exact place)
    (by rw [value]; positivity) (fun j other => by
      by_cases few : j < 40
      · rw [entry j few, if_neg (Ne.symm other)]
      · exact List.getD_eq_default _ _ (by rw [binSum_length]; omega))
  unfold soleTerm
  rw [sole, value]

/-- R92: a bin's comparison with a power of 10^(1/1000). -/
theorem ratioReaches_one (i n m : Nat) (some_ : 0 < n) (strict : Bool) :
    ratioReaches (binSum [(i, n)]) n m strict = true ↔ m < 25 * i ∨ strict = false ∧ 25 * i = m := by
  have power : ∀ e, (n * 10 ^ (i / 40)) ^ e = n ^ e * 10 ^ (e * (i / 40)) := fun e => by
    rw [mul_pow, ← pow_mul, mul_comm e]
  have tens : 1000 * (i / 40) + 25 * (i % 40) = 25 * i := by omega
  have same : (n * 10 ^ (i / 40)) ^ 1000 * 10 ^ (25 * (i % 40)) = 10 ^ (25 * i) * n ^ 1000 := by
    rw [power, mul_assoc, ← pow_add, tens, mul_comm]
  have counts : 0 < n ^ 1000 := pow_pos some_ 1000
  rw [ratioReaches_sole (soleTerm_one i n some_), same, Bool.or_eq_true, decide_eq_true_iff, Bool.and_eq_true,
    decide_eq_true_iff, Nat.mul_lt_mul_right counts, Nat.pow_lt_pow_iff_right (by norm_num), Nat.mul_left_inj counts.ne',
    Nat.pow_right_inj (by norm_num), Bool.not_eq_true']

theorem integratedLevel_one (bins : List Nat) (i : Nat) (length : bins.length = 300) (inside : i < 300)
    (some_ : 0 < bins.getD i 0) (sole : ∀ j, j ≠ i → bins.getD j 0 = 0) :
    integratedLevel bins = some (if 280 ≤ i then 25 * (i : Int) - 6987 else 25 * (i : Int) - 6988) := by
  have occupied : occupiedBins bins = [(i, bins.getD i 0)] := by
    unfold occupiedBins
    rw [filter_zipIdx_sole (by rw [length]; exact inside) some_.ne' sole]
    rfl
  generalize bins.getD i 0 = n at *
  have value : energySum [(i, n)] = n * binRatio ^ i := by
    unfold energySum
    simp
  have passes : passesGate (binSum [(i, n)]) (countSum [(i, n)]) i = true := by
    refine passesGate_above (by rw [binSum_length]) ?_
    have positive : 0 < (n : ℝ) * binRatio ^ i := mul_pos (by exact_mod_cast some_) (pow_pos binRatio_pos i)
    have count : countSum [(i, n)] = n := Nat.add_zero n
    rw [binSum_value, value, count, mul_assoc 10]
    linarith
  have level : binLevel (binSum [(i, n)]) n = if 280 ≤ i then 25 * (i : Int) - 6987 else 25 * (i : Int) - 6988 := by
    have found := findMax_from_one (fun j => ratioReaches (binSum [(i, n)]) n (j - 1) (decide (j ≤ 6988))) 13
      (if 280 ≤ i then 25 * i + 1 else 25 * i) (fun j one => by
        rw [ratioReaches_one i n _ some_, decide_eq_false_iff_not]
        split <;> omega) (by split <;> omega)
    unfold binLevel
    rw [found]
    split <;> push_cast <;> ring
  have gated : [(i, n)].filter (fun b => passesGate (binSum [(i, n)]) (countSum [(i, n)]) b.1) = [(i, n)] :=
    List.filter_eq_self.mpr fun b mem => by
      rw [List.mem_singleton.mp mem]
      exact passes
  rw [integratedLevel_eq, occupied, if_neg (List.cons_ne_nil _ _)]
  dsimp only
  rw [gated]
  exact congrArg some level

end Sys2Proof.Machine
end

section
/-! PROOFS, O30. Every histogram against the real levels, and the statement (R92). -/

namespace Sys2Proof.Machine

/-- R91: the energy of bin 0. -/
noncomputable def binBase : ℝ := 10 ^ (-6.9184 : ℝ)

theorem binBase_pos : 0 < binBase := Real.rpow_pos_of_pos (by norm_num) _

/-- R91: the energy at the centre of a bin. -/
theorem binEnergy_eq (i : Nat) : (10 : ℝ) ^ (((-7000 + 25 * i + 12.5 : ℝ) / 100 + 0.691) / 10) = binBase * binRatio ^ i := by
  rw [binRatio_pow]
  unfold binBase
  rw [← Real.rpow_add (by norm_num)]
  congr 1
  ring

/-- R90: the level of an energy in energies of bin 0. -/
theorem levelReal_base {x : ℝ} (pos : 0 < x) : levelReal (binBase * x) = -6987.5 + 1000 * Real.logb 10 x := by
  rw [levelReal_eq, Real.logb_mul binBase_pos.ne' pos.ne']
  unfold binBase
  rw [Real.logb_rpow (by norm_num) (by norm_num)]
  ring

theorem countSum_pos {l : List (Nat × Nat)} (counted : ∀ b ∈ l, 0 < b.2) (some_ : l ≠ []) : 0 < countSum l := by
  obtain ⟨b, mem⟩ := List.exists_mem_of_ne_nil l some_
  exact lt_of_lt_of_le (counted b mem) (List.single_le_sum (fun _ _ => Nat.zero_le _) _ (List.mem_map_of_mem mem))

theorem countSum_le_energySum (l : List (Nat × Nat)) : (countSum l : ℝ) ≤ energySum l := by
  unfold countSum energySum
  rw [Nat.cast_list_sum, List.map_map]
  exact List.sum_le_sum fun b _ => le_mul_of_one_le_right (Nat.cast_nonneg _) (one_le_pow₀ one_le_binRatio)

theorem energySum_le (l : List (Nat × Nat)) (x : ℝ) (bound : ∀ b ∈ l, binRatio ^ b.1 ≤ x) : energySum l ≤ countSum l * x := by
  unfold countSum energySum
  rw [Nat.cast_list_sum, List.map_map, ← List.sum_map_mul_right]
  exact List.sum_le_sum fun b mem => mul_le_mul_of_nonneg_left (bound b mem) (Nat.cast_nonneg _)

/-- R92: the gate of a histogram, in centi-dB. -/
noncomputable def gateLevel (l : List (Nat × Nat)) : ℝ := -6987.5 + 1000 * Real.logb 10 (energySum l / countSum l) - 1000

/-- R91: the level at the centre of a bin. -/
noncomputable def binCentre (i : Nat) : ℝ := -7000 + 25 * i + 12.5

theorem tens_tiny : (1 + 1 / 10 ^ 9 : ℝ) ≤ 10 ^ (1 / 10 ^ 9 : ℝ) := by
  have log : 1 ≤ Real.log 10 := by
    rw [Real.le_log_iff_exp_le (by norm_num)]
    exact (Real.exp_one_lt_d9.le).trans (by norm_num)
  rw [Real.rpow_def_of_pos (by norm_num)]
  refine le_trans ?_ (Real.add_one_le_exp _)
  nlinarith

/-- R92: the gate of the model against the real one, for a bin that does not lie at it. -/
theorem passesGate_eq {l : List (Nat × Nat)} (some_ : 0 < countSum l) (i : Nat)
    (far : 1 / 10 ^ 6 ≤ |binCentre i - gateLevel l|) :
    passesGate (binSum l) (countSum l) i = decide (gateLevel l ≤ binCentre i) := by
  have count : (0 : ℝ) < countSum l := by exact_mod_cast some_
  have energy : 0 < energySum l := lt_of_lt_of_le count (countSum_le_energySum l)
  have short : (binSum l).length ≤ 40 := (binSum_length l).le
  have ratio : energySum l = countSum l * 10 ^ Real.logb 10 (energySum l / countSum l) := by
    rw [Real.rpow_logb (by norm_num) (by norm_num) (by positivity)]
    field_simp
  have apart : binCentre i - gateLevel l = 25 * i + 1000 - 1000 * Real.logb 10 (energySum l / countSum l) := by
    unfold binCentre gateLevel
    ring
  have share : 10 * (countSum l : ℝ) * binRatio ^ i = countSum l * 10 ^ (1 + (i : ℝ) / 40) := by
    rw [binRatio_pow, Real.rpow_add (by norm_num), Real.rpow_one]
    ring
  rw [apart] at far
  set y := Real.logb 10 (energySum l / countSum l)
  by_cases passes : gateLevel l ≤ binCentre i
  · have wide : 0 ≤ 25 * (i : ℝ) + 1000 - 1000 * y := by linarith
    rw [abs_of_nonneg wide] at far
    rw [decide_eq_true passes]
    refine passesGate_above short ?_
    rw [binSum_value, share, ratio, mul_assoc]
    refine mul_le_mul_of_nonneg_left ?_ count.le
    calc (10 : ℝ) ^ y * (1 + 1 / 10 ^ 9) ≤ 10 ^ y * 10 ^ (1 / 10 ^ 9 : ℝ) := mul_le_mul_of_nonneg_left tens_tiny (by positivity)
      _ = 10 ^ (y + 1 / 10 ^ 9) := (Real.rpow_add (by norm_num) _ _).symm
      _ ≤ 10 ^ (1 + (i : ℝ) / 40) := Real.rpow_le_rpow_of_exponent_le (by norm_num) (by linarith)
  · have wide : 25 * (i : ℝ) + 1000 - 1000 * y ≤ 0 := by linarith
    rw [abs_of_nonpos wide] at far
    rw [decide_eq_false passes]
    refine passesGate_below short some_ ?_
    rw [binSum_value, share, mul_assoc]
    refine le_trans (mul_le_mul_of_nonneg_left ?_ count.le) ratio.symm.le
    calc (10 : ℝ) ^ (1 + (i : ℝ) / 40) * (1 + 1 / 10 ^ 9) ≤ 10 ^ (1 + (i : ℝ) / 40) * 10 ^ (1 / 10 ^ 9 : ℝ) :=
          mul_le_mul_of_nonneg_left tens_tiny (by positivity)
      _ = 10 ^ (1 + (i : ℝ) / 40 + 1 / 10 ^ 9) := (Real.rpow_add (by norm_num) _ _).symm
      _ ≤ 10 ^ y := Real.rpow_le_rpow_of_exponent_le (by norm_num) (by linarith)

/-- R92: the gate lies below a bin of its histogram. -/
theorem exists_reaches_gate {l : List (Nat × Nat)} (some_ : 0 < countSum l) : ∃ b ∈ l, gateLevel l ≤ binCentre b.1 := by
  by_contra none_
  push Not at none_
  have count : (0 : ℝ) < countSum l := by exact_mod_cast some_
  have energy : 0 < energySum l := lt_of_lt_of_le count (countSum_le_energySum l)
  have each : ∀ b ∈ l, binRatio ^ b.1 ≤ energySum l / countSum l / 10 := by
    intro b mem
    have below := none_ b mem
    unfold binCentre gateLevel at below
    have power : (10 : ℝ) ^ ((b.1 : ℝ) / 40 + 1) ≤ energySum l / countSum l := by
      rw [← Real.le_logb_iff_rpow_le (by norm_num) (by positivity)]
      linarith
    rw [Real.rpow_add (by norm_num), Real.rpow_one, ← binRatio_pow] at power
    linarith
  have bound := energySum_le l _ each
  have tenth : (countSum l : ℝ) * (energySum l / countSum l / 10) = energySum l / 10 := by field_simp
  rw [tenth] at bound
  linarith

/-- R92: the bins that the gate lets pass. -/
noncomputable def gatedBins (l : List (Nat × Nat)) : List (Nat × Nat) := l.filter fun b => decide (gateLevel l ≤ binCentre b.1)

theorem occupiedBins_nonempty {bins : List Nat} {n : Nat} (mem : n ∈ bins) (some_ : n ≠ 0) : occupiedBins bins ≠ [] := by
  obtain ⟨i, inside, rfl⟩ := List.getElem_of_mem mem
  refine List.ne_nil_of_mem (a := (i, bins[i])) (List.mem_map.mpr ⟨(bins[i], i), List.mem_filter.mpr ⟨?_, decide_eq_true some_⟩, rfl⟩)
  rw [zipIdx_eq_range]
  refine List.mem_map.mpr ⟨i, List.mem_range.mpr inside, ?_⟩
  rw [List.getD_eq_getElem _ _ inside]

theorem integratedLevel_none {bins : List Nat} (zero : ∀ n ∈ bins, n = 0) : integratedLevel bins = none := by
  have empty : occupiedBins bins = [] := List.eq_nil_iff_forall_not_mem.mpr fun b mem => by
    obtain ⟨inside, value, some_⟩ := mem_occupiedBins mem
    rw [value, List.getD_eq_getElem _ _ inside, zero _ (List.getElem_mem inside)] at some_
    exact lt_irrefl 0 some_
  rw [integratedLevel_eq, if_pos empty]

/-- R92: the integrated level of a histogram none of whose bins lies at its gate. -/
theorem integratedLevel_near {bins : List Nat} (length : bins.length = 300) (some_ : occupiedBins bins ≠ [])
    (far : ∀ i, i < 300 → 0 < bins.getD i 0 → 1 / 10 ^ 6 ≤ |binCentre i - gateLevel (occupiedBins bins)|) :
    let g := gatedBins (occupiedBins bins)
    0 < countSum g ∧ ∃ L, integratedLevel bins = some L ∧
      |-6987.5 + 1000 * Real.logb 10 (energySum g / countSum g) - (L : ℝ)| < 0.51 := by
  intro g
  have counted : ∀ b ∈ occupiedBins bins, 0 < b.2 := fun b mem => (mem_occupiedBins mem).2.2
  have total := countSum_pos counted some_
  have same : (occupiedBins bins).filter (fun b => passesGate (binSum (occupiedBins bins)) (countSum (occupiedBins bins)) b.1) = g :=
    List.filter_congr fun b mem => by
      obtain ⟨inside, value, positive⟩ := mem_occupiedBins mem
      exact passesGate_eq total b.1 (far b.1 (length ▸ inside) (value ▸ positive))
  have reached : g ≠ [] := by
    obtain ⟨b, mem, passes⟩ := exists_reaches_gate total
    exact List.ne_nil_of_mem (List.mem_filter.mpr ⟨mem, decide_eq_true passes⟩)
  have few : ∀ b ∈ g, binRatio ^ b.1 ≤ 10 ^ (8 : ℝ) := by
    intro b mem
    have inside : b.1 < 300 := length ▸ (mem_occupiedBins (List.mem_of_mem_filter mem)).1
    have real : (b.1 : ℝ) < 300 := by exact_mod_cast inside
    rw [binRatio_pow]
    exact Real.rpow_le_rpow_of_exponent_le (by norm_num) (by linarith)
  have gated := countSum_pos (fun b mem => counted b (List.mem_of_mem_filter mem)) reached
  refine ⟨gated, binLevel (binSum g) (countSum g), ?_, ?_⟩
  · rw [integratedLevel_eq, if_neg some_]
    dsimp only
    rw [same]
  · have near := binLevel_near (c := binSum g) (binSum_length g).le gated (by rw [binSum_value]; exact countSum_le_energySum g)
      (by rw [binSum_value]; exact energySum_le g _ few)
    rw [binSum_value] at near
    exact near

/-- R92: the mean energy of the bins from a level on, as the statement writes it. -/
theorem meanFrom_eq {bins : List Nat} (length : bins.length = 300) (least : ℝ) :
    let l := (occupiedBins bins).filter fun b => decide (least ≤ binCentre b.1)
    (∑ i ∈ Finset.range 300, if least ≤ binCentre i then (bins.getD i 0 : ℝ) * (10 : ℝ) ^ ((binCentre i / 100 + 0.691) / 10) else 0) /
      (∑ i ∈ Finset.range 300, if least ≤ binCentre i then (bins.getD i 0 : ℝ) else 0) =
    binBase * (energySum l / countSum l) := by
  intro l
  have energies := sum_occupied bins (fun i => decide (least ≤ binCentre i)) fun i => binBase * binRatio ^ i
  have counts := sum_occupied bins (fun i => decide (least ≤ binCentre i)) fun _ => 1
  simp only [decide_eq_true_eq, length, mul_one] at energies counts
  have each : ∀ i : Nat, (10 : ℝ) ^ ((binCentre i / 100 + 0.691) / 10) = binBase * binRatio ^ i := fun i => binEnergy_eq i
  simp only [each]
  rw [← energies, ← counts]
  have sum : (l.map fun b => (b.2 : ℝ) * (binBase * binRatio ^ b.1)).sum = binBase * energySum l := by
    unfold energySum
    rw [← List.sum_map_mul_left]
    exact congrArg List.sum (List.map_congr_left fun b _ => mul_left_comm _ _ _)
  have count : (l.map fun b => (b.2 : ℝ)).sum = countSum l := by
    unfold countSum
    rw [Nat.cast_list_sum, List.map_map]
    rfl
  rw [sum, count, mul_div_assoc]

/-- Settles O30. -/
theorem levelsFollowFormulas : Obligations.LevelsFollowFormulas := by
  refine ⟨rfl, fun e pos => levelOf_near e pos, fun a b c ha hb hc => ⟨fun zero => if_pos zero, correlation_eq a b c ha hb hc⟩,
    fun bins length _ => ?_⟩
  intro count centre energy meanFrom gate
  refine ⟨integratedLevel_none, fun i inside some_ sole => integratedLevel_one bins i length inside some_ sole, ?_⟩
  rintro ⟨n, mem, some_⟩ far
  have nonempty := occupiedBins_nonempty mem some_
  have all : (occupiedBins bins).filter (fun b => decide (centre 0 ≤ binCentre b.1)) = occupiedBins bins :=
    List.filter_eq_self.mpr fun b _ => decide_eq_true (by
      unfold centre binCentre
      have := Nat.cast_nonneg (α := ℝ) b.1
      push_cast
      linarith)
  have mean : ∀ least, meanFrom least = _ := fun least => meanFrom_eq length least
  have total := countSum_pos (fun b mem => (mem_occupiedBins mem).2.2) nonempty
  have positive : ∀ l : List (Nat × Nat), 0 < countSum l → 0 < energySum l / countSum l := fun l some_ => by
    have real : (0 : ℝ) < countSum l := by exact_mod_cast some_
    exact div_pos (lt_of_lt_of_le real (countSum_le_energySum l)) real
  have gate_eq : gate = gateLevel (occupiedBins bins) := by
    change levelReal (meanFrom (centre 0)) - 1000 = _
    rw [mean, all, levelReal_base (positive _ total)]
    rfl
  obtain ⟨gated, L, level, near⟩ := integratedLevel_near length nonempty fun i inside some_ => by
    rw [← gate_eq]
    exact far i inside some_
  refine ⟨L, level, ?_⟩
  change |levelReal (meanFrom gate) - (L : ℝ)| < 0.51
  rw [mean, gate_eq]
  have value := levelReal_base (positive _ gated)
  unfold gatedBins at value near
  rw [value]
  exact near

end Sys2Proof.Machine
end
